-- ==== Sys2Proof/Word.lean ====
section
/-! DEFINITION. The word types of the device and their plainest arithmetic (R8, R9). -/

namespace Sys2Proof

/-- One octet of a packet, a register image or a memory. -/
abbrev Byte := BitVec 8

/-- An octet string, first octet first. -/
abbrev Bytes := List Byte

/-- A Casmar general register or a 64-bit control-window register. -/
abbrev Word := BitVec 64

/-- The largest value of an unsigned field of `n` bits; counters saturate here. -/
def maxOf (n : Nat) : Nat := 2 ^ n - 1

/-- Saturating increment of an `n`-bit counter by `k`. -/
def satAdd (n c k : Nat) : Nat := min (c + k) (maxOf n)

/-- Ceiling division. -/
def ceilDiv (a b : Nat) : Nat := (a + b - 1) / b

end Sys2Proof
end

