-- ==== Sys2Proof/Outside.lean ====
section
/-! DEFINITION. What a command carries from outside the block: the path it came by, what a sensor or a memory read
showed, what the board holds in its flash. The commands themselves are in Syntax.lean. -/

namespace Sys2Proof

/-- A command that travels in a packet (its operation context) or over SMBus (its payload): R40, R406, R416, R422. -/
inductive Via where
  | queue (ctx : Nat)
  | smbus (payload : Bytes)
  deriving DecidableEq, Repr

/-- The tests whose failure is a health failure of the source (R274, R275). -/
inductive HealthTest where
  | rct | apt | balance
  deriving DecidableEq, Repr

/-- What an instance's duplicated pair and its known-answer tests show (R279): the test repeated every 60 s, the test at an
instantiation, the comparison of an output. -/
inductive DrbgTest where
  | periodic | instantiation | pair
  deriving DecidableEq, Repr

/-- What a read of one HBM line showed (R25, R367); `copiesFail`: uncorrectable, and where the area holds a second
copy, that copy fails too. -/
inductive LineState where
  | clean | corrected | uncorrectable | tagFail | copiesFail
  deriving DecidableEq, Repr

/-- Where an uncorrectable error was found (R310, R332, R348, R358); the key cache, the key path and the completion writer,
whose faults raise alarms and have no row of their own in the table, stand here too (R369, R447; log 124). -/
inductive EccSite where
  | sheetSram | engineOps | contextLine
  | laneState (lane : Nat)
  | store (kind : Nat)        -- a control-store word: 0 NTT, 1 hash, 2 binary field, 3 key port, 4 big number
  | guardFile (core : Nat)    -- a guard read on a core: GECC
  | coreData (core : Nat) (addr : BitVec 64)   -- data of a scalar access on a core: BUS
  | coreFetch (core : Nat)    -- an instruction fetch of a core: FETCH
  | keyCache | keyPath | writer
  | storeBit                  -- a single-bit error of a control-store word, which is corrected (R348)
  | logWord (area word : Nat) -- a 64-octet word of the recorder's kept area (0) or circulating area (R389)
  deriving DecidableEq, Repr

/-- A TAP operation (R440); `service n` uses right `n` of the debug certificate table (R421). -/
inductive JtagOp where
  | idcode | bypass | testLogicReset | service (right : Nat)
  deriving DecidableEq, Repr

/-- The transports of SPDM (R252): the DOE mailbox, and MCTP on SMBus. -/
inductive SpdmPath where
  | doe | mctp
  deriving DecidableEq, Repr

/-- What the board and the silicon show at one start (R394 to R405, R412, R417). -/
structure StartEnv where
  clk25 : Bool               -- the 25 MHz reference and its PLLs lock by 1 ms
  clk100 : Bool              -- the 100 MHz reference and its PLLs lock by 1 ms
  puf : Bytes                -- the power-up response of the PUF SRAM: 16 KiB
  helperABad : Bool          -- helper copy A reads with an error that its CRC finds
  helperBBad : Bool
  fuseAgree : Bool           -- the two readings of the life-cycle counter agree
  flashAnswers : Bool        -- the flash answers and its SFDP meets R399
  program : Option (Bytes × Bytes)   -- what a board programmer left in the banks while PERST_N was asserted
  readErrA : Bool            -- a flash read error or time-out on bank A
  readErrB : Bool
  secondDiffA : Bool         -- a section of bank A reads differently the second time
  secondDiffB : Bool
  vddAonMv : Nat             -- VDD_AON at the margin test
  vppMv : Nat                -- VPP_FUSE at the margin test
  mapAOk : Bool              -- retirement map copy A passes its CHECK
  mapBOk : Bool
  journalBad : List Nat      -- journal words that fail CHECK at this start
  curveMismatch : List Nat   -- curve rows, by their place, at whose checks the two engines differ the first time
  badStores : List Nat       -- units with a control-store copy that fails read-back twice
  badUnits : List Nat        -- units whose known-answer self-test fails, and fails again
  deriving DecidableEq, Repr

end Sys2Proof
end

