-- ==== Sys2Proof/Syntax.lean ====
section
/-! DEFINITION. The commands of the block, one constructor for each row of spec/opcode_table.json, in the table's
order. The table gives the rows no operands; each operand is the reading of the row's own summary and rule. A message
that comes as `head` and `body` is the two in a row; an operand that is left out has the default given. -/

namespace Sys2Proof

/-- One command: the row's mnemonic in camel case (OPEN is `openSeal`, since `open` is a keyword). -/
inductive Instr where
  /-- TICK_BOUNDARY (R36): Every 1,600 sheet cycles the datum clock ends a tick: V advances 1,000 ns, LO and HI move with it once a token has been applied, and the datum changes and launch tests of the boundary are ordered. -/
  | tickBoundary
  /-- DATUM_HOLDOVER_WIDEN (R45): Each time 50 ticks have passed since the last applied token, LO drops by 1 ns and HI rises by 1 ns at that boundary. -/
  | datumHoldoverWiden
  /-- DATUM_CHALLENGE (R40): Draws a 128-bit challenge from the atlas DRBG, voids any open challenge and records the issue boundary. -/
  | datumChallenge (via : Via)
  /-- DATUM_TOKEN (R42): Checks the length, fields, signature, challenge and sequence of a datum token, and rejects it or accepts it for application. -/
  | datumToken (via : Via)
  /-- DATUM_TOKEN_APPLY (R44): At the tick boundary after acceptance, writes SEQUENCE to eMRAM and intersects the token interval with the bounds to set V, LO, HI and the datum state. -/
  | datumTokenApply
  /-- DATUM_CHALLENGE_EXPIRE (R40): An open challenge closes 10 s of reference time after its issue boundary. -/
  | datumChallengeExpire
  /-- DATUM_READ (R39): Returns a snapshot of V, LO, HI, U and the datum state at the next tick boundary. -/
  | datumRead (ctx : Nat)
  /-- DATUM_PPS_EDGE (R47): A rising DATUM_PPS edge is accepted or ignored, and an accepted edge is evaluated as a phase refinement. -/
  | datumPpsEdge (subNs : Nat)
  /-- PTM_EXCHANGE (R47): At most once per second the device runs a PTM exchange and evaluates the root's time as a phase refinement. -/
  | ptmExchange (master : Nat) (cycles : Nat) (ok : Bool)
  /-- DATUM_REFINE_APPLY (R47): At the next tick boundary, an accepted refinement advances V by ceil_to_whole_us(S − e), within [LO, HI]. -/
  | datumRefineApply
  /-- SQ_DOORBELL (R75): A write of a new submission tail is validated against head and ring size, and then sets T or is discarded. -/
  | sqDoorbell (q : Nat) (v : BitVec 32) (ide : Option (BitVec 3))
  /-- CQ_DOORBELL (R76): A write of a new completion head releases written cells, which lets held entries be written, or is discarded. -/
  | cqDoorbell (q : Nat) (v : BitVec 32) (ide : Option (BitVec 3))
  /-- NOTICE_ENTRY (R77): At the first tick boundary after a discarded doorbell, a ST_DOORBELL_INVALID notice entry is formed and released for the queue's ring. -/
  | noticeEntry (q : Nat)
  /-- PACKET_CONSUME (R78): When in-flight limits, quota and stream rules allow, the home region core parses the packet at the head and copies it into an operation context or completes it without launch. -/
  | packetConsume (q : Nat)
  /-- OPERATION_LAUNCH (R143): At a tick boundary a waiting operation passes the deadline, validity, quota and slot tests, and launches on a free unit or completes without launch. -/
  | operationLaunch (ctx : Nat) (u : Nat)
  /-- OPERATION_COMPLETE (R51): A unit finishes the fixed tick count of an operation or leg and becomes free. -/
  | operationComplete (ctx : Nat)
  /-- CHECK_LAUNCH (R51): At the first boundary after completion, the check of the operation launches on a partner unit. -/
  | checkLaunch (ctx : Nat) (u : Nat)
  /-- CHECK_COMPLETE (R51): A triangulation check finishes and passes the result to the collector, or fails it and charges transients. -/
  | checkComplete (ctx : Nat) (ok : Bool)
  /-- RERUN_LAUNCH (R360): A withheld operation reruns in full on another working unit, or completes ST_UNIT_FAULT after two reruns. -/
  | rerunLaunch (ctx : Nat) (u : Nat)
  /-- LEG_LAUNCH (R49): The next leg of a long operation launches on the same unit after the previous leg or an intervening benchmark. -/
  | legLaunch (ctx : Nat)
  /-- BENCHMARK_LAUNCH (R54): A known-answer benchmark launches when the 2,000-tick due point, a family change, a transient or a reload calls for it. -/
  | benchmarkLaunch (u : Nat) (fam : Nat)
  /-- BENCHMARK_COMPLETE (R362): A benchmark ends and matches, or mismatches and sends the unit to CONFIRMING or retirement. -/
  | benchmarkComplete (u : Nat) (ok : Bool)
  /-- HATCHING_LAUNCH (R52): In flat mode a unit with no work for the next tick runs one tick of hatching on the HATCH stream. -/
  | hatchingLaunch (u : Nat)
  /-- COLLECTOR_ADMIT (R89): At a tick boundary the region collector admits finished entries in rotating region-ordinal order while it has room. -/
  | collectorAdmit (r : Nat)
  /-- COMPLETION_WRITE (R85): The completion writer takes a collector entry round-robin and writes it, body first and header last, or moves it to staging when the ring lacks space. -/
  | completionWrite
  /-- COALESCE_TIMER_EXPIRE (R377): At the first tick boundary at or after timer start plus TIMER_US, the vector fires. -/
  | coalesceTimerExpire (v : Nat)
  /-- QUE_CTRL_ENABLE_WRITE (R96): A write of 1 to QUE_CTRL[0].ENABLE enables queue 0 and locks its fields when sizes and addresses are legal. -/
  | queCtrlEnableWrite (v : BitVec 32)
  /-- SLICE_CREATE (R99): Creates a slice with its shares, window range, vectors and administration queue, or fails and creates nothing. -/
  | sliceCreate (ctx : Nat)
  /-- SLICE_RESIZE (R103): Changes a slice's shares, all fields or none, at the next tick boundary. -/
  | sliceResize (ctx : Nat)
  /-- SLICE_DESTROY (R110): Squash-resets a slice with WIPE_KEYS in DESTROYING, releases all its resources and leaves it ABSENT. -/
  | sliceDestroy (ctx : Nat)
  /-- SLICE_RESET (R109): Starts a drain or squash reset of a slice in RESETTING. -/
  | sliceReset (ctx : Nat)
  /-- SLICE_FREEZE (R112): Drains or squashes a slice in FREEZING and then freezes it. -/
  | sliceFreeze (ctx : Nat)
  /-- SLICE_QUIESCED (R111): Once every completion of a resetting, freezing or destroying slice has been written, the remaining steps run and the command completes on queue 0. -/
  | sliceQuiesced (ctx : Nat)
  /-- SLICE_EXPORT (R114): Checks the target's chain and signatures, marks the slice EXPORTED and returns the sealed, signed export blob. -/
  | sliceExport (ctx : Nat)
  /-- SLICE_IMPORT (R118): Verifies an export blob, writes journal records and recreates the slice FROZEN on the target. -/
  | sliceImport (ctx : Nat)
  /-- SLICE_THAW (R119): Returns a FROZEN slice to ACTIVE at the next boundary, writes its head shadows and resumes consumption. -/
  | sliceThaw (ctx : Nat)
  /-- IMPORT_PREPARE (R113): Opens an import session and returns a fresh signed ML-KEM-1024 encapsulation key. -/
  | importPrepare (ctx : Nat)
  /-- IMPORT_SESSION_EXPIRE (R113): An import or receive session closes 600 s of reference time after it opened. -/
  | importSessionExpire (session : Nat)
  /-- SLICE_QUERY (R98): Returns the slice's SLC_ registers at offsets 0x000–0x07F. -/
  | sliceQuery (ctx : Nat)
  /-- QP_CREATE (R105): Creates a queue pair in the slice's window range with zeroed counters and an idle stream table. -/
  | qpCreate (ctx : Nat)
  /-- QP_DESTROY (R107): Starts shutdown of a queue: stops consumption, walks and aborts its packets and lets launched work finish. -/
  | qpDestroy (ctx : Nat)
  /-- QP_SHUTDOWN_COMPLETE (R107): After every completion of the destroyed queue has been written, QP_DESTROY completes and the queue number becomes free. -/
  | qpShutdownComplete (q : Nat)
  /-- SLICE_INFO (R104): Returns the slice's own SLC_ registers SLC_STATE to SLC_QUEUES. -/
  | sliceInfo (ctx : Nat)
  /-- SLICE_EPOCH_ADVANCE (R267): Advances the persistence epoch of any slice number from 1 to 1,024. -/
  | sliceEpochAdvance (ctx : Nat)
  /-- MLKEM_KEYGEN (R129): Draws d and z, runs ML-KEM key generation, stores the seed in a new slot and returns handle and encapsulation key. -/
  | mlkemKeygen (ctx : Nat)
  /-- MLKEM_ENCAPS (R130): Encapsulates to a stored or supplied key and deposits the shared secret as a new child key. -/
  | mlkemEncaps (ctx : Nat)
  /-- MLKEM_DECAPS (R130): Decapsulates a ciphertext with implicit rejection and deposits the shared secret as a new child key. -/
  | mlkemDecaps (ctx : Nat)
  /-- MLKEM_PUBLIC (R129): Recomputes and returns the encapsulation key from the stored seed. -/
  | mlkemPublic (ctx : Nat)
  /-- MLDSA_KEYGEN (R131): Draws ξ, runs ML-DSA key generation and returns handle and public key. -/
  | mldsaKeygen (ctx : Nat)
  /-- MLDSA_SIGN (R137): Signs in pure, pre-hash or external-mu mode with a capped rejection loop. -/
  | mldsaSign (ctx : Nat)
  /-- MLDSA_VERIFY (R136): Verifies an ML-DSA signature and completes ST_OK or ST_INPUT_REJECTED after the full count. -/
  | mldsaVerify (ctx : Nat)
  /-- MLDSA_PUBLIC (R131): Returns the ML-DSA public key recomputed from the stored seed. -/
  | mldsaPublic (ctx : Nat)
  /-- HYBRID_KEYGEN (R141): Generates a hybrid ML-KEM plus classical key in one slot. -/
  | hybridKeygen (ctx : Nat)
  /-- HYBRID_ENCAPS (R138): Runs the lattice and classical encapsulation parts and deposits the combined secret K. -/
  | hybridEncaps (ctx : Nat)
  /-- HYBRID_DECAPS (R138): Runs both decapsulation parts and deposits K, or withholds it when either part rejects. -/
  | hybridDecaps (ctx : Nat)
  /-- COMPOSITE_KEYGEN (R141): Generates a composite ML-DSA plus classical signing key in one slot. -/
  | compositeKeygen (ctx : Nat)
  /-- COMPOSITE_SIGN (R140): Signs the message representative M* with both parts and returns the concatenated signature. -/
  | compositeSign (ctx : Nat)
  /-- COMPOSITE_VERIFY (R140): Completes ST_OK only when both parts of the composite signature verify. -/
  | compositeVerify (ctx : Nat)
  /-- KEY_PREPARATION (R127): Expands a slot's lattice public key into the prepared-key cache on a sheet, checked by a partner, before a waiting operation launches. -/
  | keyPreparation (handle : Nat) (ctx : Nat) (u : Nat) (ok : Bool)
  /-- KEY_RESIDENCY (R31): The key store controller unseals a key, splits it into shares and makes it resident in the launching region. -/
  | keyResidency (handle : Nat) (r : Nat)
  /-- SLHDSA_KEYGEN (R153): Generates an SLH-DSA key and returns handle and public key. -/
  | slhdsaKeygen (ctx : Nat)
  /-- SLHDSA_SIGN (R154): Signs with SLH-DSA, hedged or deterministic, in pure or pre-hash mode. -/
  | slhdsaSign (ctx : Nat)
  /-- SLHDSA_VERIFY (R156): Verifies an SLH-DSA signature after the full count. -/
  | slhdsaVerify (ctx : Nat)
  /-- SLHDSA_PUBLIC (R153): Returns the SLH-DSA public key. -/
  | slhdsaPublic (ctx : Nat)
  /-- LMS_KEYGEN (R161): Creates an LMS/HSS key with a new KEY_ID, builds its first trees and writes its first journal record. -/
  | lmsKeygen (ctx : Nat)
  /-- LMS_SIGN (R167): Tests and assigns the next leaf of an LMS/HSS key and signs with it. -/
  | lmsSign (ctx : Nat)
  /-- LMS_VERIFY (R159): Verifies an HSS signature in a count fixed by public data. -/
  | lmsVerify (ctx : Nat)
  /-- LMS_PUBLIC (R171): Returns the stored HSS public key on the chief core. -/
  | lmsPublic (ctx : Nat)
  /-- LMS_STATE (R171): Returns KEY_ID, next leaf, total leaves and reserved end of an LMS/HSS key. -/
  | lmsState (ctx : Nat)
  /-- XMSS_KEYGEN (R161): Creates an XMSS or XMSS^MT key with a new KEY_ID and builds its first trees. -/
  | xmssKeygen (ctx : Nat)
  /-- XMSS_SIGN (R167): Tests and assigns the next leaf of an XMSS key and signs with it. -/
  | xmssSign (ctx : Nat)
  /-- XMSS_VERIFY (R159): Verifies an XMSS or XMSS^MT signature in a count fixed by public data. -/
  | xmssVerify (ctx : Nat)
  /-- XMSS_PUBLIC (R171): Returns the stored XMSS public key on the chief core. -/
  | xmssPublic (ctx : Nat)
  /-- XMSS_STATE (R171): Returns the leaf counters of an XMSS key. -/
  | xmssState (ctx : Nat)
  /-- TREE_BATCH_LAUNCH (R163): The chief core places a leaf batch or join of a stateful tree build on any free sheet. -/
  | treeBatchLaunch (keyId : Nat) (level : Nat) (u : Nat) (ok : Bool)
  /-- JOURNAL_RESERVE (R169): When a quarter of the block remains, and within the write budget, a new reservation record is written and confirmed. -/
  | journalReserve (keyId : Nat)
  /-- MCE_KEYGEN (R176): Runs the Classic McEliece key-generation rejection loop and returns handle and public key. -/
  | mceKeygen (ctx : Nat)
  /-- MCE_ENCAPS (R174): Encapsulates to a McEliece public key and deposits the secret. -/
  | mceEncaps (ctx : Nat)
  /-- MCE_DECAPS (R175): Decapsulates with implicit rejection and deposits the secret. -/
  | mceDecaps (ctx : Nat)
  /-- MCE_PUBLIC (R177): Recomputes and returns the systematic McEliece public key as a chain. -/
  | mcePublic (ctx : Nat)
  /-- HQC_KEYGEN (R173): Generates an HQC key. -/
  | hqcKeygen (ctx : Nat)
  /-- HQC_ENCAPS (R175): Encapsulates to an HQC public key and deposits the 64-byte secret. -/
  | hqcEncaps (ctx : Nat)
  /-- HQC_DECAPS (R175): Decapsulates an HQC ciphertext with implicit rejection and deposits the secret. -/
  | hqcDecaps (ctx : Nat)
  /-- HQC_PUBLIC (R177): Returns the HQC public key. -/
  | hqcPublic (ctx : Nat)
  /-- SURVEY_BATCH (R190): Hashes object digests into a Merkle tree by sections and a join, signs the statement and returns a bearing for every leaf. -/
  | surveyBatch (ctx : Nat)
  /-- BEARING_FORMATION_COMPLETE (R190): The region core finishes forming and comparing every bearing entry, and the chain enters the collector once signing has passed. -/
  | bearingFormationComplete (ctx : Nat) (reformed : Nat) (checks : Nat)
  /-- SURVEY_ANCHOR (R194): Verifies a survey statement's signature and caches its root as an anchor with a window. -/
  | surveyAnchor (ctx : Nat)
  /-- VERIFY_BEARING (R196): Checks a bearing record against a cached anchor root. -/
  | verifyBearing (ctx : Nat)
  /-- ANCHOR_DROP (R195): Removes an anchor of the slice. -/
  | anchorDrop (ctx : Nat)
  /-- EC_KEYGEN (R212): Generates an elliptic-curve key and returns handle and public key. -/
  | ecKeygen (ctx : Nat)
  /-- ECDSA_SIGN (R213): Signs a digest with ECDSA, using an RFC 6979 nonce that is hedged or deterministic. -/
  | ecdsaSign (ctx : Nat)
  /-- ECDSA_VERIFY (R210): Verifies an ECDSA signature after the full count. -/
  | ecdsaVerify (ctx : Nat)
  /-- EDDSA_SIGN (R206): Signs with Ed25519 or Ed448, using a reserved digest lane for H(R‖A‖M). -/
  | eddsaSign (ctx : Nat)
  /-- EDDSA_VERIFY (R210): Verifies an EdDSA signature with the cofactorless equation. -/
  | eddsaVerify (ctx : Nat)
  /-- EC_AGREE (R207): Computes an ECDH or X25519/X448 shared value and deposits it as a child key. -/
  | ecAgree (ctx : Nat)
  /-- EC_PUBLIC (R215): Recomputes and returns the public key of an elliptic-curve key. -/
  | ecPublic (ctx : Nat)
  /-- RSA_KEYGEN (R209): Generates an RSA CRT key by fresh probable-prime candidates. -/
  | rsaKeygen (ctx : Nat)
  /-- RSA_SIGN (R214): Runs a blinded CRT private operation for a PKCS#1 v1.5 or PSS signature. -/
  | rsaSign (ctx : Nat)
  /-- RSA_VERIFY (R210): Verifies an RSA signature. -/
  | rsaVerify (ctx : Nat)
  /-- RSA_DECRYPT (R208): Decrypts OAEP and deposits the message, or the rejection value K̄, as a key. -/
  | rsaDecrypt (ctx : Nat)
  /-- RSA_ENCRYPT (R208): Encrypts a message with RSAES-OAEP. -/
  | rsaEncrypt (ctx : Nat)
  /-- RSA_PUBLIC (R215): Returns the RSA public key. -/
  | rsaPublic (ctx : Nat)
  /-- DIGEST (R227): Hashes a single-packet or streamed message under a SHA-2, SHA-3, SHAKE or cSHAKE mode. -/
  | digest (ctx : Nat)
  /-- DIGEST_BATCH (R228): Hashes up to 256 fragments as separate messages in one slab. -/
  | digestBatch (ctx : Nat)
  /-- MAC (R229): Computes an HMAC or KMAC tag under a stored key. -/
  | mac (ctx : Nat)
  /-- MAC_VERIFY (R232): Compares a computed tag with the expected tag in constant time. -/
  | macVerify (ctx : Nat)
  /-- KDF_HKDF (R233): Derives a key by HKDF and deposits it as a child. -/
  | kdfHkdf (ctx : Nat)
  /-- KDF_COUNTER (R233): Derives a key by SP 800-108 counter mode and deposits it. -/
  | kdfCounter (ctx : Nat)
  /-- KDF_KMAC (R233): Derives a key by KMAC256 and deposits it. -/
  | kdfKmac (ctx : Nat)
  /-- SEAL (R235): Encrypts and authenticates with AES-256-GCM, with a device or host IV. -/
  | seal (ctx : Nat)
  /-- OPEN (R237): Decrypts AES-256-GCM and releases plaintext only after the tag and the mirror agree. -/
  | openSeal (ctx : Nat)
  /-- WRAP (R238): Wraps a key's policy and material with KW or KWP under a KEK. -/
  | wrap (ctx : Nat)
  /-- UNWRAP (R239): Unwraps an envelope and deposits the key with its policy narrowed. -/
  | unwrap (ctx : Nat)
  /-- SLAB_LAUNCH (R222): A ready slab of a stream is placed on a work lane, with a context switch if needed, and its mirror on a partner check lane. -/
  | slabLaunch (ctx : Nat) (u : Nat) (lane : Nat) (cu : Nat) (clane : Nat)
  /-- SLAB_COMPLETE (R224): A slab and its mirror finish, their digests are compared, and the packet's completion enters the collector or the slab reruns from its checkpoint. -/
  | slabComplete (ctx : Nat) (ok : Bool)
  /-- KEY_GENERATE (R262): Generates a symmetric key of the length fixed by its set. -/
  | keyGenerate (ctx : Nat)
  /-- KEY_LOAD_PUBLIC (R263): Validates a public key and stores it PUBLIC_ONLY. -/
  | keyLoadPublic (ctx : Nat)
  /-- KEY_INFO (R262): Returns handle, parent, policy block and quota state of a key. -/
  | keyInfo (ctx : Nat)
  /-- KEY_DESTROY (R259): Schedules a generation bump of a key for the next tick boundary. -/
  | keyDestroy (ctx : Nat)
  /-- GENERATION_BUMP (R259): At the tick boundary the key's generation is bumped and it and its descendants are orphaned, with residencies, prepared entries and kept contexts removed. -/
  | generationBump
  /-- SLOT_RECLAIM (R260): The chief core lazily reclaims orphaned slots and bumps their generation. -/
  | slotReclaim (handle : Nat)
  /-- KEY_PERSIST (R264): Seals a key into a persistence blob under an EXACT or SIGNER sealing key. -/
  | keyPersist (ctx : Nat)
  /-- KEY_RESTORE (R266): Opens a persistence blob and returns the key at its recorded handle. -/
  | keyRestore (ctx : Nat)
  /-- KEY_RECEIVE_PREPARE (R268): Opens a receive session bound to the slice and parent and returns a signed encapsulation key. -/
  | keyReceivePrepare (ctx : Nat)
  /-- KEY_EXPORT (R268): Checks the target chain and returns a key envelope sealed to the target, optionally destroying the source key. -/
  | keyExport (ctx : Nat)
  /-- KEY_IMPORT (R268): Verifies and opens a key envelope and deposits the key under the session's parent. -/
  | keyImport (ctx : Nat)
  /-- KEY_EPOCH_ADVANCE (R267): Advances the submitting slice's persistence epoch. -/
  | keyEpochAdvance (ctx : Nat)
  /-- PEER_ENROL (R268): Verifies a peer identity chain and caches its two identity keys by serial. -/
  | peerEnrol (ctx : Nat)
  /-- ATTEST_QUOTE (R253): Returns evidence with measurements and datum, signed by the composite device identity. -/
  | attestQuote (ctx : Nat)
  /-- RANDOM_BYTES (R286): Returns random bytes from the HOST instance, the HOST instance with prediction resistance, or fresh conditioned output. -/
  | randomBytes (ctx : Nat)
  /-- RANDOM_STATUS (R287): Returns the random service state, mode, recent failures and seeded mask. -/
  | randomStatus (ctx : Nat)
  /-- CONDITIONED_BLOCK (R280): 768 raw bits are conditioned by SHA-384 into 256 full-entropy bits and given to the highest waiting demand or discarded. -/
  | conditionedBlock
  /-- HEALTH_FAILURE (R283): A failed RCT, APT or balance check discards blocks and starts a restart, or halts the source. -/
  | healthFailure (test : HealthTest) (cell : Nat) (value : Nat := 0)
  /-- BALANCE_WINDOW (R272): After each window of 1,024 samples a cell's ones are counted and its trim adjusted, and a trim at a limit is a balance failure. -/
  | balanceWindow (cell : Nat) (ones : Nat)
  /-- BALANCE_TIMEOUT (R276): A cell that has not converged 36 ms into balancing counts as a health failure. -/
  | balanceTimeout (cell : Nat)
  /-- SOURCE_STAGE_COMPLETE (R276): Balancing converges, or the start-up tests end, and the source moves to its next stage. -/
  | sourceStageComplete (failed : Option Nat := none)
  /-- DRBG_RESEED (R278): An instance's reseed period falls due and it reseeds with 384 bits of conditioned output. -/
  | drbgReseed (d : Nat)
  /-- DRBG_RESEED_LIMIT (R278): An INT or HOST instance 1,000 ms past its last reseed, or past 2^24 requests, stops serving. -/
  | drbgReseedLimit (d : Nat)
  /-- DRBG_PERIODIC_KAT (R279): Every 60 s a running instance repeats its known-answer test on a shadow state. -/
  | drbgPeriodicKat (d : Nat) (test : DrbgTest) (ok : Bool := true)
  /-- RNG_WAIT_EXPIRE (R282): A command still waiting for randomness when RNG_WAIT elapses completes ST_ENTROPY_WAIT_TIMEOUT. -/
  | rngWaitExpire (ctx : Nat)
  /-- ADDI (R299): Adds a sign-extended 12-bit immediate. -/
  | addi (c : Nat) (g : BitVec 4) (rd : BitVec 5) (rs1 : BitVec 5) (imm : BitVec 12)
  /-- ANDI (R299): ANDs with a sign-extended immediate. -/
  | andi (c : Nat) (g : BitVec 4) (rd : BitVec 5) (rs1 : BitVec 5) (imm : BitVec 12)
  /-- ORI (R299): ORs with a sign-extended immediate. -/
  | ori (c : Nat) (g : BitVec 4) (rd : BitVec 5) (rs1 : BitVec 5) (imm : BitVec 12)
  /-- XORI (R299): XORs with a sign-extended immediate. -/
  | xori (c : Nat) (g : BitVec 4) (rd : BitVec 5) (rs1 : BitVec 5) (imm : BitVec 12)
  /-- LDK (R299): Loads a 16-bit constant, zero- or sign-extended. -/
  | ldk (c : Nat) (g : BitVec 4) (rd : BitVec 5) (h : Bool) (imm : BitVec 16)
  /-- LDKH (R299): Loads a 16-bit constant shifted left by 16. -/
  | ldkh (c : Nat) (g : BitVec 4) (rd : BitVec 5) (h : Bool) (imm : BitVec 16)
  /-- SHK (R299): Shifts rd left by 16 and inserts a 16-bit constant. -/
  | shk (c : Nat) (g : BitVec 4) (rd : BitVec 5) (imm : BitVec 16)
  /-- ADDK (R299): Adds a signed 16-bit constant, optionally shifted by 16, in place. -/
  | addk (c : Nat) (g : BitVec 4) (rd : BitVec 5) (h : Bool) (imm : BitVec 16)
  /-- SLLI (R299): Shifts left logically by an immediate. -/
  | slli (c : Nat) (g : BitVec 4) (rd : BitVec 5) (rs1 : BitVec 5) (sh : BitVec 6)
  /-- SRLI (R299): Shifts right logically by an immediate. -/
  | srli (c : Nat) (g : BitVec 4) (rd : BitVec 5) (rs1 : BitVec 5) (sh : BitVec 6)
  /-- SRAI (R299): Shifts right arithmetically by an immediate. -/
  | srai (c : Nat) (g : BitVec 4) (rd : BitVec 5) (rs1 : BitVec 5) (sh : BitVec 6)
  /-- RORI (R299): Rotates right by an immediate. -/
  | rori (c : Nat) (g : BitVec 4) (rd : BitVec 5) (rs1 : BitVec 5) (sh : BitVec 6)
  /-- CMPI (R301): Sets FL from rs1 minus a sign-extended immediate. -/
  | cmpi (c : Nat) (g : BitVec 4) (rs1 : BitVec 5) (imm : BitVec 12)
  /-- ADDPC (R299): Writes PC plus a scaled immediate to rd. -/
  | addpc (c : Nat) (g : BitVec 4) (rd : BitVec 5) (imm : BitVec 17)
  /-- LD (R308): Loads a byte, halfword, word or doubleword from the core's address map. -/
  | ld (c : Nat) (g : BitVec 4) (sz : BitVec 3) (rd : BitVec 5) (rs1 : BitVec 5) (imm : BitVec 9)
  /-- ST (R308): Stores a byte, halfword, word or doubleword. -/
  | st (c : Nat) (g : BitVec 4) (sz : BitVec 2) (rs2 : BitVec 5) (rs1 : BitVec 5) (imm : BitVec 10)
  /-- B (R299): Branches relative to PC. -/
  | b (c : Nat) (g : BitVec 4) (imm : BitVec 22)
  /-- BL (R299): Branches and links into x1. -/
  | bl (c : Nat) (g : BitVec 4) (imm : BitVec 22)
  /-- JR (R299): Jumps to a register plus a scaled offset and links into rd. -/
  | jr (c : Nat) (g : BitVec 4) (rd : BitVec 5) (rs1 : BitVec 5) (imm : BitVec 12)
  /-- SYSRD (R309): Reads a system register. -/
  | sysrd (c : Nat) (g : BitVec 4) (rd : BitVec 5) (num : BitVec 12)
  /-- SYSWR (R309): Writes a system register serially, after pending writes land. -/
  | syswr (c : Nat) (g : BitVec 4) (rs : BitVec 5) (num : BitVec 12)
  /-- EOI (R383): A write of EOI makes the named active source inactive or pending, or counts a stray EOI. -/
  | eoi (c : Nat) (src : BitVec 11)
  /-- FENCE (R299): The memory fence of the MISC group. -/
  | fence (c : Nat) (g : BitVec 4)
  /-- ERET (R312): Restores PSTATE from EPSTATE, except PLAIN and RECOV, and returns to EPC. -/
  | eret (c : Nat) (g : BitVec 4)
  /-- WFI (R314): Stops issue until an interrupt is accepted or an eligible event is pending. -/
  | wfi (c : Nat) (g : BitVec 4)
  /-- PLAINX (R297): Leaves plain mode when all guards are written, and locks RECOV_VECTOR on its first execution. -/
  | plainx (c : Nat) (g : BitVec 4)
  /-- PLAINE (R298): Enters plain mode and clears GUARDS.INIT. -/
  | plaine (c : Nat) (g : BitVec 4)
  /-- TRAP (R310): Raises the TRAP exception with a 10-bit code. -/
  | trap (c : Nat) (g : BitVec 4) (code : BitVec 10)
  /-- ADD (R300): 64-bit add, optionally writing FL. -/
  | add (c : Nat) (g : BitVec 4) (f : Bool) (rd : BitVec 5) (rs1 : BitVec 5) (rs2 : BitVec 5)
  /-- SUB (R300): 64-bit subtract, optionally writing FL. -/
  | sub (c : Nat) (g : BitVec 4) (f : Bool) (rd : BitVec 5) (rs1 : BitVec 5) (rs2 : BitVec 5)
  /-- AND (R300): Bitwise AND. -/
  | and (c : Nat) (g : BitVec 4) (f : Bool) (rd : BitVec 5) (rs1 : BitVec 5) (rs2 : BitVec 5)
  /-- OR (R300): Bitwise OR. -/
  | or (c : Nat) (g : BitVec 4) (f : Bool) (rd : BitVec 5) (rs1 : BitVec 5) (rs2 : BitVec 5)
  /-- XOR (R300): Bitwise XOR. -/
  | xor (c : Nat) (g : BitVec 4) (f : Bool) (rd : BitVec 5) (rs1 : BitVec 5) (rs2 : BitVec 5)
  /-- ANDN (R300): AND with the complement of rs2. -/
  | andn (c : Nat) (g : BitVec 4) (f : Bool) (rd : BitVec 5) (rs1 : BitVec 5) (rs2 : BitVec 5)
  /-- SLL (R300): Shift left logical by rs2[5:0]. -/
  | sll (c : Nat) (g : BitVec 4) (f : Bool) (rd : BitVec 5) (rs1 : BitVec 5) (rs2 : BitVec 5)
  /-- SRL (R300): Shift right logical by rs2[5:0]. -/
  | srl (c : Nat) (g : BitVec 4) (f : Bool) (rd : BitVec 5) (rs1 : BitVec 5) (rs2 : BitVec 5)
  /-- SRA (R300): Shift right arithmetic by rs2[5:0]. -/
  | sra (c : Nat) (g : BitVec 4) (f : Bool) (rd : BitVec 5) (rs1 : BitVec 5) (rs2 : BitVec 5)
  /-- ROR (R300): Rotate right by rs2[5:0]. -/
  | ror (c : Nat) (g : BitVec 4) (f : Bool) (rd : BitVec 5) (rs1 : BitVec 5) (rs2 : BitVec 5)
  /-- ADC (R300): Add with carry. -/
  | adc (c : Nat) (g : BitVec 4) (f : Bool) (rd : BitVec 5) (rs1 : BitVec 5) (rs2 : BitVec 5)
  /-- SBC (R300): Subtract with borrow. -/
  | sbc (c : Nat) (g : BitVec 4) (f : Bool) (rd : BitVec 5) (rs1 : BitVec 5) (rs2 : BitVec 5)
  /-- ADDW (R300): 32-bit add, sign-extended. -/
  | addw (c : Nat) (g : BitVec 4) (f : Bool) (rd : BitVec 5) (rs1 : BitVec 5) (rs2 : BitVec 5)
  /-- SUBW (R300): 32-bit subtract, sign-extended. -/
  | subw (c : Nat) (g : BitVec 4) (f : Bool) (rd : BitVec 5) (rs1 : BitVec 5) (rs2 : BitVec 5)
  /-- MIN (R300): Signed minimum. -/
  | min (c : Nat) (g : BitVec 4) (f : Bool) (rd : BitVec 5) (rs1 : BitVec 5) (rs2 : BitVec 5)
  /-- MAX (R300): Signed maximum. -/
  | max (c : Nat) (g : BitVec 4) (f : Bool) (rd : BitVec 5) (rs1 : BitVec 5) (rs2 : BitVec 5)
  /-- MINU (R300): Unsigned minimum. -/
  | minu (c : Nat) (g : BitVec 4) (f : Bool) (rd : BitVec 5) (rs1 : BitVec 5) (rs2 : BitVec 5)
  /-- MAXU (R300): Unsigned maximum. -/
  | maxu (c : Nat) (g : BitVec 4) (f : Bool) (rd : BitVec 5) (rs1 : BitVec 5) (rs2 : BitVec 5)
  /-- CLZ (R300): Counts leading zeros. -/
  | clz (c : Nat) (g : BitVec 4) (f : Bool) (rd : BitVec 5) (rs1 : BitVec 5)
  /-- CTZ (R300): Counts trailing zeros. -/
  | ctz (c : Nat) (g : BitVec 4) (f : Bool) (rd : BitVec 5) (rs1 : BitVec 5)
  /-- POPC (R300): Counts set bits. -/
  | popc (c : Nat) (g : BitVec 4) (f : Bool) (rd : BitVec 5) (rs1 : BitVec 5)
  /-- BSWAP (R300): Reverses the bytes of rs1. -/
  | bswap (c : Nat) (g : BitVec 4) (f : Bool) (rd : BitVec 5) (rs1 : BitVec 5)
  /-- PADD (R302): Packed modular add. -/
  | padd (c : Nat) (g : BitVec 4) (es : BitVec 2) (rd : BitVec 5) (rs1 : BitVec 5) (rs2 : BitVec 5)
  /-- PSUB (R302): Packed modular subtract. -/
  | psub (c : Nat) (g : BitVec 4) (es : BitVec 2) (rd : BitVec 5) (rs1 : BitVec 5) (rs2 : BitVec 5)
  /-- PADDS (R302): Packed add saturated to the signed range. -/
  | padds (c : Nat) (g : BitVec 4) (es : BitVec 2) (rd : BitVec 5) (rs1 : BitVec 5) (rs2 : BitVec 5)
  /-- PADDUS (R302): Packed add saturated to the unsigned range. -/
  | paddus (c : Nat) (g : BitVec 4) (es : BitVec 2) (rd : BitVec 5) (rs1 : BitVec 5) (rs2 : BitVec 5)
  /-- PSUBS (R302): Packed subtract saturated to the signed range. -/
  | psubs (c : Nat) (g : BitVec 4) (es : BitVec 2) (rd : BitVec 5) (rs1 : BitVec 5) (rs2 : BitVec 5)
  /-- PSUBUS (R302): Packed subtract saturated to the unsigned range. -/
  | psubus (c : Nat) (g : BitVec 4) (es : BitVec 2) (rd : BitVec 5) (rs1 : BitVec 5) (rs2 : BitVec 5)
  /-- PMULL (R302): Packed low half of the product. -/
  | pmull (c : Nat) (g : BitVec 4) (es : BitVec 2) (rd : BitVec 5) (rs1 : BitVec 5) (rs2 : BitVec 5)
  /-- PMULHU (R302): Packed unsigned high half of the product. -/
  | pmulhu (c : Nat) (g : BitVec 4) (es : BitVec 2) (rd : BitVec 5) (rs1 : BitVec 5) (rs2 : BitVec 5)
  /-- PCMPEQ (R302): Packed compare for equality. -/
  | pcmpeq (c : Nat) (g : BitVec 4) (es : BitVec 2) (rd : BitVec 5) (rs1 : BitVec 5) (rs2 : BitVec 5)
  /-- PCMPGT (R302): Packed signed greater-than compare. -/
  | pcmpgt (c : Nat) (g : BitVec 4) (es : BitVec 2) (rd : BitVec 5) (rs1 : BitVec 5) (rs2 : BitVec 5)
  /-- PMIN (R302): Packed signed minimum. -/
  | pmin (c : Nat) (g : BitVec 4) (es : BitVec 2) (rd : BitVec 5) (rs1 : BitVec 5) (rs2 : BitVec 5)
  /-- PMAX (R302): Packed signed maximum. -/
  | pmax (c : Nat) (g : BitVec 4) (es : BitVec 2) (rd : BitVec 5) (rs1 : BitVec 5) (rs2 : BitVec 5)
  /-- PMINU (R302): Packed unsigned minimum. -/
  | pminu (c : Nat) (g : BitVec 4) (es : BitVec 2) (rd : BitVec 5) (rs1 : BitVec 5) (rs2 : BitVec 5)
  /-- PMAXU (R302): Packed unsigned maximum. -/
  | pmaxu (c : Nat) (g : BitVec 4) (es : BitVec 2) (rd : BitVec 5) (rs1 : BitVec 5) (rs2 : BitVec 5)
  /-- PSLL (R302): Packed shift left logical. -/
  | psll (c : Nat) (g : BitVec 4) (es : BitVec 2) (rd : BitVec 5) (rs1 : BitVec 5) (rs2 : BitVec 5)
  /-- PSRL (R302): Packed shift right logical. -/
  | psrl (c : Nat) (g : BitVec 4) (es : BitVec 2) (rd : BitVec 5) (rs1 : BitVec 5) (rs2 : BitVec 5)
  /-- PSRA (R302): Packed shift right arithmetic. -/
  | psra (c : Nat) (g : BitVec 4) (es : BitVec 2) (rd : BitVec 5) (rs1 : BitVec 5) (rs2 : BitVec 5)
  /-- PAVGU (R302): Packed unsigned rounding average. -/
  | pavgu (c : Nat) (g : BitVec 4) (es : BitVec 2) (rd : BitVec 5) (rs1 : BitVec 5) (rs2 : BitVec 5)
  /-- GCMP (R303): Sets a guard to a condition on the flags of rs1 − rs2, leaving FL unchanged. -/
  | gcmp (c : Nat) (g : BitVec 4) (gd : BitVec 3) (rs1 : BitVec 5) (rs2 : BitVec 5) (cc : BitVec 4)
  /-- GSET (R303): Sets a guard to a condition on FL. -/
  | gset (c : Nat) (g : BitVec 4) (gd : BitVec 3) (cc : BitVec 4)
  /-- GAND (R303): ANDs two guards, with optional inversion. -/
  | gand (c : Nat) (g : BitVec 4) (gd : BitVec 3) (gs1 : BitVec 3) (gs2 : BitVec 3) (inv1 : Bool) (inv2 : Bool)
  /-- GOR (R303): ORs two guards, with optional inversion. -/
  | gor (c : Nat) (g : BitVec 4) (gd : BitVec 3) (gs1 : BitVec 3) (gs2 : BitVec 3) (inv1 : Bool) (inv2 : Bool)
  /-- GXOR (R303): XORs two guards, with optional inversion. -/
  | gxor (c : Nat) (g : BitVec 4) (gd : BitVec 3) (gs1 : BitVec 3) (gs2 : BitVec 3) (inv1 : Bool) (inv2 : Bool)
  /-- GFROMX (R303): Sets a guard from bit 0 of a register. -/
  | gfromx (c : Nat) (g : BitVec 4) (gd : BitVec 3) (rs1 : BitVec 5) (inv : Bool)
  /-- MUL64 (R304): Starts a 64-bit product into a y register, landing after 3 cycles. -/
  | mul64 (c : Nat) (g : BitVec 4) (yd : BitVec 2) (rs1 : BitVec 5) (rs2 : BitVec 5)
  /-- MULW (R304): Starts a 128-bit unsigned product into yd and rd. -/
  | mulw (c : Nat) (g : BitVec 4) (yd : BitVec 2) (rd : BitVec 5) (rs1 : BitVec 5) (rs2 : BitVec 5)
  /-- MULWS (R304): Starts a 128-bit signed product into yd and rd. -/
  | mulws (c : Nat) (g : BitVec 4) (yd : BitVec 2) (rd : BitVec 5) (rs1 : BitVec 5) (rs2 : BitVec 5)
  /-- MULM (R304): Starts a modular product modulo QMOD into a y register. -/
  | mulm (c : Nat) (g : BitVec 4) (yd : BitVec 2) (rs1 : BitVec 5) (rs2 : BitVec 5)
  /-- MFY (R304): Moves a y register to rd. -/
  | mfy (c : Nat) (g : BitVec 4) (rd : BitVec 5) (ys : BitVec 2)
  /-- MTY (R304): Moves rs1 to a y register. -/
  | mty (c : Nat) (g : BitVec 4) (yd : BitVec 2) (rs1 : BitVec 5)
  /-- YIELD_WRITE_LAND (R305): A pending multiplier write lands in its y register or rd, in issue order. -/
  | yieldWriteLand (c : Nat)
  /-- INTERRUPT_ACCEPT (R313): At an instruction boundary the core takes the presented internal source and jumps to its handler. -/
  | interruptAccept (c : Nat)
  /-- CORE_WDOG_EXPIRE (R357): A core watchdog period elapses and counts as a transient, a region-core fault or a lockstep alarm. -/
  | coreWdogExpire (c : Nat)
  /-- CPSTAT (R316): Reads a coprocessor status word without waiting. -/
  | cpstat (c : Nat) (g : BitVec 4) (cp : BitVec 4) (rd : BitVec 5)
  /-- CPSYNC (R316): Waits for a coprocessor's earlier commands and raises CP_FAULT on a fault. -/
  | cpsync (c : Nat) (g : BitVec 4) (cp : BitVec 4) (rd : BitVec 5)
  /-- COPROCESSOR_COMMAND_COMPLETE (R317): A queued coprocessor command finishes and writes any rd, or faults and discards the commands queued behind it. -/
  | coprocessorCommandComplete (c : Nat) (cp : Nat)
  /-- BNLAUNCH (R318): Launches a big-number engine from a descriptor at the next tick boundary. -/
  | bnlaunch (c : Nat) (g : BitVec 4) (rd : BitVec 5) (rs1 : BitVec 5) (rs2 : BitVec 5)
  /-- BNPOLL (R318): Reads an engine's completion word. -/
  | bnpoll (c : Nat) (g : BitVec 4) (rd : BitVec 5) (rs1 : BitVec 5)
  /-- BNCLEAR (R318): Acknowledges DONE and frees the engine. -/
  | bnclear (c : Nat) (g : BitVec 4) (rs1 : BitVec 5)
  /-- SEQUENCER_WATCHDOG_EXPIRE (R345): A WAIT held beyond LIMIT × 64 cycles, or a leg past its TICKS, aborts the operation for a rerun. -/
  | sequencerWatchdogExpire (u : Nat)
  /-- CONTROL_STORE_RELOAD_END (R348): Three ticks after an uncorrectable store word, the reload ends and the unit returns to SUSPECT with a benchmark first. -/
  | controlStoreReloadEnd (u : Nat)
  /-- NTT_FWD (R336): In-place forward NTT. -/
  | nttFwd (c : Nat) (g : BitVec 4) (rs1 : BitVec 5)
  /-- NTT_INV (R336): Inverse NTT with scaling. -/
  | nttInv (c : Nat) (g : BitVec 4) (rs1 : BitVec 5)
  /-- NTT_PMUL (R336): Pointwise or pairwise modular multiply. -/
  | nttPmul (c : Nat) (g : BitVec 4) (rs1 : BitVec 5) (rs2 : BitVec 5)
  /-- NTT_PMACC (R336): Pointwise multiply-accumulate. -/
  | nttPmacc (c : Nat) (g : BitVec 4) (rs1 : BitVec 5) (rs2 : BitVec 5)
  /-- H_INIT (R336): Zeroes the hash state and clears KEYED. -/
  | hInit (c : Nat) (g : BitVec 4)
  /-- H_ABSORB (R336): Absorbs bytes into the hash state. -/
  | hAbsorb (c : Nat) (g : BitVec 4) (rs1 : BitVec 5) (rs2 : BitVec 5)
  /-- H_FINAL (R336): Pads and processes the last block. -/
  | hFinal (c : Nat) (g : BitVec 4)
  /-- H_SQUEEZE (R336): Outputs squeezed or digest bytes. -/
  | hSqueeze (c : Nat) (g : BitVec 4) (rs1 : BitVec 5) (rs2 : BitVec 5)
  /-- H_SAVE (R336): Saves a 256-byte hash state image, unless KEYED. -/
  | hSave (c : Nat) (g : BitVec 4) (rs1 : BitVec 5)
  /-- H_LOAD (R336): Loads a hash state image. -/
  | hLoad (c : Nat) (g : BitVec 4) (rs1 : BitVec 5)
  /-- SMP_UNIF (R336): Rejection-samples uniform values below QMOD under a block budget. -/
  | smpUnif (c : Nat) (g : BitVec 4) (rs1 : BitVec 5) (rs2 : BitVec 5)
  /-- SMP_CBD (R336): Samples the centred binomial distribution. -/
  | smpCbd (c : Nat) (g : BitVec 4) (rs1 : BitVec 5) (rs2 : BitVec 5)
  /-- SMP_BOUND (R336): Samples or unpacks bounded-uniform coefficients. -/
  | smpBound (c : Nat) (g : BitVec 4) (rs1 : BitVec 5) (rs2 : BitVec 5)
  /-- SMP_BALL (R336): Runs SampleInBall with weight TAU. -/
  | smpBall (c : Nat) (g : BitVec 4) (rs1 : BitVec 5)
  /-- BF_MULV (R336): Multiplies GF(2^m) element vectors. -/
  | bfMulv (c : Nat) (g : BitVec 4) (rs1 : BitVec 5) (rs2 : BitVec 5)
  /-- BF_MATVEC (R336): Computes a GF(2) matrix–vector product. -/
  | bfMatvec (c : Nat) (g : BitVec 4) (rs1 : BitVec 5) (rs2 : BitVec 5)
  /-- BF_EVAL (R336): Evaluates a polynomial at LEN points. -/
  | bfEval (c : Nat) (g : BitVec 4) (rs1 : BitVec 5) (rs2 : BitVec 5)
  /-- BF_BMSTEP (R336): Runs one Berlekamp–Massey iteration. -/
  | bfBmstep (c : Nat) (g : BitVec 4) (rs1 : BitVec 5) (rs2 : BitVec 5)
  /-- KP_SEL (R336): Selects KEY_A, KEY_B or the draw buffer in the key port. -/
  | kpSel (c : Nat) (g : BitVec 4) (rd : BitVec 5) (rs1 : BitVec 5)
  /-- KP_ABSORB (R336): Absorbs selected key material into the hash unit and sets KEYED. -/
  | kpAbsorb (c : Nat) (g : BitVec 4) (rs1 : BitVec 5) (rs2 : BitVec 5)
  /-- KP_BFLOAD (R336): Loads the binary-field secret operand buffer from the key port. -/
  | kpBfload (c : Nat) (g : BitVec 4) (rs1 : BitVec 5) (rs2 : BitVec 5)
  /-- KP_DROP (R336): Ends the selection and zeroes the secret operand buffer. -/
  | kpDrop (c : Nat) (g : BitVec 4)
  /-- RP_MSEED (R336): Draws a 32-byte mask seed and resets RP_CTR. -/
  | rpMseed (c : Nat) (g : BitVec 4)
  /-- RP_DRAW (R336): Fills the draw buffer from the region DRBG. -/
  | rpDraw (c : Nat) (g : BitVec 4) (rs1 : BitVec 5)
  /-- RP_MASKV (R336): Writes mask-stream words into the active elements of a v register. -/
  | rpMaskv (c : Nat) (g : BitVec 4) (vd : BitVec 5)
  /-- VADD (R324): Elementwise add modulo 2^32. -/
  | vadd (c : Nat) (g : BitVec 4) (x : Bool) (vd : BitVec 5) (vs1 : BitVec 5) (vs2 : BitVec 5) (vm : BitVec 3)
  /-- VSUB (R324): Elementwise subtract modulo 2^32. -/
  | vsub (c : Nat) (g : BitVec 4) (x : Bool) (vd : BitVec 5) (vs1 : BitVec 5) (vs2 : BitVec 5) (vm : BitVec 3)
  /-- VAND (R324): Elementwise AND. -/
  | vand (c : Nat) (g : BitVec 4) (x : Bool) (vd : BitVec 5) (vs1 : BitVec 5) (vs2 : BitVec 5) (vm : BitVec 3)
  /-- VOR (R324): Elementwise OR. -/
  | vor (c : Nat) (g : BitVec 4) (x : Bool) (vd : BitVec 5) (vs1 : BitVec 5) (vs2 : BitVec 5) (vm : BitVec 3)
  /-- VXOR (R324): Elementwise XOR. -/
  | vxor (c : Nat) (g : BitVec 4) (x : Bool) (vd : BitVec 5) (vs1 : BitVec 5) (vs2 : BitVec 5) (vm : BitVec 3)
  /-- VANDN (R324): Elementwise AND with complement. -/
  | vandn (c : Nat) (g : BitVec 4) (x : Bool) (vd : BitVec 5) (vs1 : BitVec 5) (vs2 : BitVec 5) (vm : BitVec 3)
  /-- VSLL (R324): Elementwise shift left. -/
  | vsll (c : Nat) (g : BitVec 4) (x : Bool) (vd : BitVec 5) (vs1 : BitVec 5) (vs2 : BitVec 5) (vm : BitVec 3)
  /-- VSRL (R324): Elementwise logical shift right. -/
  | vsrl (c : Nat) (g : BitVec 4) (x : Bool) (vd : BitVec 5) (vs1 : BitVec 5) (vs2 : BitVec 5) (vm : BitVec 3)
  /-- VSRA (R324): Elementwise arithmetic shift right. -/
  | vsra (c : Nat) (g : BitVec 4) (x : Bool) (vd : BitVec 5) (vs1 : BitVec 5) (vs2 : BitVec 5) (vm : BitVec 3)
  /-- VMIN (R324): Elementwise signed minimum. -/
  | vmin (c : Nat) (g : BitVec 4) (x : Bool) (vd : BitVec 5) (vs1 : BitVec 5) (vs2 : BitVec 5) (vm : BitVec 3)
  /-- VMAX (R324): Elementwise signed maximum. -/
  | vmax (c : Nat) (g : BitVec 4) (x : Bool) (vd : BitVec 5) (vs1 : BitVec 5) (vs2 : BitVec 5) (vm : BitVec 3)
  /-- VMINU (R324): Elementwise unsigned minimum. -/
  | vminu (c : Nat) (g : BitVec 4) (x : Bool) (vd : BitVec 5) (vs1 : BitVec 5) (vs2 : BitVec 5) (vm : BitVec 3)
  /-- VMAXU (R324): Elementwise unsigned maximum. -/
  | vmaxu (c : Nat) (g : BitVec 4) (x : Bool) (vd : BitVec 5) (vs1 : BitVec 5) (vs2 : BitVec 5) (vm : BitVec 3)
  /-- VADDM (R328): Elementwise modular add. -/
  | vaddm (c : Nat) (g : BitVec 4) (x : Bool) (vd : BitVec 5) (vs1 : BitVec 5) (vs2 : BitVec 5) (vm : BitVec 3)
  /-- VSUBM (R328): Elementwise modular subtract. -/
  | vsubm (c : Nat) (g : BitVec 4) (x : Bool) (vd : BitVec 5) (vs1 : BitVec 5) (vs2 : BitVec 5) (vm : BitVec 3)
  /-- VNEGM (R328): Elementwise modular negate. -/
  | vnegm (c : Nat) (g : BitVec 4) (vd : BitVec 5) (vs1 : BitVec 5) (vm : BitVec 3)
  /-- VSRR_U (R329): Unsigned rounding shift right. -/
  | vsrrU (c : Nat) (g : BitVec 4) (vd : BitVec 5) (vs1 : BitVec 5) (n : BitVec 5) (vm : BitVec 3)
  /-- VSRR_S (R329): Signed rounding shift right. -/
  | vsrrS (c : Nat) (g : BitVec 4) (vd : BitVec 5) (vs1 : BitVec 5) (n : BitVec 5) (vm : BitVec 3)
  /-- VSAT_U (R329): Clamps to an unsigned range and sets SAT on change. -/
  | vsatU (c : Nat) (g : BitVec 4) (vd : BitVec 5) (vs1 : BitVec 5) (n : BitVec 5) (vm : BitVec 3)
  /-- VSAT_S (R329): Clamps to a signed range and sets SAT on change. -/
  | vsatS (c : Nat) (g : BitVec 4) (vd : BitVec 5) (vs1 : BitVec 5) (n : BitVec 5) (vm : BitVec 3)
  /-- VMUL (R324): Low 32 bits of the elementwise product. -/
  | vmul (c : Nat) (g : BitVec 4) (x : Bool) (vd : BitVec 5) (vs1 : BitVec 5) (vs2 : BitVec 5) (vm : BitVec 3)
  /-- VMULHU (R324): High 32 bits of the unsigned product. -/
  | vmulhu (c : Nat) (g : BitVec 4) (x : Bool) (vd : BitVec 5) (vs1 : BitVec 5) (vs2 : BitVec 5) (vm : BitVec 3)
  /-- VMULHR_U (R329): Unsigned rounded high product. -/
  | vmulhrU (c : Nat) (g : BitVec 4) (x : Bool) (vd : BitVec 5) (vs1 : BitVec 5) (vs2 : BitVec 5) (vm : BitVec 3)
  /-- VMULHR_S (R329): Signed rounded high product, saturating. -/
  | vmulhrS (c : Nat) (g : BitVec 4) (x : Bool) (vd : BitVec 5) (vs1 : BitVec 5) (vs2 : BitVec 5) (vm : BitVec 3)
  /-- VMULM (R328): Elementwise modular multiply, Barrett or Montgomery. -/
  | vmulm (c : Nat) (g : BitVec 4) (x : Bool) (vd : BitVec 5) (vs1 : BitVec 5) (vs2 : BitVec 5) (vm : BitVec 3)
  /-- VMACM (R328): Elementwise modular multiply-accumulate. -/
  | vmacm (c : Nat) (g : BitVec 4) (x : Bool) (vd : BitVec 5) (vs1 : BitVec 5) (vs2 : BitVec 5) (vm : BitVec 3)
  /-- VMV (R324): Vector move. -/
  | vmv (c : Nat) (g : BitVec 4) (vd : BitVec 5) (vs1 : BitVec 5) (vm : BitVec 3)
  /-- VSPLAT (R324): Broadcasts a scalar to every active element. -/
  | vsplat (c : Nat) (g : BitVec 4) (vd : BitVec 5) (xs : BitVec 5) (vm : BitVec 3)
  /-- VEXT (R324): Extracts one element into an x register. -/
  | vext (c : Nat) (g : BitVec 4) (xd : BitVec 5) (vs1 : BitVec 5) (xs : BitVec 5)
  /-- VSLIDEUP (R324): Slides elements up by k. -/
  | vslideup (c : Nat) (g : BitVec 4) (vd : BitVec 5) (vs1 : BitVec 5) (xs : BitVec 5) (vm : BitVec 3)
  /-- VSLIDEDN (R324): Slides elements down by k. -/
  | vslidedn (c : Nat) (g : BitVec 4) (vd : BitVec 5) (vs1 : BitVec 5) (xs : BitVec 5) (vm : BitVec 3)
  /-- VBREV (R324): Bit-reversal permutation over b bits. -/
  | vbrev (c : Nat) (g : BitVec 4) (vd : BitVec 5) (vs1 : BitVec 5) (n : BitVec 5) (vm : BitVec 3)
  /-- VCOMP (R330): FIPS 203 Compress. -/
  | vcomp (c : Nat) (g : BitVec 4) (vd : BitVec 5) (vs1 : BitVec 5) (n : BitVec 5) (vm : BitVec 3)
  /-- VDECOMP (R330): FIPS 203 Decompress. -/
  | vdecomp (c : Nat) (g : BitVec 4) (vd : BitVec 5) (vs1 : BitVec 5) (n : BitVec 5) (vm : BitVec 3)
  /-- VCMPEQ (R324): Writes mask bits for equality. -/
  | vcmpeq (c : Nat) (g : BitVec 4) (x : Bool) (gd : BitVec 3) (vs1 : BitVec 5) (vs2 : BitVec 5) (vm : BitVec 3)
  /-- VCMPNE (R324): Writes mask bits for inequality. -/
  | vcmpne (c : Nat) (g : BitVec 4) (x : Bool) (gd : BitVec 3) (vs1 : BitVec 5) (vs2 : BitVec 5) (vm : BitVec 3)
  /-- VCMPLTU (R324): Writes mask bits for unsigned less-than. -/
  | vcmpltu (c : Nat) (g : BitVec 4) (x : Bool) (gd : BitVec 3) (vs1 : BitVec 5) (vs2 : BitVec 5) (vm : BitVec 3)
  /-- VCMPGEU (R324): Writes mask bits for unsigned greater-or-equal. -/
  | vcmpgeu (c : Nat) (g : BitVec 4) (x : Bool) (gd : BitVec 3) (vs1 : BitVec 5) (vs2 : BitVec 5) (vm : BitVec 3)
  /-- VCMPLT (R324): Writes mask bits for signed less-than. -/
  | vcmplt (c : Nat) (g : BitVec 4) (x : Bool) (gd : BitVec 3) (vs1 : BitVec 5) (vs2 : BitVec 5) (vm : BitVec 3)
  /-- VCMPGE (R324): Writes mask bits for signed greater-or-equal. -/
  | vcmpge (c : Nat) (g : BitVec 4) (x : Bool) (gd : BitVec 3) (vs1 : BitVec 5) (vs2 : BitVec 5) (vm : BitVec 3)
  /-- VLD (R331): Unit-stride or strided vector load. -/
  | vld (c : Nat) (g : BitVec 4) (sz : BitVec 2) (v : BitVec 5) (rs1 : BitVec 5) (rs2 : BitVec 5) (vm : BitVec 3)
  /-- VST (R331): Unit-stride or strided vector store. -/
  | vst (c : Nat) (g : BitVec 4) (sz : BitVec 2) (v : BitVec 5) (rs1 : BitVec 5) (rs2 : BitVec 5) (vm : BitVec 3)
  /-- VGATHER (R333): Indexed gather from sheet SRAM. -/
  | vgather (c : Nat) (g : BitVec 4) (sz : BitVec 2) (v : BitVec 5) (rs1 : BitVec 5) (vs2 : BitVec 5) (vm : BitVec 3)
  /-- VGATHER_FF (R333): First-fault gather that shortens VL instead of faulting beyond element 0. -/
  | vgatherFf (c : Nat) (g : BitVec 4) (sz : BitVec 2) (v : BitVec 5) (rs1 : BitVec 5) (vs2 : BitVec 5) (vm : BitVec 3)
  /-- VSCATTER (R333): Indexed scatter in ascending element order. -/
  | vscatter (c : Nat) (g : BitVec 4) (sz : BitVec 2) (v : BitVec 5) (rs1 : BitVec 5) (vs2 : BitVec 5) (vm : BitVec 3)
  /-- VSETVL (R324): Sets VL from a register. -/
  | vsetvl (c : Nat) (g : BitVec 4) (rd : BitVec 5) (rs1 : BitVec 5)
  /-- VSETVLI (R324): Sets VL from an immediate. -/
  | vsetvli (c : Nat) (g : BitVec 4) (rd : BitVec 5) (imm : BitVec 9)
  /-- UNIT_RETIRE (R363): At the boundary after a cause, the unit leaves the graticule for good and its work reruns elsewhere. -/
  | unitRetire (u : Nat) (cause : Nat)
  /-- REGION_RETIRE (R365): A region is retired: its units leave, residencies are removed, work reruns elsewhere and its queues move home. -/
  | regionRetire (r : Nat) (reason : Nat)
  /-- RETIREMENT_MAP_UPDATE (R364): Within 1 ms the retirement map copies A and B are written and checked. -/
  | retirementMapUpdate
  /-- TRANSIENT_EXPIRE (R362): A transient leaves its unit's window 10,000,000 ticks after it was charged. -/
  | transientExpire (u : Nat)
  /-- CONTEXT_STALL (R357): An operation context that has made no progress for 1,000 ticks is a region-core fault. -/
  | contextStall (ctx : Nat)
  /-- LOCKSTEP_MISMATCH (R369): The chief-core halves diverge and raise a LOCKSTEP alarm. -/
  | lockstepMismatch
  /-- REGION_CORE_MISMATCH (R365): The duplicated control state of a region core disagrees and retires the region. -/
  | regionCoreMismatch (r : Nat)
  /-- HBM_SCRUB_READ (R367): The scrub reads and corrects the next line of its 60 s pass and poisons uncorrectable lines. -/
  | hbmScrubRead (line : Nat) (found : LineState)
  /-- RAIL_VOLTAGE_EXCURSION (R368): A rail leaves its warning, alarm or glitch band and raises a warning, ENVIRONMENT or TAMPER. -/
  | railVoltageExcursion (rail : Nat) (mv : Nat) (ns : Nat)
  /-- TEMP_SENSOR_CONVERSION (R451): Every 100 µs the junction sensors convert, and the hottest and coldest are tested against the thresholds. -/
  | tempSensorConversion (temps : List Int)
  /-- HBM_STACK_TEMP_READ (R451): Every 1 ms the HBM stack sensor is read. -/
  | hbmStackTempRead (t : Int)
  /-- REFERENCE_CLOCK_FAULT (R368): The 25 MHz reference departs beyond ±20 ppm or stops and raises ENVIRONMENT. -/
  | referenceClockFault (ppm : Int) (stopNs : Nat)
  /-- LIGHT_SENSOR_TRIGGER (R368): A light sensor triggers a TAMPER alarm. -/
  | lightSensorTrigger
  /-- TAMPER_IN_N (R441): TAMPER_IN_N low for 1 µs or more raises TAMPER. -/
  | tamperInN (lowNs : Nat)
  /-- THERMTRIP_N (R441): At 125 °C hardware asserts THERMTRIP_N until VDD_AON is removed. -/
  | thermtripN (t : Int)
  /-- MSIX_VECTOR_MASK_WRITE (R378): A write of an MSI-X entry's Mask takes effect before any later firing, and clearing the last mask over a set PBA bit sends one message. -/
  | msixVectorMaskWrite (v : Nat) (mask : Bool)
  /-- MSIX_FUNCTION_MASK_WRITE (R377): A write of Function Mask masks all vectors or releases PBA messages. -/
  | msixFunctionMaskWrite (mask : Bool)
  /-- EVC_CLASS_WRITE (R375): A write of a class's host routing is applied, or ignored with EVC_ROUTE_ERR counted. -/
  | evcClassWrite (cl : Nat) (v : BitVec 32)
  /-- EVC_INT_ROUTE_MASK_WRITE (R382): The chief core masks or unmasks an internal source, which withdraws it from arbitration before the take. -/
  | evcIntRouteMaskWrite (cl : Nat) (mask : Bool) (chief : Bool)
  /-- EVENT_RECORD_WRITE (R385): Within 1 ms a recorded event is written to eMRAM, merged by REPEAT or dropped by the budget. -/
  | eventRecordWrite
  /-- REPEAT_FLUSH (R386): 10 s after the first unwritten increment, the pending REPEAT count is written to eMRAM. -/
  | repeatFlush
  /-- OP_SECONDS_PERSIST (R385): Every 60 s the operating-seconds counter is persisted. -/
  | opSecondsPersist
  /-- LOG_READ (R390): Returns records of the kept or circulating area as a chain. -/
  | logRead (ctx : Nat)
  /-- LOG_INFO (R391): Returns the log header over SMBus. -/
  | logInfo
  /-- LOG_GET (R391): Returns up to 8 records over SMBus. -/
  | logGet (area : Nat) (start : Nat) (count : Nat)
  /-- PERST_N_DEASSERT (R395): Starts the start sequence: clocks, PUF, fuses, boot, bank verify, HBM, load, measure and selftest. -/
  | perstNDeassert (env : StartEnv)
  /-- FUSE_GROUP_BURN_COMPLETE (R418): A 12 ms fuse group burn ends and is read back, and the next group starts or the transition completes. -/
  | fuseGroupBurnComplete (blown : Nat)
  /-- HBM_TRAINING_COMPLETE (R395): HBM training ends, and the HBM stage creates its keys and fills the stack. -/
  | hbmTrainingComplete (ok : Bool)
  /-- DATUM_ACQ_EXPIRE (R405): ACQ_MS after the DATUM stage began, the device proceeds to READY with or without a token. -/
  | datumAcqExpire
  /-- PERST_N_ASSERT (R88): PERST_N assertion ends the command model and holds the device in reset. -/
  | perstNAssert
  /-- POWER_LOSS (R88): Loss of power ends the command model, with eMRAM, fuses and flash kept. -/
  | powerLoss
  /-- FLR (R398): Function Level Reset ends the command model, removes every slice and disables queue 0, keeping datum and image. -/
  | flr
  /-- HOT_RESET (R398): Hot reset has the same effects as FLR. -/
  | hotReset
  /-- CONFIG_REQUEST (R396): A PCIe configuration request is answered with Request Retry Status before READY and normally after. -/
  | configRequest (isWrite : Bool)
  /-- MEMORY_REQUEST_BEFORE_READY (R396): A memory request before READY completes with Unsupported Request. -/
  | memoryRequestBeforeReady
  /-- CONFIG_STATUS (R407): Returns both bank records and the commit, token and SVN-floor counts. -/
  | configStatus (ctx : Nat)
  /-- CONFIG_COMMIT (R408): Checks a new image, spends a token, and erases and programs the non-booted bank header last. -/
  | configCommit (ctx : Nat) (flashOk : Bool)
  /-- COMMIT_TOKEN_GAIN (R409): Every 60 s of powered reference time the commit bucket gains one token, up to 16. -/
  | commitTokenGain
  /-- STAGE_GET (R406): Returns DEV_STAGE, DEV_START_ERR and DEV_INTEGRITY over SMBus. -/
  | stageGet
  /-- IDENT_GET (R413): Returns DEV_IDENT, the serial and the identity chain over SMBus. -/
  | identGet
  /-- LCS_REQUEST (R416): Checks a signed life-cycle request and stores it as the pending request. -/
  | lcsRequest (via : Via)
  /-- LCS_CANCEL (R416): Removes the pending request and the pending debug certificate. -/
  | lcsCancel (via : Via)
  /-- DEBUG_INSTALL (R422): Checks a debug certificate and stores it as the pending certificate. -/
  | debugInstall (via : Via)
  /-- GET_VERSION (R252): SPDM version request. -/
  | getVersion (via : SpdmPath := .doe) (msg : Bytes := [])
  /-- GET_CAPABILITIES (R252): SPDM capabilities request. -/
  | getCapabilities (via : SpdmPath := .doe) (msg : Bytes := [])
  /-- NEGOTIATE_ALGORITHMS (R252): SPDM algorithm negotiation. -/
  | negotiateAlgorithms (via : SpdmPath) (msg : Bytes := [])
  /-- GET_DIGESTS (R252): Returns the digest of certificate slot 0. -/
  | getDigests (via : SpdmPath := .doe) (msg : Bytes := [])
  /-- GET_CERTIFICATE (R252): Returns the identity certificate chain. -/
  | getCertificate (via : SpdmPath) (head : Bytes) (body : Bytes)
  /-- CHALLENGE (R252): SPDM challenge signed with the P-384 identity. -/
  | challenge (via : SpdmPath) (msg : Bytes)
  /-- GET_MEASUREMENTS (R252): Returns D(0) to D(6) as measurement blocks. -/
  | getMeasurements (via : SpdmPath) (head : Bytes) (body : Bytes)
  /-- KEY_EXCHANGE (R252): Starts an SPDM secured session. -/
  | keyExchange (via : SpdmPath) (msg : Bytes)
  /-- FINISH (R252): Completes an SPDM session handshake. -/
  | finish (via : SpdmPath) (record : Bytes := [])
  /-- END_SESSION (R252): Ends an SPDM session. -/
  | endSession (via : SpdmPath := .doe) (record : Bytes := [])
  /-- KEY_UPDATE (R252): Updates SPDM session keys. -/
  | keyUpdate (via : SpdmPath) (record : Bytes := [])
  /-- HEARTBEAT (R252): SPDM session heartbeat. -/
  | heartbeat (via : SpdmPath := .doe) (record : Bytes := [])
  /-- IDE_KM (R252): IDE key management carried in VENDOR_DEFINED_REQUEST. -/
  | ideKm (head : Bytes) (body : Bytes)
  /-- GET_TDISP_VERSION (R120): TDISP version request. -/
  | getTdispVersion (record : Bytes)
  /-- GET_TDISP_CAPABILITIES (R120): TDISP capabilities request. -/
  | getTdispCapabilities (record : Bytes)
  /-- LOCK_INTERFACE_REQUEST (R121): Binds a slice's interface to a selective IDE stream and locks it. -/
  | lockInterfaceRequest (head : Bytes) (body : Bytes)
  /-- GET_DEVICE_INTERFACE_REPORT (R120): Reports the slice's window range as its MMIO range. -/
  | getDeviceInterfaceReport (record : Bytes)
  /-- GET_DEVICE_INTERFACE_STATE (R120): Returns the TDISP interface state. -/
  | getDeviceInterfaceState (record : Bytes)
  /-- START_INTERFACE_REQUEST (R121): Moves a locked interface to RUN, so that doorbells take effect. -/
  | startInterfaceRequest (record : Bytes)
  /-- STOP_INTERFACE_REQUEST (R120): Stops a TDISP interface. -/
  | stopInterfaceRequest (record : Bytes)
  /-- LOW_WORD_READ (R12): A 32-bit read of a 64-bit register's low word latches the high word and clears RC fields of both halves. -/
  | lowWordRead (off : Nat) (width : Nat := 32)
  /-- DTM_VALUE_LOW_READ (R60): A read of DTM_VALUE's low word takes a snapshot of all the datum registers. -/
  | dtmValueLowRead (width : Nat)
  /-- RC_READ (R13): A read of a register with RC fields returns them and clears them. -/
  | rcRead (off : Nat) (width : Nat)
  /-- LOW_WORD_WRITE (R12): A 32-bit write of a 64-bit register's low word is held until the high word is written. -/
  | lowWordWrite (off : Nat) (v : BitVec 32)
  /-- HIGH_WORD_WRITE (R12): A 32-bit write of the high word commits it together with the held or current low word. -/
  | highWordWrite (off : Nat) (v : BitVec 32)
  /-- REGISTER_WRITE (R13): A write of a control-window register without behaviour of its own, applied by its access code and lock. -/
  | registerWrite (off : Nat) (width : Nat) (v : BitVec 64)
  /-- POWER_UP (R433): The rails rise: the always-on domain comes up, the entropy source starts, the on-die monitor releases blocks once VDD_AON, VDD_IO and VDD_CORE are good, and SMB_ADDR is sampled. -/
  | powerUp (smbAddr : BitVec 2)
  /-- QUEUE_WINDOW_ACCESS (R121): A host write or read reaches the queue window outside the doorbells: packet cells are stored in a submission ring, poisoned cells are marked, and requests off the bound IDE stream are discarded or refused, counted, and move the TDISP interface to ERROR. -/
  | queueWindowAccess (isWrite : Bool) (off : Nat) (len : Nat) (data : Bytes) (ide : Option (BitVec 3)) (poison : Bool)
  /-- UNDEFINED_ENCODING (R293): A core issues a word with an unassigned major opcode, function or non-zero reserved field and raises ILLEGAL. -/
  | undefinedEncoding (c : Nat) (w : BitVec 32)
  /-- BEAT_LEAVES_PIPE (R325): A beat of an issued vector instruction leaves its pipe after the pipe depth, writing its elements and releasing chained or interlocked consumers. -/
  | beatLeavesPipe (c : Nat)
  /-- UNCORRECTABLE_ECC_ERROR (R358): An uncorrectable error is found in sheet SRAM, engine OPS, lane state or a control-store word during an operation, which aborts it, charges a transient and, for a store word, starts the reload. -/
  | uncorrectableEccError (u : Nat) (site : EccSite)
  /-- HBM_CHANNEL_FAILURE (R367): A whole HBM channel or the PHY fails and raises alarm class INTERNAL. -/
  | hbmChannelFailure (phy : Bool)
  /-- SMBUS_TIMEOUT (R439): The SMBus bus time-out of 25–35 ms expires on a stalled transaction. -/
  | smbusTimeout
  /-- JTAG_ACCESS (R440): A TAP operation on TCK/TMS or TRST_N is served under the rights open at the time (IDCODE, BYPASS, the grants of the life-cycle state or the debug certificate). -/
  | jtagAccess (op : JtagOp)
  /-- IDENTITY_CHAIN_PROVISIONING (R250): In PROVISIONED the identity certificate chain is written to eMRAM through the factory path. -/
  | identityChainProvisioning (chain : Bytes)
  deriving DecidableEq, Repr

end Sys2Proof
end

