-- ==== Sys2Proof/Config.lean ====
section
/-! DEFINITION. What the spec does not fix by its own text: the functions of the post-quantum standards it names, and of the
device's own unpublished logic, as uninterpreted functions of the exact inputs the rules give, and the free values of random
draws. No constant here has a body a proof could use. -/

namespace Sys2Proof

/-- The primitives of the named standards and of the device's own unpublished logic. -/
inductive Prim where
  | mlkemSecret | mldsaSecret | mlkemPublic | mlkemEncapsCt | mlkemEncapsKey | mlkemDecaps
  | mldsaPublic | mldsaSign
  | slhPublic | slhSign
  | hssPublic | hssSign | xmssPublic | xmssSign
  | mcePublic | mceSecret | mceEncapsCt | mceEncapsKey | mceDecaps
  | hqcPublic | hqcSecret | hqcEncapsCt | hqcEncapsKey | hqcDecaps
  | oaepReject
  | nttForward | nttInverse | bmStep | maskStream
  | romKey | packField | enginePart
  | expandA | fixedWeight | lineTag | lineCheck | packResult
  deriving DecidableEq, Repr

/-- The result of a primitive on a selector (a PARAM code, a length or a mode) and its inputs. -/
opaque Config.prim : Prim → Nat → List Bytes → Bytes

/-- The checks whose verdict a standard defines. -/
inductive Verdict where
  | mldsaVerify | slhVerify | hssVerify | xmssVerify
  | mceKeyOk | hqcKeyOk
  deriving DecidableEq, Repr

/-- The verdict of a check on a selector and its inputs. -/
opaque Config.verdict : Verdict → Nat → List Bytes → Bool

/-- Iterations that a rejection loop of a standard takes on its inputs, and the batches that a sampler takes beyond its
budget (R50, R129, R137, R176, R209, R215). -/
opaque Config.loopCount : Prim → Nat → List Bytes → Nat

/-- The octets of draw number `k`, of any length: a free value (R151, R181, R217, R240, R270, R286). -/
opaque Config.drawByte : Nat → Nat → Byte

/-- A free 64-bit value, one for each number: a value that the spec leaves undefined. -/
opaque Config.freeWord : Nat → BitVec 64

/-- The octets of the chief core's ROM, which the spec does not print (R249, R308). -/
opaque Config.romByte : Nat → Byte

/-- Octet `i` of free value `k`: contents that the spec leaves undefined. -/
opaque Config.freeByte : Nat → Nat → Byte

/-- The first `n` octets of a string, padded with zeros to exactly `n`. -/
def fit (n : Nat) (b : Bytes) : Bytes := (b ++ List.replicate n 0#8).take n

/-- `n` octets of draw number `k`. -/
def drawBytes (k n : Nat) : Bytes := (List.range n).map (Config.drawByte k)

theorem fit_length (n : Nat) (b : Bytes) : (fit n b).length = n := by
  simp [fit]

theorem drawBytes_length (k n : Nat) : (drawBytes k n).length = n := by
  simp [drawBytes]

end Sys2Proof
end

