-- ==== Sys2Proof/Machine/Octets.lean ====
section
/-! DEFINITION. Octet strings: byte orders, fields, bits, and CRC-32C (R8, R9, R63). -/

namespace Sys2Proof.Machine

open Sys2Proof

/-- `n` octets of `v`, little-endian. -/
def le : Nat → Nat → Bytes
  | 0, _ => []
  | n + 1, v => BitVec.ofNat 8 v :: le n (v / 256)

/-- The number that a little-endian string holds. -/
def leNat : Bytes → Nat
  | [] => 0
  | b :: t => b.toNat + 256 * leNat t

/-- `n` octets of `v`, big-endian. -/
def be (n v : Nat) : Bytes := (le n v).reverse

/-- The number that a big-endian string holds. -/
def beNat (b : Bytes) : Nat := b.foldl (fun a x => a * 256 + x.toNat) 0

/-- The octets of two strings added without carry, as far as the shorter goes. -/
def xorBytes (a b : Bytes) : Bytes := List.zipWith (· ^^^ ·) a b

/-- The `n` octets at an offset. -/
def bytesAt (b : Bytes) (off n : Nat) : Bytes := (b.drop off).take n

/-- The little-endian field of `n` octets at an offset. -/
def uAt (b : Bytes) (off n : Nat) : Nat := leNat (bytesAt b off n)

/-- Every octet of a field is zero. -/
def zeroAt (b : Bytes) (off n : Nat) : Bool := (bytesAt b off n).all (· == 0)

/-- The octets of an ASCII string. -/
def ascii (t : String) : Bytes := t.toList.map fun c => BitVec.ofNat 8 c.toNat

/-- Bit `i` of a number. -/
def bitOf (v i : Nat) : Bool := v.testBit i

/-- The field of `n` bits from bit `i` of a number. -/
def fieldOf (v i n : Nat) : Nat := v / 2 ^ i % 2 ^ n

/-- A truth value as a bit. -/
def b2n (b : Bool) : Nat := if b then 1 else 0

/-- One bit of CRC-32C, reflected (R63). -/
def crcBit (c : BitVec 32) : BitVec 32 :=
  if c.getLsbD 0 then (c >>> 1) ^^^ 0x82F63B78#32 else c >>> 1

/-- One octet of CRC-32C. -/
def crcByte (c : BitVec 32) (b : Byte) : BitVec 32 :=
  crcBit (crcBit (crcBit (crcBit (crcBit (crcBit (crcBit (crcBit (c ^^^ b.setWidth 32))))))))

/-- CRC-32C of a string (R63). -/
def crc32c (b : Bytes) : Nat := (b.foldl crcByte 0xFFFFFFFF#32 ^^^ 0xFFFFFFFF#32).toNat

/-- Adding a string of the same length twice gives the first back. -/
theorem xorBytes_cancel : ∀ (a k : Bytes), a.length ≤ k.length → xorBytes (xorBytes a k) k = a
  | [], _, _ => by simp [xorBytes]
  | _ :: _, [], h => by simp at h
  | x :: a, y :: k, h => by
    have h' : a.length ≤ k.length := by simpa using h
    simpa [xorBytes, BitVec.xor_assoc] using xorBytes_cancel a k h'

end Sys2Proof.Machine
end

