-- ==== Sys2Proof/Machine/Sha.lean ====
section
/-! DEFINITION. The hash functions that the spec names: SHA-2 (FIPS 180-4), SHA-3 and SHAKE (FIPS 202) and cSHAKE
(SP 800-185), down to their compressions and permutation, which a sheet's hash unit runs too (R226, R227, R336). -/

namespace Sys2Proof.Machine

open Sys2Proof

/-! ## Compressions of SHA-2 -/

/-- The first half of the constants of SHA-256 (FIPS 180-4, 4.2.2). -/
def sha256K0 : List (BitVec 32) :=
  [0x428A2F98, 0x71374491, 0xB5C0FBCF, 0xE9B5DBA5, 0x3956C25B, 0x59F111F1, 0x923F82A4, 0xAB1C5ED5,
   0xD807AA98, 0x12835B01, 0x243185BE, 0x550C7DC3, 0x72BE5D74, 0x80DEB1FE, 0x9BDC06A7, 0xC19BF174,
   0xE49B69C1, 0xEFBE4786, 0x0FC19DC6, 0x240CA1CC, 0x2DE92C6F, 0x4A7484AA, 0x5CB0A9DC, 0x76F988DA,
   0x983E5152, 0xA831C66D, 0xB00327C8, 0xBF597FC7, 0xC6E00BF3, 0xD5A79147, 0x06CA6351, 0x14292967]

/-- The second half. -/
def sha256K1 : List (BitVec 32) :=
  [0x27B70A85, 0x2E1B2138, 0x4D2C6DFC, 0x53380D13, 0x650A7354, 0x766A0ABB, 0x81C2C92E, 0x92722C85,
   0xA2BFE8A1, 0xA81A664B, 0xC24B8B70, 0xC76C51A3, 0xD192E819, 0xD6990624, 0xF40E3585, 0x106AA070,
   0x19A4C116, 0x1E376C08, 0x2748774C, 0x34B0BCB5, 0x391C0CB3, 0x4ED8AA4A, 0x5B9CCA4F, 0x682E6FF3,
   0x748F82EE, 0x78A5636F, 0x84C87814, 0x8CC70208, 0x90BEFFFA, 0xA4506CEB, 0xBEF9A3F7, 0xC67178F2]

/-- Constants 0 to 19 of SHA-512 (FIPS 180-4, 4.2.3). -/
def sha512K0 : List (BitVec 64) :=
  [0x428A2F98D728AE22, 0x7137449123EF65CD, 0xB5C0FBCFEC4D3B2F, 0xE9B5DBA58189DBBC,
   0x3956C25BF348B538, 0x59F111F1B605D019, 0x923F82A4AF194F9B, 0xAB1C5ED5DA6D8118,
   0xD807AA98A3030242, 0x12835B0145706FBE, 0x243185BE4EE4B28C, 0x550C7DC3D5FFB4E2,
   0x72BE5D74F27B896F, 0x80DEB1FE3B1696B1, 0x9BDC06A725C71235, 0xC19BF174CF692694,
   0xE49B69C19EF14AD2, 0xEFBE4786384F25E3, 0x0FC19DC68B8CD5B5, 0x240CA1CC77AC9C65]

/-- Constants 20 to 39 of SHA-512 (FIPS 180-4, 4.2.3). -/
def sha512K1 : List (BitVec 64) :=
  [0x2DE92C6F592B0275, 0x4A7484AA6EA6E483, 0x5CB0A9DCBD41FBD4, 0x76F988DA831153B5,
   0x983E5152EE66DFAB, 0xA831C66D2DB43210, 0xB00327C898FB213F, 0xBF597FC7BEEF0EE4,
   0xC6E00BF33DA88FC2, 0xD5A79147930AA725, 0x06CA6351E003826F, 0x142929670A0E6E70,
   0x27B70A8546D22FFC, 0x2E1B21385C26C926, 0x4D2C6DFC5AC42AED, 0x53380D139D95B3DF,
   0x650A73548BAF63DE, 0x766A0ABB3C77B2A8, 0x81C2C92E47EDAEE6, 0x92722C851482353B]

/-- Constants 40 to 59 of SHA-512 (FIPS 180-4, 4.2.3). -/
def sha512K2 : List (BitVec 64) :=
  [0xA2BFE8A14CF10364, 0xA81A664BBC423001, 0xC24B8B70D0F89791, 0xC76C51A30654BE30,
   0xD192E819D6EF5218, 0xD69906245565A910, 0xF40E35855771202A, 0x106AA07032BBD1B8,
   0x19A4C116B8D2D0C8, 0x1E376C085141AB53, 0x2748774CDF8EEB99, 0x34B0BCB5E19B48A8,
   0x391C0CB3C5C95A63, 0x4ED8AA4AE3418ACB, 0x5B9CCA4F7763E373, 0x682E6FF3D6B2B8A3,
   0x748F82EE5DEFB2FC, 0x78A5636F43172F60, 0x84C87814A1F0AB72, 0x8CC702081A6439EC]

/-- Constants 60 to 79 of SHA-512 (FIPS 180-4, 4.2.3). -/
def sha512K3 : List (BitVec 64) :=
  [0x90BEFFFA23631E28, 0xA4506CEBDE82BDE9, 0xBEF9A3F7B2C67915, 0xC67178F2E372532B,
   0xCA273ECEEA26619C, 0xD186B8C721C0C207, 0xEADA7DD6CDE0EB1E, 0xF57D4F7FEE6ED178,
   0x06F067AA72176FBA, 0x0A637DC5A2C898A6, 0x113F9804BEF90DAE, 0x1B710B35131C471B,
   0x28DB77F523047D84, 0x32CAAB7B40C72493, 0x3C9EBE0A15C9BEBC, 0x431D67C49C100D4C,
   0x4CC5D4BECB3E42B6, 0x597F299CFC657E2A, 0x5FCB6FAB3AD6FAEC, 0x6C44198C4A475817]

/-- What sets SHA-256 and SHA-512 apart: the constants and the amounts of the four mixing functions. -/
structure Sha2Par (w : Nat) where
  consts : List (BitVec w)
  bigA : Nat × Nat × Nat
  bigE : Nat × Nat × Nat
  smallA : Nat × Nat × Nat        -- the last is a shift
  smallE : Nat × Nat × Nat

/-- Three rotations, added without carry. -/
def sigmaBig {w : Nat} (r : Nat × Nat × Nat) (x : BitVec w) : BitVec w :=
  x.rotateRight r.1 ^^^ x.rotateRight r.2.1 ^^^ x.rotateRight r.2.2

/-- Two rotations and a shift, added without carry. -/
def sigmaSmall {w : Nat} (r : Nat × Nat × Nat) (x : BitVec w) : BitVec w :=
  x.rotateRight r.1 ^^^ x.rotateRight r.2.1 ^^^ (x >>> r.2.2)

/-- The message schedule, latest word first. -/
def Sha2Par.schedule {w : Nat} (p : Sha2Par w) (m : List (BitVec w)) : List (BitVec w) :=
  (List.range (p.consts.length - 16)).foldl (fun l _ =>
    (sigmaSmall p.smallE (l.getD 1 0) + l.getD 6 0 + sigmaSmall p.smallA (l.getD 14 0) + l.getD 15 0) :: l) m.reverse

/-- One round on the eight working variables. -/
def Sha2Par.round {w : Nat} (p : Sha2Par w) (v : List (BitVec w)) (kw : BitVec w × BitVec w) : List (BitVec w) :=
  match v with
  | [a, b, c, d, e, f, g, h] =>
    let t1 := h + sigmaBig p.bigE e + ((e &&& f) ^^^ (~~~e &&& g)) + kw.1 + kw.2
    let t2 := sigmaBig p.bigA a + ((a &&& b) ^^^ (a &&& c) ^^^ (b &&& c))
    [t1 + t2, a, b, c, d + t1, e, f, g]
  | _ => v

/-- One compression: the chaining value and a block of 16 words. -/
def Sha2Par.compress {w : Nat} (p : Sha2Par w) (st m : List (BitVec w)) : List (BitVec w) :=
  List.zipWith (· + ·) st ((p.consts.zip (p.schedule m).reverse).foldl p.round st)

def sha256Par : Sha2Par 32 :=
  { consts := sha256K0 ++ sha256K1, bigA := (2, 13, 22), bigE := (6, 11, 25), smallA := (7, 18, 3), smallE := (17, 19, 10) }

def sha512Par : Sha2Par 64 :=
  { consts := sha512K0 ++ sha512K1 ++ sha512K2 ++ sha512K3
    bigA := (28, 34, 39), bigE := (14, 18, 41), smallA := (1, 8, 7), smallE := (19, 61, 6) }

/-- Big-endian words of `n` octets. -/
def wordsOf (w n : Nat) (b : Bytes) : List (BitVec w) :=
  (List.range (b.length / n)).map fun i => BitVec.ofNat w (beNat (bytesAt b (n * i) n))

/-- The octets of big-endian words. -/
def octetsOf {w : Nat} (n : Nat) (l : List (BitVec w)) : Bytes := l.flatMap fun x => be n x.toNat

/-- One SHA-256 compression on octets: a chaining value of 32 and a block of 64. -/
@[irreducible] def sha256Block (st b : Bytes) : Bytes := octetsOf 4 (sha256Par.compress (wordsOf 32 4 st) (wordsOf 32 4 b))

/-- One SHA-512 compression on octets: a chaining value of 64 and a block of 128. -/
@[irreducible] def sha512Block (st b : Bytes) : Bytes := octetsOf 8 (sha512Par.compress (wordsOf 64 8 st) (wordsOf 64 8 b))

/-! ## SHA-2 over messages -/

/-- The padding of SHA-2 for a message of `n` octets in blocks of `block`. -/
def sha2Pad (block n : Nat) : Bytes :=
  let l := block / 8
  0x80#8 :: (List.replicate ((block - (n + 1 + l) % block) % block) 0#8 ++ be l (8 * n))

/-- Absorbs the whole blocks of a string. -/
def absorbBlocks (f : Bytes → Bytes → Bytes) (block : Nat) (st b : Bytes) : Bytes :=
  (List.range (b.length / block)).foldl (fun st i => f st (bytesAt b (block * i) block)) st

/-- A SHA-2 digest with its own initial value. -/
def sha2 (block : Nat) (f : Bytes → Bytes → Bytes) (iv : Bytes) (n : Nat) (m : Bytes) : Bytes :=
  fit n (absorbBlocks f block iv (m ++ sha2Pad block m.length))

/-- The initial chaining values (FIPS 180-4, 5.3), by the selector of a digest. -/
def sha2Iv (sel : Nat) : Bytes :=
  match sel with
  | 224 => octetsOf (w := 32) 4 [0xC1059ED8, 0x367CD507, 0x3070DD17, 0xF70E5939, 0xFFC00B31, 0x68581511, 0x64F98FA7, 0xBEFA4FA4]
  | 256 => octetsOf (w := 32) 4 [0x6A09E667, 0xBB67AE85, 0x3C6EF372, 0xA54FF53A, 0x510E527F, 0x9B05688C, 0x1F83D9AB, 0x5BE0CD19]
  | 384 => octetsOf (w := 64) 8 [0xCBBB9D5DC1059ED8, 0x629A292A367CD507, 0x9159015A3070DD17, 0x152FECD8F70E5939, 0x67332667FFC00B31, 0x8EB44A8768581511, 0xDB0C2E0D64F98FA7, 0x47B5481DBEFA4FA4]
  | 512256 => octetsOf (w := 64) 8 [0x22312194FC2BF72C, 0x9F555FA3C84C64C2, 0x2393B86B6F53B151, 0x963877195940EABD, 0x96283EE2A88EFFE3, 0xBE5E1E2553863992, 0x2B0199FC2C85B8AA, 0x0EB72DDC81C52CA2]
  | _ => octetsOf (w := 64) 8 [0x6A09E667F3BCC908, 0xBB67AE8584CAA73B, 0x3C6EF372FE94F82B, 0xA54FF53A5F1D36F1, 0x510E527FADE682D1, 0x9B05688C2B3E6C1F, 0x1F83D9ABFB41BD6B, 0x5BE0CD19137E2179]

/-! ## Keccak-f[1600] (FIPS 202) -/

def keccakConsts : List (BitVec 64) :=
  [0x0000000000000001, 0x0000000000008082, 0x800000000000808A, 0x8000000080008000,
   0x000000000000808B, 0x0000000080000001, 0x8000000080008081, 0x8000000000008009,
   0x000000000000008A, 0x0000000000000088, 0x0000000080008009, 0x000000008000000A,
   0x000000008000808B, 0x800000000000008B, 0x8000000000008089, 0x8000000000008003,
   0x8000000000008002, 0x8000000000000080, 0x000000000000800A, 0x800000008000000A,
   0x8000000080008081, 0x8000000000008080, 0x0000000080000001, 0x8000000080008008]

/-- The rotation of lane (x, y), at place x + 5y. -/
def keccakRots : List Nat := [0, 1, 62, 28, 27, 36, 44, 6, 55, 20, 3, 10, 43, 25, 39, 41, 45, 15, 21, 8, 18, 2, 61, 56, 14]

/-- One round on 25 lanes. -/
def keccakRound (a : List (BitVec 64)) (rc : BitVec 64) : List (BitVec 64) :=
  let at' := fun i => a.getD i 0
  let c := (List.range 5).map fun x => at' x ^^^ at' (x + 5) ^^^ at' (x + 10) ^^^ at' (x + 15) ^^^ at' (x + 20)
  let d := (List.range 5).map fun x => c.getD ((x + 4) % 5) 0 ^^^ (c.getD ((x + 1) % 5) 0).rotateLeft 1
  let e := (List.range 25).map fun i => (at' i ^^^ d.getD (i % 5) 0).rotateLeft (keccakRots.getD i 0)
  -- lane (x, y) of the next state comes from lane (x + 3y, x)
  let b := (List.range 25).map fun i => e.getD ((i % 5 + 3 * (i / 5)) % 5 + 5 * (i % 5)) 0
  (List.range 25).map fun i =>
    let y := 5 * (i / 5)
    let v := b.getD i 0 ^^^ (~~~(b.getD ((i % 5 + 1) % 5 + y) 0) &&& b.getD ((i % 5 + 2) % 5 + y) 0)
    if i = 0 then v ^^^ rc else v

/-- The permutation on 200 octets. -/
@[irreducible] def keccakF (st : Bytes) : Bytes :=
  let lanes := (List.range 25).map fun i => BitVec.ofNat 64 (uAt st (8 * i) 8)
  (keccakConsts.foldl keccakRound lanes).flatMap fun x => le 8 x.toNat

/-- Adds a block into the front of the state and permutes. -/
def spongeBlock (st b : Bytes) : Bytes := keccakF (xorBytes (st.take b.length) b ++ st.drop b.length)

/-- The padding of the sponge: the suffix octet, zeros, and the last bit of the rate. -/
def spongePad (rate suffix n : Nat) : Bytes :=
  let k := rate - n % rate
  if k = 1 then [BitVec.ofNat 8 (suffix + 0x80)]
  else BitVec.ofNat 8 suffix :: (List.replicate (k - 2) 0#8 ++ [0x80#8])

/-- Octets squeezed from a state: `k` blocks of the rate. -/
def squeezeBlocks (rate : Nat) : Nat → Bytes → Bytes
  | 0, _ => []
  | 1, st => st.take rate
  | k + 2, st => st.take rate ++ squeezeBlocks rate (k + 1) (keccakF st)

/-- The sponge with a suffix and `n` octets of output. -/
def sponge (rate suffix n : Nat) (m : Bytes) : Bytes :=
  let st := absorbBlocks spongeBlock rate (List.replicate 200 0#8) (m ++ spongePad rate suffix m.length)
  fit n (squeezeBlocks rate (ceilDiv n rate) st)

/-! ## The functions by name -/

/-- A digest by its selector: 224, 256, 384, 512 and 512256 are SHA-2, 3224 to 3512 SHA-3. -/
def hashOf (sel n : Nat) (m : Bytes) : Bytes :=
  match sel with
  | 224 => sha2 64 sha256Block (sha2Iv 224) n m
  | 256 => sha2 64 sha256Block (sha2Iv 256) n m
  | 384 => sha2 128 sha512Block (sha2Iv 384) n m
  | 512 => sha2 128 sha512Block (sha2Iv 512) n m
  | 512256 => sha2 128 sha512Block (sha2Iv 512256) n m
  | _ => sponge (200 - 2 * ((sel - 3000) / 8)) 0x06 n m

/-- SHA-384, 48 octets. -/
def sha384 (b : Bytes) : Bytes := hashOf 384 48 b

/-- SHA-512, 64 octets. -/
def sha512 (b : Bytes) : Bytes := hashOf 512 64 b

/-- SHA3-256, 32 octets. -/
def sha3x256 (b : Bytes) : Bytes := hashOf 3256 32 b

/-- The rate of SHAKE, cSHAKE and KMAC at a strength of 128 or 256. -/
def xofRate (sel : Nat) : Nat := 200 - sel / 4

/-- SHAKE128 or SHAKE256 with `n` octets of output. -/
def shake (sel n : Nat) (b : Bytes) : Bytes := sponge (xofRate sel) 0x1F n b

/-- SHAKE256 with `n` octets of output. -/
def shake256 (n : Nat) (b : Bytes) : Bytes := shake 256 n b

/-! ## SP 800-185 -/

/-- Octets that a number needs: at least one. -/
def octetsFor (v : Nat) : Nat := if v < 256 then 1 else if v < 65536 then 2 else if v < 16777216 then 3 else if v < 2 ^ 32 then 4 else 8

def leftEncode (v : Nat) : Bytes := BitVec.ofNat 8 (octetsFor v) :: be (octetsFor v) v
def rightEncode (v : Nat) : Bytes := be (octetsFor v) v ++ [BitVec.ofNat 8 (octetsFor v)]
def encodeString (b : Bytes) : Bytes := leftEncode (8 * b.length) ++ b

/-- Pads with zeros to a multiple of the rate, the rate's encoding in front. -/
def bytepad (b : Bytes) (rate : Nat) : Bytes :=
  let x := leftEncode rate ++ b
  x ++ List.replicate ((rate - x.length % rate) % rate) 0#8

/-- cSHAKE; with both strings empty it is SHAKE. -/
def cshake (sel n : Nat) (m name custom : Bytes) : Bytes :=
  if name.isEmpty && custom.isEmpty then shake sel n m
  else sponge (xofRate sel) 0x04 n (bytepad (encodeString name ++ encodeString custom) (xofRate sel) ++ m)

theorem hashOf_length (sel n : Nat) (m : Bytes) : (hashOf sel n m).length = n := by
  unfold hashOf
  split <;> simp [sha2, sponge, fit_length]

theorem shake_length (sel n : Nat) (m : Bytes) : (shake sel n m).length = n := by
  simp [shake, sponge, fit_length]

end Sys2Proof.Machine
end

