-- ==== Sys2Proof/Machine/Mac.lean ====
section
/-! DEFINITION. Keyed digests and key derivation: HMAC (FIPS 198-1, R230), KMAC (SP 800-185, R231), HKDF (RFC 5869), and
the counter and KMAC modes of SP 800-108 (R233). -/

namespace Sys2Proof.Machine

open Sys2Proof

/-- The block B of a hash by its selector (R230). -/
def hashBlock (sel : Nat) : Nat :=
  match sel with
  | 224 => 64
  | 256 => 64
  | 384 => 128
  | 512 => 128
  | 512256 => 128
  | _ => 200 - 2 * ((sel - 3000) / 8)

/-- Octets of a digest by its selector. -/
def hashSize (sel : Nat) : Nat := if sel = 512256 then 32 else if sel < 3000 then sel / 8 else (sel - 3000) / 8

/-- A digest at its full length. -/
def digest (sel : Nat) (m : Bytes) : Bytes := hashOf sel (hashSize sel) m

/-- K0: the key padded to B with zeros, hashed first where it is longer (R230). -/
def hmacK0 (sel : Nat) (key : Bytes) : Bytes :=
  fit (hashBlock sel) (if hashBlock sel < key.length then digest sel key else key)

/-- K0 with a repeated octet added. -/
def hmacPad (sel : Nat) (key : Bytes) (x : Byte) : Bytes := (hmacK0 sel key).map (· ^^^ x)

/-- HMAC: the inner pass over the message, then the outer pass over the inner digest. -/
def hmac (sel : Nat) (key m : Bytes) : Bytes :=
  digest sel (hmacPad sel key 0x5C#8 ++ digest sel (hmacPad sel key 0x36#8 ++ m))

/-- What KMAC absorbs before its message: the padded key (R231). -/
def kmacKey (sel : Nat) (key : Bytes) : Bytes := bytepad (encodeString key) (xofRate sel)

/-- KMAC128 or KMAC256, and KMACXOF, with `n` octets of output. -/
def kmac (sel n : Nat) (key m custom : Bytes) (xof : Bool) : Bytes :=
  cshake sel n (kmacKey sel key ++ m ++ rightEncode (if xof then 0 else 8 * n)) (ascii "KMAC") custom

/-- KMAC256 with `n` octets of output. -/
def kmac256 (n : Nat) (key m : Bytes) (custom : String) : Bytes := fit n (kmac 256 n key m (ascii custom) false)

/-! ## Derivation (R233) -/

/-- The extract step of HKDF; an absent salt is a digest length of zeros. -/
def hkdfExtract (sel : Nat) (salt ikm : Bytes) : Bytes :=
  hmac sel (if salt.isEmpty then List.replicate (hashSize sel) 0#8 else salt) ikm

/-- The blocks T(i) to T(i + k - 1) of HKDF's expand step after `prev`. -/
def hkdfBlocks (sel : Nat) (prk info : Bytes) : Nat → Nat → Bytes → Bytes
  | 0, _, _ => []
  | k + 1, i, prev =>
    let t := hmac sel prk (prev ++ info ++ [BitVec.ofNat 8 i])
    t ++ hkdfBlocks sel prk info k (i + 1) t

/-- The expand step of HKDF. -/
def hkdfExpand (sel n : Nat) (prk info : Bytes) : Bytes :=
  fit n (hkdfBlocks sel prk info (ceilDiv n (hashSize sel)) 1 [])

/-- HKDF; `expandOnly`: the key is the PRK and the salt is absent. -/
def hkdf (sel n : Nat) (key salt info : Bytes) (expandOnly : Bool) : Bytes :=
  hkdfExpand sel n (if expandOnly then key else hkdfExtract sel salt key) info

/-- Counter mode of SP 800-108 over HMAC: the counter, then Label, a zero octet, Context and the length in bits. -/
def kdfCounter (sel n : Nat) (key label context : Bytes) : Bytes :=
  let fixed := label ++ [0#8] ++ context ++ be 4 (8 * n)
  fit n ((List.range (ceilDiv n (hashSize sel))).flatMap fun i => hmac sel key (be 4 (i + 1) ++ fixed))

/-- The KMAC mode of SP 800-108: KMAC256(K_IN, Context, L, Label). -/
def kdfKmac (n : Nat) (key label context : Bytes) : Bytes := kmac 256 n key context label false

/-- MGF1 of RFC 8017. -/
def mgf1 (sel n : Nat) (seed : Bytes) : Bytes :=
  fit n ((List.range (ceilDiv n (hashSize sel))).flatMap fun i => digest sel (seed ++ be 4 i))

theorem kmac256_length (n : Nat) (key m : Bytes) (custom : String) : (kmac256 n key m custom).length = n := by
  simp [kmac256, fit_length]

theorem hmacK0_length (sel : Nat) (key : Bytes) : (hmacK0 sel key).length = hashBlock sel := by
  simp [hmacK0, fit_length]

end Sys2Proof.Machine
end

