-- ==== Sys2Proof/Machine/Curve.lean ====
section
/-! DEFINITION. Elliptic curves as the big-number engines compute them: the rows of the seven base curves, scalar
multiplication by a ladder of fixed length with blinded scalars and randomised coordinates, ECDSA with the nonces of
RFC 6979, the agreement of RFC 7748 and SP 800-56A, and EdDSA (R200, R201, R205 to R207, R210, R212, R213). -/

namespace Sys2Proof.Machine

open Sys2Proof

/-! ## Curve rows (R201) -/

/-- The fields of a curve row that an operation uses. -/
structure Curve where
  form : Nat
  cls : Nat
  fieldBits : Nat
  orderBits : Nat
  cofactor : Nat
  edHash : Nat
  p : Nat
  a : Nat
  b : Nat
  gx : Nat
  gy : Nat
  n : Nat
  deriving DecidableEq, Repr

/-- The curve of a row of 512 octets. -/
def curveOfRow (r : Bytes) : Curve :=
  { form := uAt r 4 1, cls := uAt r 5 1, fieldBits := uAt r 6 2, orderBits := uAt r 8 2, cofactor := uAt r 0x0A 1
    edHash := uAt r 0x0B 1, p := uAt r 0x20 72, a := uAt r 0x68 72, b := uAt r 0xB0 72, gx := uAt r 0xF8 72
    gy := uAt r 0x140 72, n := uAt r 0x188 72 }

def curveP256 : Curve :=
  { form := 1, cls := 1, fieldBits := 256, orderBits := 256, cofactor := 1, edHash := 0
    p := 2 ^ 256 - 2 ^ 224 + 2 ^ 192 + 2 ^ 96 - 1
    a := 2 ^ 256 - 2 ^ 224 + 2 ^ 192 + 2 ^ 96 - 4
    b := 0x5ac635d8aa3a93e7b3ebbd55769886bc651d06b0cc53b0f63bce3c3e27d2604b
    gx := 0x6b17d1f2e12c4247f8bce6e563a440f277037d812deb33a0f4a13945d898c296
    gy := 0x4fe342e2fe1a7f9b8ee7eb4a7c0f9e162bce33576b315ececbb6406837bf51f5
    n := 0xffffffff00000000ffffffffffffffffbce6faada7179e84f3b9cac2fc632551 }

def curveP384 : Curve :=
  { form := 1, cls := 2, fieldBits := 384, orderBits := 384, cofactor := 1, edHash := 0
    p := 2 ^ 384 - 2 ^ 128 - 2 ^ 96 + 2 ^ 32 - 1
    a := 2 ^ 384 - 2 ^ 128 - 2 ^ 96 + 2 ^ 32 - 4
    b := 0xb3312fa7e23ee7e4988e056be3f82d19181d9c6efe8141120314088f5013875ac656398d8a2ed19d2a85c8edd3ec2aef
    gx := 0xaa87ca22be8b05378eb1c71ef320ad746e1d3b628ba79b9859f741e082542a385502f25dbf55296c3a545e3872760ab7
    gy := 0x3617de4a96262c6f5d9e98bf9292dc29f8f41dbd289a147ce9da3113b5f0b8c00a60b1ce1d7e819d7a431d7c90ea0e5f
    n := 0xffffffffffffffffffffffffffffffffffffffffffffffffc7634d81f4372ddf581a0db248b0a77aecec196accc52973 }

def curveP521 : Curve :=
  { form := 1, cls := 4, fieldBits := 521, orderBits := 521, cofactor := 1, edHash := 0
    p := 2 ^ 521 - 1
    a := 2 ^ 521 - 4
    b := 0x0051953eb9618e1c9a1f929a21a0b68540eea2da725b99b315f3b8b489918ef109e156193951ec7e937b1652c0bd3bb1bf073573df883d2c34f1ef451fd46b503f00
    gx := 0x00c6858e06b70404e9cd9e3ecb662395b4429c648139053fb521f828af606b4d3dbaa14b5e77efe75928fe1dc127a2ffa8de3348b3c1856a429bf97e7e31c2e5bd66
    gy := 0x011839296a789a3bc0045c8a5fb42c7d1bd998f54449579b446817afbd17273e662c97ee72995ef42640c550b9013fad0761353c7086a272c24088be94769fd16650
    n := 0x01fffffffffffffffffffffffffffffffffffffffffffffffffffffffffffffffffa51868783bf2f966b7fcc0148f709a5d03bb5c9b8899c47aebb6fb71e91386409 }

def curveX25519 : Curve :=
  { form := 2, cls := 1, fieldBits := 255, orderBits := 253, cofactor := 8, edHash := 0
    p := 2 ^ 255 - 19, a := 486662, b := 0, gx := 9, gy := 0
    n := 2 ^ 252 + 27742317777372353535851937790883648493 }

def curveX448 : Curve :=
  { form := 2, cls := 3, fieldBits := 448, orderBits := 446, cofactor := 4, edHash := 0
    p := 2 ^ 448 - 2 ^ 224 - 1, a := 156326, b := 0, gx := 5, gy := 0
    n := 2 ^ 446 - 13818066809895115352007386748515426880336692474882178609894547503885 }

def curveEd25519 : Curve :=
  { form := 3, cls := 1, fieldBits := 255, orderBits := 253, cofactor := 8, edHash := 1
    p := 2 ^ 255 - 19, a := 2 ^ 255 - 20
    b := 37095705934669439343138083508754565189542113879843219016388785533085940283555
    gx := 15112221349535400772501151409588531511454012693041857206046113283949847762202
    gy := 46316835694926478169428394003475163141307993866256225615783033603165251855960
    n := 2 ^ 252 + 27742317777372353535851937790883648493 }

def curveEd448 : Curve :=
  { form := 3, cls := 3, fieldBits := 448, orderBits := 446, cofactor := 4, edHash := 2
    p := 2 ^ 448 - 2 ^ 224 - 1, a := 1
    b := 2 ^ 448 - 2 ^ 224 - 1 - 39081
    gx := 224580040295924300187604334099896036246789641632564134246125461686950415467406032909029192869357953282578032075146446173674602635247710
    gy := 298819210078481492676017930443930673437544040154080242095928241372331506189835876003536878655418784733982303233503462500531545062832660
    n := 2 ^ 446 - 13818066809895115352007386748515426880336692474882178609894547503885 }

/-! ## Arithmetic modulo a number -/

/-- A power of a number modulo another, over `fuel` bits of the exponent. -/
def powMod (m : Nat) : Nat → Nat → Nat → Nat → Nat
  | 0, _, _, acc => acc
  | f + 1, a, e, acc => powMod m f (a * a % m) (e / 2) (if e % 2 = 1 then acc * a % m else acc)

/-- The bit length of a number. -/
def bitLen (n : Nat) : Nat := if n = 0 then 0 else Nat.log2 n + 1

/-- `a` to the power `e`. -/
def expMod (m a e : Nat) : Nat := powMod m (bitLen e) (a % m) e (1 % m)

/-- The inverse modulo a prime. -/
def invMod (m a : Nat) : Nat := expMod m a (m - 2)

/-- Subtraction modulo `m`. -/
def subMod (m a b : Nat) : Nat := (a % m + (m - b % m)) % m

/-- A number that is not a square modulo a prime, searched from `k` on. -/
def nonSquare (p : Nat) : Nat → Nat → Nat
  | 0, k => k
  | f + 1, k => if expMod p k ((p - 1) / 2) = p - 1 then k else nonSquare p f (k + 1)

/-- The odd part of a number, and how often 2 divides it. -/
def oddPart : Nat → Nat → Nat → Nat × Nat
  | 0, q, s => (q, s)
  | f + 1, q, s => if q % 2 = 0 ∧ q ≠ 0 then oddPart f (q / 2) (s + 1) else (q, s)

/-- The least `i` below `fuel` whose `i`-fold square of `t` is 1. -/
def orderOf2 (p : Nat) : Nat → Nat → Nat → Nat
  | 0, _, i => i
  | f + 1, t, i => if t = 1 then i else orderOf2 p f (t * t % p) (i + 1)

/-- The loop of the square root by Tonelli and Shanks. -/
def shanks (p : Nat) : Nat → Nat → Nat → Nat → Nat → Nat
  | 0, _, _, _, r => r
  | f + 1, m, c, t, r =>
    if t = 1 then r
    else
      let i := orderOf2 p m t 0
      let b := expMod p c (2 ^ (m - i - 1))
      shanks p f i (b * b % p) (t * b % p * b % p) (r * b % p)

/-- A square root modulo a prime, where there is one. -/
def sqrtMod (p a : Nat) : Option Nat :=
  let (q, s) := oddPart (bitLen p) (p - 1) 0
  let z := nonSquare p 1000 2
  let r := shanks p (s + 1) s (expMod p z q) (expMod p a q) (expMod p a ((q + 1) / 2))
  if r * r % p = a % p then some r else none

/-! ## Points in projective coordinates -/

/-- A point (X : Y : Z); Z is 0 at the identity of a FORM 1 curve. -/
abbrev Pt := Nat × Nat × Nat

/-- The doubled point of a FORM 1 curve. -/
def Curve.doubleW (c : Curve) (q : Pt) : Pt :=
  let (x, y, z) := q
  let m := c.p
  if z = 0 ∨ y = 0 then (0, 1 % m, 0)
  else
    let w := (c.a * z % m * z + 3 * x * x) % m
    let s := y * z % m
    let b := x * y % m * s % m
    let h := subMod m (w * w) (8 * b)
    (2 * h * s % m, subMod m (w * subMod m (4 * b) h) (8 * (y * y % m) * (s * s % m)), 8 * (s * s % m) * s % m)

/-- The sum of two points of a FORM 1 curve. -/
def Curve.addW (c : Curve) (q r : Pt) : Pt :=
  let (x1, y1, z1) := q
  let (x2, y2, z2) := r
  let m := c.p
  if z1 = 0 then r
  else if z2 = 0 then q
  else
    let u := subMod m (y2 * z1) (y1 * z2)
    let v := subMod m (x2 * z1) (x1 * z2)
    if v = 0 then (if u = 0 then c.doubleW q else (0, 1 % m, 0))
    else
      let vv := v * v % m
      let vvv := vv * v % m
      let t := vv * (x1 * z2 % m) % m
      let zz := z1 * z2 % m
      let a := subMod m (u * u % m * zz) (vvv + 2 * t)
      (v * a % m, subMod m (u * subMod m t a) (vvv * (y1 * z2 % m)), vvv * zz % m)

/-- The sum of two points of a FORM 3 curve; the formula is unified. -/
def Curve.addE (c : Curve) (q r : Pt) : Pt :=
  let (x1, y1, z1) := q
  let (x2, y2, z2) := r
  let m := c.p
  let a := z1 * z2 % m
  let b := a * a % m
  let cc := x1 * x2 % m
  let d := y1 * y2 % m
  let e := c.b * cc % m * d % m
  let f := subMod m b e
  let g := (b + e) % m
  (a * f % m * subMod m ((x1 + y1) * (x2 + y2)) (cc + d) % m, a * g % m * subMod m d (c.a * cc) % m, f * g % m)

/-- The group law of a FORM 1 or FORM 3 curve. -/
def Curve.add (c : Curve) (q r : Pt) : Pt := if c.form = 3 then c.addE q r else c.addW q r
def Curve.double (c : Curve) (q : Pt) : Pt := if c.form = 3 then c.addE q q else c.doubleW q

/-- The identity. -/
def Curve.zero (c : Curve) : Pt := if c.form = 3 then (0, 1 % c.p, 1 % c.p) else (0, 1 % c.p, 0)

/-- The base point. -/
def Curve.base (c : Curve) : Pt := (c.gx, c.gy, 1)

/-- A ladder of exactly `n` steps over the bits of a scalar, from bit `n - 1` down. -/
def Curve.ladder (c : Curve) : Nat → Nat → Pt → Pt → Pt
  | 0, _, q, _ => q
  | i + 1, k, q, r =>
    if k.testBit i then c.ladder i k (c.add q r) (c.double r) else c.ladder i k (c.double q) (c.add q r)

/-- A public multiple of a point. -/
def Curve.mul (c : Curve) (k : Nat) (q : Pt) : Pt := c.ladder (bitLen k) k c.zero q

/-- The affine coordinates; the identity of a FORM 1 curve has none. -/
def Curve.affine (c : Curve) (q : Pt) : Option (Nat × Nat) :=
  let (x, y, z) := q
  if z % c.p = 0 then none
  else let i := invMod c.p z; some (x * i % c.p, y * i % c.p)

/-! ## Randomisation (R212, R218) -/

/-- Word `i` of what the mask generator expands from a mask seed: `n` octets. The generator is not published. -/
def maskExpand (seed : Bytes) (i n : Nat) : Bytes := fit n (Config.prim .maskStream i [seed])

/-- A randomiser in [1, m - 1]. -/
def maskBelow (seed : Bytes) (i m : Nat) : Nat := 1 + leNat (maskExpand seed i 80) % (m - 1)

/-- ρ: a fresh 64-bit value. -/
def maskRho (seed : Bytes) (i : Nat) : Nat := leNat (maskExpand seed i 8)

/-- k' = k + ρ·N. -/
def Curve.blind (c : Curve) (seed : Bytes) (k : Nat) : Nat := k + maskRho seed 0 * c.n

/-- A point in randomised projective coordinates. -/
def Curve.randomised (c : Curve) (seed : Bytes) (q : Pt) : Pt :=
  let l := maskBelow seed 1 c.p
  (l * q.1 % c.p, l * q.2.1 % c.p, l * q.2.2 % c.p)

/-- Multiplication by a secret scalar on a FORM 1 or FORM 3 curve: a ladder of exactly ORDER_BITS + 64 steps. -/
def Curve.secretMul (c : Curve) (seed : Bytes) (k : Nat) (q : Pt) : Pt :=
  c.ladder (c.orderBits + 64) (c.blind seed k) c.zero (c.randomised seed q)

/-! ## FORM 2 (RFC 7748) -/

/-- A scalar as a FORM 2 or FORM 3 curve takes it: the bits of the cofactor cleared, the top bit of the field set. -/
def Curve.clamp (c : Curve) (k : Nat) : Nat :=
  let k := k % 2 ^ (c.fieldBits - 1) + 2 ^ (c.fieldBits - 1)
  k / c.cofactor * c.cofactor

/-- The ladder on x coordinates over FIELD_BITS steps; the two shares of the scalar decide each swap. -/
def Curve.xLadder (c : Curve) (s0 s1 u : Nat) : Nat → Nat → Nat → Nat → Nat → Nat × Nat
  | 0, x2, z2, _, _ => (x2, z2)
  | i + 1, x2, z2, x3, z3 =>
    let m := c.p
    let swap := xor (s0.testBit i) (s1.testBit i)
    let (x2, z2, x3, z3) := if swap then (x3, z3, x2, z2) else (x2, z2, x3, z3)
    let a := (x2 + z2) % m
    let b := subMod m x2 z2
    let aa := a * a % m
    let bb := b * b % m
    let e := subMod m aa bb
    let da := subMod m x3 z3 * a % m
    let cb := (x3 + z3) * b % m
    let x5 := (da + cb) % m * ((da + cb) % m) % m
    let d := subMod m da cb
    let z5 := u * (d * d % m) % m
    let x4 := aa * bb % m
    let z4 := e * ((aa + subMod m c.a 2 * invMod m 4 % m * e) % m) % m
    let (x4, z4, x5, z5) := if swap then (x5, z5, x4, z4) else (x4, z4, x5, z5)
    c.xLadder s0 s1 u i x4 z4 x5 z5

/-- The u coordinate of a multiple: the clamped scalar is held as two Boolean shares, and Z is randomised. -/
def Curve.xMul (c : Curve) (seed : Bytes) (k u : Nat) : Nat :=
  let share := leNat (maskExpand seed 0 72) % 2 ^ c.fieldBits
  let l := maskBelow seed 1 c.p
  let (x, z) := c.xLadder share (Nat.xor share (c.clamp k)) u c.fieldBits 1 0 (u * l % c.p) l
  x * invMod c.p z % c.p

/-- Octets of a field element of a FORM 1 or FORM 2 curve. -/
def Curve.len (c : Curve) : Nat := (c.fieldBits + 7) / 8

/-- Octets of an encoded point of a FORM 3 curve. -/
def Curve.edLen (c : Curve) : Nat := (c.fieldBits + 8) / 8

/-- A peer's u coordinate: bits above the field are dropped. -/
def Curve.decodeU (c : Curve) (b : Bytes) : Nat := leNat b % 2 ^ c.fieldBits % c.p

/-- X25519 or X448 of a secret and a peer value. -/
def Curve.xAgree (c : Curve) (seed k u : Bytes) : Bytes := le c.len (c.xMul seed (leNat k) (c.decodeU u))

/-! ## FORM 1: points, ECDH and ECDSA -/

/-- The uncompressed encoding of a point. -/
def Curve.encodeW (c : Curve) (q : Pt) : Bytes :=
  match c.affine q with
  | some (x, y) => 4#8 :: (be c.len x ++ be c.len y)
  | none => 4#8 :: List.replicate (2 * c.len) 0#8

/-- The affine coordinates that an encoding names. -/
def Curve.pointX (c : Curve) (b : Bytes) : Nat := beNat (bytesAt b 1 c.len)
def Curve.pointY (c : Curve) (b : Bytes) : Nat := beNat (bytesAt b (1 + c.len) c.len)

/-- A public point that R210 accepts: 0x04, coordinates below P, on the curve. -/
def Curve.pointOk (c : Curve) (b : Bytes) : Bool :=
  let x := c.pointX b
  let y := c.pointY b
  b.length == 1 + 2 * c.len && b.head? == some 4#8 && decide (x < c.p) && decide (y < c.p) &&
  y * y % c.p == (x * x * x + c.a * x + c.b) % c.p

/-- A supplied point, as the ladder takes it. -/
def Curve.decodeW (c : Curve) (b : Bytes) : Pt := (c.pointX b % c.p, c.pointY b % c.p, 1 % c.p)

/-- A scalar from drawn octets: (c mod (n - 1)) + 1 (FIPS 186-5 A.2.1, R249). -/
def Curve.scalarOf (c : Curve) (b : Bytes) : Nat := beNat b % (c.n - 1) + 1

/-- Octets of a scalar. -/
def Curve.scalarLen (c : Curve) : Nat := (c.orderBits + 7) / 8

/-- The leftmost ORDER_BITS bits of a string (FIPS 186-5, R205). -/
def Curve.truncate (c : Curve) (b : Bytes) : Nat :=
  if 8 * b.length ≤ c.orderBits then beNat b else beNat b / 2 ^ (8 * b.length - c.orderBits)

/-- The x coordinate of d·Q, in field-length octets (SP 800-56A). -/
def Curve.ecdh (c : Curve) (seed d pk : Bytes) : Bytes :=
  match c.affine (c.secretMul seed (beNat d) (c.decodeW pk)) with
  | some (x, _) => be c.len x
  | none => List.replicate c.len 0#8

/-- The state of RFC 6979's generator: K and V. -/
abbrev NonceSt := Bytes × Bytes

/-- Steps d to g or h of RFC 6979: K and V take a string in. -/
def nonceUpdate (sel : Nat) (s : NonceSt) (x : Bytes) : NonceSt :=
  let k := hmac sel s.1 (s.2 ++ x)
  (k, hmac sel k s.2)

/-- Octets of T until `n` are there. -/
def nonceFill (sel n : Nat) : Nat → NonceSt → Bytes → Bytes × NonceSt
  | 0, s, t => (t, s)
  | f + 1, s, t =>
    if n ≤ t.length then (t, s)
    else let v := hmac sel s.1 s.2; nonceFill sel n f (s.1, v) (t ++ v)

/-- The `skip`-th candidate of step h that lies in [1, n - 1]. -/
def Curve.nonceFrom (c : Curve) (sel : Nat) : Nat → Nat → NonceSt → Nat
  | 0, _, _ => 1
  | f + 1, skip, s =>
    let (t, s) := nonceFill sel c.scalarLen (c.scalarLen + 1) s []
    let k := c.truncate (t.take c.scalarLen)
    let again := nonceUpdate sel s [0#8]
    if 1 ≤ k ∧ k < c.n then (if skip = 0 then k else c.nonceFrom sel f (skip - 1) again)
    else c.nonceFrom sel f skip again

/-- The nonce of RFC 6979 for a digest; `extra` is the additional input of its section 3.6, and `skip` counts the nonces
that gave r or s zero. -/
def Curve.nonce (c : Curve) (sel : Nat) (d : Nat) (dig extra : Bytes) (skip : Nat) : Nat :=
  let n := c.scalarLen
  let x := be n d ++ be n (c.truncate dig % c.n) ++ extra
  let s : NonceSt := (List.replicate (hashSize sel) 0#8, List.replicate (hashSize sel) 1#8)
  let s := nonceUpdate sel s (0#8 :: x)
  let s := nonceUpdate sel s (1#8 :: x)
  c.nonceFrom sel 1000 skip s

/-- r and s with the nonce given. k⁻¹ and d are each multiplied by β before they meet (R212). -/
def Curve.ecdsaWith (c : Curve) (seed : Bytes) (d k : Nat) (dig : Bytes) : Nat × Nat :=
  let r := match c.affine (c.secretMul seed k c.base) with
    | some (x, _) => x % c.n
    | none => 0
  let beta := maskBelow seed 2 c.n
  let u := invMod c.n k * beta % c.n
  let w := d * beta % c.n
  let e := c.truncate dig
  let v := u * ((e * beta + r * w) % c.n) % c.n
  (r, v * invMod c.n (beta * beta) % c.n)

/-- r and s: a nonce that makes one of them zero is passed over. -/
def Curve.ecdsaPair (c : Curve) (sel : Nat) (seed : Bytes) (d : Nat) (dig extra : Bytes) : Nat → Nat → Nat × Nat
  | 0, skip => c.ecdsaWith seed d (c.nonce sel d dig extra skip) dig
  | f + 1, skip =>
    let x := c.ecdsaWith seed d (c.nonce sel d dig extra skip) dig
    if x.1 ≠ 0 ∧ x.2 ≠ 0 then x else c.ecdsaPair sel seed d dig extra f (skip + 1)

/-- An ECDSA signature of a digest: r then s, each as long as the order. -/
def Curve.ecdsaSign (c : Curve) (sel : Nat) (seed d dig extra : Bytes) : Bytes :=
  let (r, s) := c.ecdsaPair sel seed (beNat d) dig extra 16 0
  be c.scalarLen r ++ be c.scalarLen s

/-- An ECDSA signature verifies: r and s in [1, N - 1], and the x coordinate of (e/s)G + (r/s)Q is r modulo N. -/
def Curve.ecdsaVerify (c : Curve) (pk dig sig : Bytes) : Bool :=
  let r := beNat (sig.take c.scalarLen)
  let s := beNat (sig.drop c.scalarLen)
  let w := invMod c.n s
  let x := c.add (c.mul (c.truncate dig * w % c.n) c.base) (c.mul (r * w % c.n) (c.decodeW pk))
  sig.length == 2 * c.scalarLen && decide (1 ≤ r ∧ r < c.n) && decide (1 ≤ s ∧ s < c.n) &&
  match c.affine x with
  | some (x, _) => x % c.n == r
  | none => false

/-! ## FORM 3: EdDSA (RFC 8032) -/

/-- The encoding of a point: y, and the low bit of x on top. -/
def Curve.encodeE (c : Curve) (q : Pt) : Bytes :=
  match c.affine q with
  | some (x, y) => le c.edLen (y + x % 2 * 2 ^ (8 * c.edLen - 1))
  | none => List.replicate c.edLen 0#8

/-- The point of an encoding; none where it is not canonical or no point has it (R210). -/
def Curve.decodeE (c : Curve) (b : Bytes) : Option Pt :=
  let v := leNat b
  let y := v % 2 ^ (8 * c.edLen - 1)
  let sign := v / 2 ^ (8 * c.edLen - 1)
  if b.length ≠ c.edLen ∨ c.p ≤ y then none
  else
    let yy := y * y % c.p
    match sqrtMod c.p (subMod c.p yy 1 * invMod c.p (subMod c.p (c.b * yy) c.a) % c.p) with
    | none => none
    | some x =>
      if x = 0 ∧ sign = 1 then none
      else some (if x % 2 = sign then x else c.p - x, y, 1 % c.p)

/-- The hash of a FORM 3 curve, two encodings long: SHA-512, or SHAKE256 behind dom4 with the context. -/
def Curve.edHashOf (c : Curve) (ctx m : Bytes) : Bytes :=
  if c.edHash = 1 then sha512 m
  else shake256 (2 * c.edLen) (ascii "SigEd448" ++ [0#8, BitVec.ofNat 8 ctx.length] ++ ctx ++ m)

/-- The expanded secret of a seed: the scalar and the prefix. -/
def Curve.edSecret (c : Curve) (d : Bytes) : Nat × Bytes :=
  let h := if c.edHash = 1 then sha512 d else shake256 (2 * c.edLen) d
  (c.clamp (leNat (h.take c.edLen)), h.drop c.edLen)

/-- The public key of a seed. -/
def Curve.edPublic (c : Curve) (seed d : Bytes) : Bytes := c.encodeE (c.secretMul seed ((c.edSecret d).1 % c.n) c.base)

/-- The nonce of a signature: the hash over the secret prefix and M, modulo N. -/
def Curve.edNonce (c : Curve) (d ctx m : Bytes) : Nat := leNat (c.edHashOf ctx ((c.edSecret d).2 ++ m)) % c.n

/-- A signature: R, then S. -/
def Curve.edSign (c : Curve) (seed d ctx m : Bytes) : Bytes :=
  let k := c.edNonce d ctx m
  let r := c.encodeE (c.secretMul seed k c.base)
  let h := leNat (c.edHashOf ctx (r ++ c.edPublic seed d ++ m)) % c.n
  r ++ le c.edLen ((k + h * (c.edSecret d).1) % c.n)

/-- A signature verifies by the cofactorless equation [S]B = R + [k]A (R210). -/
def Curve.edVerify (c : Curve) (pk ctx m sig : Bytes) : Bool :=
  let r := sig.take c.edLen
  let s := leNat (sig.drop c.edLen)
  match c.decodeE pk, c.decodeE r with
  | some a, some q =>
    let h := leNat (c.edHashOf ctx (r ++ pk ++ m)) % c.n
    sig.length == 2 * c.edLen && decide (s < c.n) && c.encodeE (c.mul s c.base) == c.encodeE (c.add q (c.mul h a))
  | _, _ => false

/-- The public value of a stored secret, by the curve's form. -/
def Curve.public (c : Curve) (seed d : Bytes) : Bytes :=
  match c.form with
  | 1 => c.encodeW (c.secretMul seed (beNat d) c.base)
  | 2 => le c.len (c.xMul seed (leNat d) c.gx)
  | _ => c.edPublic seed d

end Sys2Proof.Machine
end

