-- ==== Sys2Proof/Machine/Tab.lean ====
section
/-! DEFINITION. Sparse tables: what is indexed by a number and mostly holds its reset content. A table is a list of
(key, value) pairs with the keys strictly rising, so that equal tables are equal data. -/

namespace Sys2Proof.Machine

/-- A sparse table. -/
abbrev Tab (α : Type) := List (Nat × α)

/-- The entry under a key, if one is listed. -/
def Tab.find {α : Type} : Tab α → Nat → Option α
  | [], _ => none
  | (k, v) :: t, a => if k = a then some v else Tab.find t a

/-- The entry under a key, or what an unlisted key holds. -/
def Tab.getD {α : Type} (t : Tab α) (a : Nat) (d : α) : α := (t.find a).getD d

/-- Lists a value under a key, in key order, in place of any earlier value. -/
def Tab.put {α : Type} : Tab α → Nat → α → Tab α
  | [], a, w => [(a, w)]
  | (k, v) :: t, a, w =>
    if a < k then (a, w) :: (k, v) :: t
    else if a = k then (a, w) :: t
    else (k, v) :: Tab.put t a w

/-- Unlists a key. -/
def Tab.drop {α : Type} : Tab α → Nat → Tab α
  | [], _ => []
  | (k, v) :: t, a => if k = a then Tab.drop t a else (k, v) :: Tab.drop t a

/-- Writes a value where an unlisted key reads as `d`: the value `d` itself is unlisted. -/
def Tab.putD {α : Type} [DecidableEq α] (t : Tab α) (a : Nat) (w d : α) : Tab α :=
  if w = d then t.drop a else t.put a w

/-- The keys in order. -/
def Tab.keys {α : Type} (t : Tab α) : List Nat := t.map Prod.fst

/-- The values in key order. -/
def Tab.vals {α : Type} (t : Tab α) : List α := t.map Prod.snd

/-- Applies `f` to every listed value. -/
def Tab.mapVals {α : Type} (f : Nat → α → α) (t : Tab α) : Tab α := t.map fun p => (p.1, f p.1 p.2)

/-- Keeps the entries that meet `p`. -/
def Tab.keep {α : Type} (p : Nat → α → Bool) (t : Tab α) : Tab α := List.filter (fun e => p e.1 e.2) t

/-- Changes the listed value under a key; an unlisted key stays unlisted. -/
def Tab.modify {α : Type} (t : Tab α) (a : Nat) (f : α → α) : Tab α :=
  match t.find a with
  | some v => t.put a (f v)
  | none => t

/-- The least number from `lo` up to `lo + n` that is not listed. -/
def Tab.firstFree {α : Type} (t : Tab α) (lo : Nat) : Nat → Option Nat
  | 0 => none
  | n + 1 => if (t.find lo).isNone then some lo else Tab.firstFree t (lo + 1) n

/-- The keys rise strictly. -/
def Tab.rising {α : Type} : Tab α → Bool
  | [] => true
  | [_] => true
  | (a, _) :: (b, w) :: t => decide (a < b) && Tab.rising ((b, w) :: t)

/-- No listed value is what an unlisted key reads as. -/
def Tab.noDefault {α : Type} [DecidableEq α] (t : Tab α) (d : α) : Bool := t.all fun p => decide (p.2 ≠ d)

/-- The canonical form. -/
def Tab.wf {α : Type} [DecidableEq α] (t : Tab α) (d : α) : Bool := t.rising && t.noDefault d

end Sys2Proof.Machine
end

