-- ==== Sys2Proof/Machine/State.lean ====
section
/-! DEFINITION. The state of the MQ-6424 as plain data, and the state right after reset: a device as it leaves
manufacture, not yet powered. Every field names the rule that gives it. -/

namespace Sys2Proof.Machine

/-! ## Datum and graticule -/

/-- The states of the datum (R37). -/
inductive DatumState where
  | unset | trusted | untrusted
  deriving DecidableEq, Repr

/-- A token that has been accepted and waits for its tick boundary (R42, R44). -/
structure Token where
  seq : Nat
  time : Nat
  unc : Nat
  keyId : Nat
  issued : Nat            -- the boundary c of its challenge, in physical ticks
  accepted : Nat          -- the boundary after which it was accepted; it is applied at a later one
  ctx : Option Nat        -- the packet that carried it; none: SMBus
  chal : Bytes            -- the challenge it names
  deriving DecidableEq, Repr

/-- A phase refinement waiting for the next boundary (R47). -/
structure Refine where
  pps : Bool
  target : Nat            -- S
  sample8 : Nat           -- e, in eighths of a ns
  accepted : Nat          -- the boundary after which it was evaluated
  deriving DecidableEq, Repr

/-- The snapshot that a read of DTM_VALUE's low word takes (R60). -/
structure DatumSnap where
  v : Nat
  lo : Nat
  hi : Nat
  u : Nat
  status : Nat
  deriving DecidableEq, Repr

structure Datum where
  v : Nat                             -- R35, R36
  lo : Nat                            -- R35, R37
  hi : Nat                            -- R35, R37
  st : DatumState                     -- R37
  cap : Nat                           -- DTM_UNC_CAP, R46
  chal : Option (Bytes × Nat)         -- the open challenge and its issue boundary, R40
  tokens : List Token                 -- accepted, not yet applied, oldest first, R44
  tokSeq : Nat                        -- DTM_TOKEN_SEQ, in eMRAM, R43
  vAtToken : Nat                      -- DTM_LAST_TOKEN
  since : Nat                         -- ticks since the last applied token, R45
  widenDue : Bool                     -- a widening is due at this boundary, R45
  refine : List Refine                -- R47
  lastPps : Option Nat                -- reference ns of the last accepted edge, R47
  lastPtm : Option Nat                -- reference ns of the last successful exchange
  lastPtmTry : Option Nat             -- reference ns of the last exchange, R47
  rejected : Nat                      -- DTM_TOKEN_COUNTS.REJECTED, RC
  conflicts : Nat                     -- DTM_TOKEN_COUNTS.CONFLICTS, RC
  ppsApplied : Nat                    -- DTM_REFINE_COUNTS, RC
  ppsIgnored : Nat
  ptmApplied : Nat
  ptmIgnored : Nat
  ppsEn : Bool                        -- DTM_REFINE_CTRL
  ptmEn : Bool
  acqMs : Nat                         -- DTM_ACQ_CTRL
  flat : Bool                         -- DTM_GRAT_CTRL.FLAT, R52
  snap : Option DatumSnap             -- R60
  authKeys : List Bytes               -- enrolled authority keys, R402
  deriving DecidableEq, Repr

/-! ## Units -/

/-- The states of a unit other than RETIRED (R362). -/
inductive UnitMode where
  | inService | suspect | confirming | reloading
  deriving DecidableEq, Repr

/-- What a unit runs (R17, R48). -/
inductive Job where
  | idle
  | op (ctx : Nat)
  | check (ctx : Nat)
  | bench (fam : Nat) (confirm : Bool)
  | hatch
  | prepare (handle : Nat) (checking : Bool)
  | treeBatch (keyId level : Nat)
  deriving DecidableEq, Repr

/-- A stream lane (R220): work lanes 0 to 3, check lanes 4 to 7. -/
structure Lane where
  resident : Option Nat               -- the stream (queue * 2048 + STREAM_ID) whose context is resident, R222
  busy : Option Nat                   -- the operation context whose slab runs
  ends : Nat                          -- its last boundary
  absorbed : Nat                      -- stream bytes since taking the stream, R222
  used : Nat                          -- last use, R222
  reserved : Bool                     -- reserved for an engine, R206
  hatchedAt : Option Nat              -- last boundary at which the lane hatched, R53
  key : Bytes                         -- key register: the shares of its stream's key recombined, R220
  chain : Bytes                       -- chaining state, R220
  checkpoint : Tab Bytes              -- operation context to the stream context at its slab's launch, until compared, R224
  deriving DecidableEq, Repr

structure UnitSt where
  retired : Bool                      -- R362, R363
  mode : UnitMode                     -- R362
  job : Job                           -- R17
  ends : Nat                          -- the boundary at which the job ends
  lastBench : Nat                     -- last benchmark launch, R54
  fam : Nat                           -- current algorithm family, R52; 0 none yet
  benched : Tab Nat                   -- family to the tick of its last benchmark, R55
  famSets : Tab Nat                   -- family to the set of its most recent real operation, R147
  hatching : Option Nat               -- the set whose curve or mode the last hatching ran, R52
  needBench : Bool                    -- a benchmark before any other work, R359, R348
  charges : List Nat                  -- ticks at which transients in the window were charged, R362
  reloadEnds : Nat                    -- R348
  hatchedAt : Option Nat              -- the last boundary at which hatching was launched, R53
  lanes : Tab Lane                    -- stream pipes only, R220
  scrub : Bool                        -- MSK and KPS or the sheet's secrets cleared since the last operation, R218, R341
  deriving DecidableEq, Repr

/-- Engine-side completion word and operand residue (R198, R218, R318). -/
structure EngineSt where
  done : Bool
  reject : Bool
  fault : Bool
  doneTick : Nat
  busy : Bool
  ends : Nat
  freeAt : Nat                        -- BNCLEAR frees from the next boundary
  desc : Bytes                        -- the launch descriptor, R349
  ops : Tab Bytes                     -- OPS[0..63], 576 bytes each
  msk : Tab Bytes                     -- MSK[0..7]
  kps : Tab Bytes                     -- KPS[0..3]
  deriving DecidableEq, Repr

/-! ## Rings, contexts, collectors -/

/-- What an entry of a queue's stream table holds (R66). -/
inductive StreamState where
  | opened | kept | aborted
  deriving DecidableEq, Repr

/-- A stream context saved in HBM (R223): a keyed one sealed under the context key, an unkeyed one in clear. -/
structure SavedCtx where
  keyed : Bool
  counter : Nat                       -- save counter
  body : Bytes
  tag : Bytes
  deriving DecidableEq, Repr

structure Stream where
  st : StreamState
  opcode : Nat
  keyA : Nat
  keyB : Nat
  param : Nat
  declared : Nat                      -- DECLARED_LEN
  undeclared : Bool
  count : Nat                         -- stream bytes so far, R68
  head : Bytes                        -- the first packet's bytes before its stream bytes
  data : Bytes                        -- stream bytes so far
  charged : Bool                      -- key and quota tests passed and charged, R448
  finalCtx : Option Nat               -- consumed FINAL packet not yet released, R66
  pages : Nat                         -- scratch pages held, R27
  keptHead : Bytes                    -- header values that shaped a kept context, R234
  fromKept : Bool                     -- opened on a kept context
  leaf : Option Nat                   -- leaf index assigned at the first packet, R164
  startUnc : Nat                      -- U at first launch, for survey statements, R187
  first : Nat                         -- submission order of the stream's first packet, R66
  region : Option Nat                 -- region in which its last slab launched, R135
  saved : Option SavedCtx             -- its context as saved in HBM, R223
  deriving DecidableEq, Repr

/-- The life of an accepted command (R51, R78). -/
inductive Phase where
  | waiting                           -- accepted, nothing launched
  | running                           -- at least one part launched
  | finished                          -- decided; waits for the collector
  | collected                         -- in a collector
  | writing                           -- taken by the completion writer
  deriving DecidableEq, Repr

/-- The life of one part of a command (R51, R141, R360). -/
inductive PartPhase where
  | waiting                           -- not launched
  | running                           -- on its unit
  | between                           -- between two legs, R49
  | done                              -- the unit has finished; the check is due
  | checking                          -- on the check unit
  | passed                            -- the check has passed
  | withheld                          -- a rerun is due, R360
  deriving DecidableEq, Repr

/-- One part of a command: what runs on one unit and is checked on a partner (R141, R190, R224, R270). -/
structure Part where
  kind : Nat                          -- kind of unit, R21
  stage : Nat                         -- parts of a later stage launch after all of an earlier one have passed
  fam : Nat                           -- algorithm family (its benchmark), R55
  ticks : Nat                         -- fixed count, or the setup of a rejection loop
  iter : Nat                          -- ticks of one iteration; 0: no loop, R50
  legs : List Nat                     -- the division of the owning chapter; empty: the default, R49
  check : Nat                         -- ticks of the check
  draws : Nat                         -- octets drawn on the operating unit, R151
  checkDraws : Nat                    -- octets drawn on the check unit
  slab : Bool                         -- runs mirrored on lanes, R224
  phase : PartPhase
  unit : Option Nat                   -- operating unit of the last launch, R450
  lane : Nat
  checkUnit : Option Nat
  checkLane : Nat
  ends : Nat                          -- last boundary of what runs now
  left : List Nat                     -- legs still to launch
  retries : Nat                       -- R360
  hatched : Bool                      -- R53
  draw : Nat                          -- number of its draw
  cands : List Nat                    -- RSA key generation: the numbers of its candidates' draws, R209
  finishing : Bool                    -- RSA key generation: the candidates are chosen, R209
  deriving DecidableEq, Repr

/-- A secret under a mask of its operation: the mask, and the secret with the mask added (R28). -/
structure Masked where
  mask : Bytes
  value : Bytes
  deriving DecidableEq, Repr

/-- A residency: a key's two shares in a region's key cache (R30, R31). -/
structure Residency where
  handle : Nat
  share0 : Bytes                      -- the mask, drawn from the region's DRBG
  share1 : Bytes                      -- the material with the mask added
  deriving DecidableEq, Repr

/-- What the computing of an operation has produced. -/
structure Result where
  status : Nat
  out : Bytes
  entries : List Bytes                -- the split of a survey chain, R188; empty: R83 applies
  deposit : Option Masked             -- secret or key material to deposit after the check, R28, R130
  depositPolicy : Bytes               -- the policy block of the deposited key
  depositPub : Bytes                  -- its public key, where it has one
  loops : List Nat                    -- iterations of each part that runs a loop, R50
  destroySource : Bool                -- KEY_EXPORT with DESTROY_SOURCE, R268
  deriving DecidableEq, Repr

structure Ctx where
  q : Nat
  slice : Nat
  seq : Nat                           -- order of submission within the queue
  opcode : Nat
  flags : Nat
  tag : Nat
  keyA : Nat
  keyB : Nat
  stream : Nat
  param : Nat
  declared : Nat
  deadline : Nat
  outLimit : Nat
  mem : Tab Byte                      -- what cores have stored in its operation context and scratch pages, R308
  frags : List (Nat × Nat)
  payload : Bytes                     -- header part and message of the command (all of it at FINAL)
  slab : Nat                          -- stream bytes of this packet still to absorb, R221
  pos : Nat                           -- stream bytes of the packets before it
  firstSlab : Bool
  region : Nat                        -- region whose collector releases it
  phase : Phase
  parts : List Part
  launchV : Nat                       -- LAUNCH
  launchTick : Nat
  result : Option Result
  shares : List Residency             -- the key shares it holds since its launch, R144
  reserved : Option Nat               -- the handle of the slot reserved at launch, R143
  waitFrom : Option Nat               -- first boundary at which randomness was missing, R282
  progress : Nat                      -- tick of last progress, R357
  pages : Nat                         -- scratch pages held, R27
  leaf : Option Nat                   -- assigned leaf, R164
  drop : Bool                         -- output discarded: completes ST_ABORTED, R107, R109
  orphaned : Bool                     -- a key it names was bumped after its launch, R144, R242
  bearingEnd : Option Nat             -- survey: boundary at which bearing formation ends, R190
  bearingOk : Bool                    -- survey: the chain has been formed and compared, R190
  bearingTries : Nat                  -- survey: retries of the formation, R191
  batch : Bool                        -- not a packet: the batch of a survey stream that still arrives, R190
  startUnc : Nat                      -- U at the first launch, R187
  startSt : DatumState                -- the datum state at the first launch, R253
  accepted : Nat                      -- boundary after which it was accepted
  finishedAt : Nat
  deriving DecidableEq, Repr

/-- An entry released for a ring and not yet written (R83, R90). -/
structure Held where
  ctx : Option Nat                    -- none: a notice entry
  status : Nat
  tag : Nat
  unit : Nat
  launch : Nat
  cont : Bool
  retries : Nat
  hatched : Bool
  out : Bytes
  last : Bool                         -- last entry of its completion
  notify : Bool
  staged : Bool                       -- it lies in completion staging, R26, R90
  deriving DecidableEq, Repr

inductive QueueState where
  | active | shutting | frozen
  deriving DecidableEq, Repr

structure Queue where
  st : QueueState
  slice : Nat
  home : Nat
  admin : Bool
  sqBase : Nat                        -- queue-window offset of the doorbell page
  sqLog2 : Nat
  cqLog2 : Nat
  vector : Nat                        -- absolute
  cqAddr : Nat
  shadowAddr : Nat
  h : BitVec 32                       -- R72
  t : BitVec 32
  p : BitVec 32
  c : BitVec 32
  pass : Nat                          -- R84
  shadow : BitVec 32                  -- H at the last shadow write, R79
  held : List Held                    -- R90; also the order of release
  chainOpen : Bool                    -- the last entry written has CONT set, R83
  invalid : Nat                       -- QUE_ERRORS.INVALID_DB, RC
  malformed : Nat                     -- QUE_ERRORS.MALFORMED, RC
  noticeCount : Nat                   -- doorbells of the notice entry to come, R77
  noticeTag : BitVec 32
  noticeSince : Nat                   -- boundary before which it is not formed
  noticeHeld : Bool                   -- the notice entry has been released
  streams : Tab Stream                -- R66
  nextSeq : Nat
  undef : List Nat                    -- cells of the window rewritten between doorbell and consumption, R74
  destroyer : Option Nat              -- context of the QP_DESTROY that shuts it down, R107
  deriving DecidableEq, Repr

/-! ## Slices -/

inductive SliceState where
  | active | resetting | freezing | frozen | exported | destroying
  deriving DecidableEq, Repr

/-- TDISP interface states (R120). -/
inductive TdiState where
  | configUnlocked | configLocked | run | error
  deriving DecidableEq, Repr

structure Slice where
  st : SliceState
  flags : Nat
  pasid : Nat
  winBase : Nat
  winSize : Nat
  weight : Nat
  maxQp : Nat
  msixBase : Nat
  msixCount : Nat
  inflightLimit : Nat
  keySlots : Nat
  memQuota : Nat                      -- KiB
  memUsed : Nat                       -- KiB
  opsPerWindow : Nat
  quotaWindow : Nat
  window : Option Nat                 -- index of the current quota window
  charged : Nat
  adminQueue : Nat
  accepted : Nat
  completed : Nat
  ideDrops : Nat                      -- RC
  imported : Bool                     -- imported since the last THAW, R98
  tdi : TdiState
  ideStream : Option (BitVec 3)
  squash : Bool                       -- mode of the running sequence
  wipe : Bool
  endsFrozen : Bool
  admin : Option Nat                  -- context of the command that waits for quiescence, R111
  thawAt : Bool
  deriving DecidableEq, Repr

/-- A migration or key-receive session (R113, R268). -/
structure Session where
  id : Nat
  slice : Nat
  parent : Nat
  opened : Nat                        -- reference µs
  seed : Bytes                        -- the session's ML-KEM-1024 seed
  deriving DecidableEq, Repr

/-! ## Keys -/

/-- The policy block's fields (R255). -/
structure Policy where
  param : Nat
  usage : Nat
  childUsage : Nat
  childParam : Nat
  notBefore : Nat
  notAfter : Nat
  quotaWindow : Nat
  quotaOps : Nat
  materialLen : Nat
  flags : Nat
  counter : Nat
  sealBy : Nat
  depth : Nat
  deriving DecidableEq, Repr

/-- What a key slot holds (R254, R259, R260). -/
inductive SlotSt where
  | free
  | reserved                          -- for a launched depositing command, R143
  | live
  | orphaned                          -- an ancestor was bumped; awaits reclaim
  | dead                              -- bumped itself; awaits reclaim
  deriving DecidableEq, Repr

/-- What AES-256-GCM under the vault key has sealed: a slot record or an extent (R28, R261). -/
structure Vault where
  handle : Nat                        -- the key's handle, in the header and the associated data
  nonce : Bytes                       -- u32 record index, u64 write count
  body : Bytes
  tag : Bytes
  deriving DecidableEq, Repr

structure Slot where
  gen : Nat                           -- last generation, R254
  st : SlotSt
  parent : Nat
  policy : Policy
  record : Nat                        -- index of its vault record, R26, R261
  sealed : Vault                      -- policy block and material of up to 896 octets, R261
  extent : Option (Nat × Vault)       -- index of its extent, and the longer material, R261
  pub : Bytes                         -- public key
  quotaIdx : Option Nat               -- window index of the last charge, R262
  quotaCharged : Nat
  spentTo : Option Nat                -- QUOTA_INDEX of a restored key, R266
  deriving DecidableEq, Repr

/-- An anchor of VERIFY_BEARING (R194, R195). -/
structure Anchor where
  slice : Nat
  id : Bytes
  root : Bytes
  batchId : Nat
  leafCount : Nat
  treeHash : Nat
  digestLen : Nat
  start : Nat
  stop : Nat
  dropped : Bool                      -- dropped, and kept for bearings accepted before, R195
  deriving DecidableEq, Repr

/-- An internal operation that a sheet runs and a partner checks: a preparation or a part of a tree build (R127, R163). -/
structure Build where
  id : Nat                            -- handle of the key prepared, or KEY_ID of the tree
  level : Nat
  unit : Nat                          -- the operating sheet
  check : Option Nat                  -- the partner, once the check runs
  ends : Nat                          -- last boundary of what runs now
  left : List Nat                     -- legs still to launch on that sheet, R49
  deriving DecidableEq, Repr

structure KeyStore where
  slots : Tab Slot                    -- by slice * 2^24 + slot, R254
  bumps : List (Nat × Nat)            -- handles whose bump waits for the boundary after the one given, R259
  prepared : List Nat                 -- handles in the prepared-key cache, least recently used first, R128
  mceCache : List Nat                 -- McEliece public keys cached, R174
  preps : List Build                  -- preparations under way, R127
  resident : Tab (List Residency)     -- region to its residencies, least recently made first, R31
  anchors : List Anchor               -- least recently used first
  peers : Tab (List (Nat × Bytes))    -- slice (0 queue 0) to serial and identity keys, R268
  imports : List Session              -- R113
  receives : List Session             -- R268
  nextSession : Nat
  epochs : Tab Nat                    -- R267
  persistNext : Nat                   -- R265
  persistEnd : Nat
  reclaimed : Nat                     -- KST_RECLAIMED, RC
  vaultKey : Bytes                    -- per-boot vault key, R28; empty: none, R271
  tagKey : Bytes                      -- key of the HBM integrity tags, R25
  ctxKey : Bytes                      -- key of saved stream contexts, R223
  ctxSaves : Nat                      -- save counter of stream contexts, R223
  vaultWrites : Nat                   -- write count of the vault nonces, R261
  rootReady : Bool
  helperA : Bool                      -- the copy passed at this start, R245
  helperB : Bool
  helpA : Bytes                       -- helper-data copies in eMRAM: 96 offsets, check value, CRC-32C, R245; empty: erased
  helpB : Bytes
  maxCorrected : Nat
  above28 : Nat
  root : Bytes                        -- R244
  digests : List Bytes                -- D(0) to D(6), R246
  measure : Bytes                     -- M(6)
  cdiX : Bytes
  cdiS : Bytes
  identity : Bytes                    -- the identity seed I, R249
  chain : Bytes                       -- identity certificate chain, R250; empty when none
  serial : Nat
  svn : Nat
  signer : Nat
  deriving DecidableEq, Repr

/-! ## Stateful signatures -/

/-- The fields of a journal record (R168). -/
structure JRec where
  flags : Nat
  keyId : Nat
  nextUnreserved : Nat
  total : Nat
  seq : Nat
  block : Nat
  handle : Nat
  bad : Bool                          -- fails FORMAT or CHECK
  deriving DecidableEq, Repr

/-- The chief core's counters of one stateful key (R164, R171). -/
structure Leaves where
  next : Nat                          -- next leaf
  reservedEnd : Nat                   -- end of the confirmed reservation
  total : Nat
  block : Nat
  heights : List Nat                  -- heights of its levels or layers, top first, R157, R158
  handle : Nat
  deriving DecidableEq, Repr

/-- A cached or growing tree (R162, R163). -/
structure Tree where
  keyId : Nat
  level : Nat
  left : Nat                          -- batches and joins still to run; 0: cached
  deriving DecidableEq, Repr

structure Stateful where
  journal : Tab Bytes                 -- words 0 to 8,191, 64 octets each, R29, R168
  owed : List JRec                    -- records that wait for the write budget, R169
  seqBase : Nat                       -- highest SEQUENCE ever written
  ptr : Nat                           -- write pointer
  writes : List Nat                   -- ticks of the journal writes of the last second, R169
  keyIdCtr : Nat                      -- R161
  keys : Tab Leaves                   -- by KEY_ID
  trees : List Tree                   -- the tree cache, least recently used first
  builds : List Build                 -- batches and joins under way, R163
  deriving DecidableEq, Repr

/-! ## Entropy -/

inductive RngStage where
  | off | balancing | startupTest | running | halted
  deriving DecidableEq, Repr

structure RngCell where
  trim : Nat
  ones : Nat                          -- ones of its last window
  balanced : Bool                     -- converged in this balancing, R276
  since : Nat                         -- tick at which its window of 1,024 samples began, R272
  deriving DecidableEq, Repr

/-- One of the 13 DRBGs of R277: 0-3 region INT, 4 atlas INT, 5-8 HOST, 9-12 HATCH. -/
structure Drbg where
  seeded : Bool
  last : Nat                          -- tick of the last successful reseed
  requests : Nat                      -- generate requests since then
  reseeds : Nat
  stopped : Bool                      -- past its reseed limit, R278
  due : Bool                          -- a reseed is due and waits for blocks
  got : Nat                           -- bits in hand for the waiting demand, R280
  kat : Nat                           -- tick of its last known-answer test, R279
  deriving DecidableEq, Repr

structure Rng where
  stage : RngStage
  restart : Bool                      -- the stages running belong to a restart, R284
  cells : Tab RngCell
  drbgs : Tab Drbg
  failures : List Nat                 -- ticks of recent health failures
  drbgFault : Bool
  mode : Bool                         -- RNG_CTRL.MODE: true halt
  waitMs : Nat                        -- RNG_WAIT
  rct : Nat                           -- RNG_FAILURES, RC
  apt : Nat
  balance : Nat
  restarts : Nat
  restartsTotal : Nat                 -- restarts since reset, R392
  hostBytes : Nat
  fresh : List (Nat × Nat)            -- waiting DRBG_PR and FRESH contexts and bits still needed, R280
  started : Nat                       -- tick at which the source started
  stageFrom : Nat                     -- tick at which its stage began, R276
  blockFrom : Nat                     -- tick at which the block in assembly began, R273
  deriving DecidableEq, Repr

/-! ## Event controller and recorder -/

structure MsixEntry where
  addr : Nat
  data : Nat
  mask : Bool
  deriving DecidableEq, Repr

structure Coal where
  count : Nat                         -- EVC_COAL.COUNT
  timer : Nat                         -- EVC_COAL.TIMER_US
  seen : Nat                          -- events since the last firing
  started : Nat                       -- tick of the first of them
  deriving DecidableEq, Repr

structure EvClass where
  hostSource : Nat
  hostEn : Bool
  intEn : Bool
  deriving DecidableEq, Repr

structure IntRoute where
  target : Nat                        -- 0 none, 1 chief, 2-5 region core 0-3
  prio : Nat
  mask : Bool
  pending : Bool
  active : Bool
  activeOn : Nat                      -- core that took it
  handler : BitVec 64
  deriving DecidableEq, Repr

structure EventCtl where
  msix : Tab MsixEntry
  fnMask : Bool
  pba : Tab Bool
  coal : Tab Coal
  classes : Tab EvClass
  routes : Tab IntRoute
  strayEoi : Nat                      -- RC
  routeErr : Nat                      -- RC
  deriving DecidableEq, Repr

/-- An event record (R385). -/
structure EvRec where
  code : Nat
  origin : Nat
  severity : Nat
  opSeconds : Nat
  cycles : Nat
  repeats : Nat
  p0 : Nat
  p1 : Nat
  p2 : Nat
  p3 : Nat
  deriving DecidableEq, Repr

structure Recorder where
  queue : List EvRec                  -- detected, not yet written
  kept : Tab EvRec
  circ : Tab EvRec                    -- by ordinal mod 4,096
  total : Nat
  dropped : Nat                       -- RC
  overflow : Nat                      -- records dropped since the last LOG_OVERFLOW
  writes : List Nat                   -- ticks of the new records of the last second
  repeatFrom : Option Nat             -- tick of the first increment not yet in eMRAM
  unwritten : Nat                     -- increments of REPEAT not yet in eMRAM, R386
  opSeconds : Nat
  opTicks : Nat                       -- µs into the current operating second
  persisted : Nat                     -- OP_SECONDS in eMRAM
  powerCycles : Nat
  deriving DecidableEq, Repr

/-! ## Integrity -/

/-- An entry of the retirement map's log (R364). -/
structure RetireLog where
  unit : Nat                          -- identifier, or 0xFF for a region
  region : Nat
  cause : Nat
  opSeconds : Nat
  cycles : Nat
  v : Nat
  deriving DecidableEq, Repr

structure Integrity where
  safe : Bool
  firstClass : Nat
  classes : Nat                       -- bit c - 1: class c raised
  cause : Nat
  alarmV : Nat
  alarmOut : Bool
  zeroised : Bool
  transients : Nat                    -- RC
  mismatches : Nat                    -- RC
  retriesOne : Nat                    -- RC
  retriesTwo : Nat                    -- RC
  unitFaults : Nat                    -- RC
  mapSeq : Nat
  mapLog : List RetireLog             -- persisted entries
  mapQueue : List RetireLog           -- retirements not yet persisted
  mapA : Bool                         -- the copy passes its CHECK
  mapB : Bool
  mapCopyA : Bytes                    -- the two 4 KiB copies in eMRAM, R29, R364; empty: never written
  mapCopyB : Bytes
  regions : List Nat                  -- retired regions
  degraded : Bool
  temps : List Int
  hbmTemp : Int
  due : Tab (Nat × Nat)               -- region to the reason and the tick of a region-core fault, R365
  extended : Bool                     -- ordering code E, R15
  thermtrip : Bool
  scrubLine : Nat
  scrubPasses : Nat
  scrubStart : Nat
  scrubMs : Nat
  corrected : Nat                     -- HBM_ERRORS, RC
  uncorrectable : Nat
  tagFail : Nat
  poison : Tab Nat                    -- submission-ring cells: 1 poisoned TLP, 2 uncorrectable line
  storeCorrected : Nat                -- MCV_ECC, RC
  storeReloads : Nat
  mirrorFail : Tab Nat                -- RGN_STREAM_ERRORS, RC
  contextLost : Tab Nat
  switches : Tab Nat                  -- RGN_STREAM_SWITCHES, RC
  deriving DecidableEq, Repr

/-! ## Start-up, image, life cycle -/

/-- A microcode, table or firmware figure shown in a register (R354, R411). -/
structure ImageInfo where
  versions : List Nat                 -- of the five stores
  words : List Nat
  digests : List Nat                  -- bytes 0 to 3 of SHA-384 of each loaded store
  stores : List Bytes                 -- what every store of a kind holds: 256 entries of two octets, then the words, R342
  packCode : Nat
  locked : Nat
  params : List Bytes                 -- parameter-set rows loaded, base then packs, R350
  formats : List Bytes                -- command-format rows loaded, R351
  curves : List Bytes                 -- curve rows that passed R202
  loadedPacks : Nat
  discardedPacks : Nat
  packIds : List (Nat × Nat)          -- PACK_ID and VERSION in load order
  firmware : Tab Bytes                -- 0 chief, 1 region, 2 sheet
  deriving DecidableEq, Repr

/-- A bank record (R407). -/
structure Bank where
  seq : Nat
  svn : Nat
  minSvn : Nat
  signer : Nat
  pages : Nat
  sections : Nat
  reason : Nat
  deriving DecidableEq, Repr

/-- A commit in progress: its stream on queue 0 and the bank it writes (R408). -/
structure Commit where
  stream : Nat
  first : Nat                         -- submission order of the stream's first packet
  target : Nat
  deriving DecidableEq, Repr

/-- Stages of the start (R395). -/
structure StartUp where
  vddGood : Bool                      -- rails up, R433
  perst : Bool                        -- PERST_N asserted
  stage : Nat                         -- DEV_STAGE
  errCode : Nat
  errDetail : Nat
  env : Option StartEnv               -- what the board showed at this start
  t0 : Nat                            -- reference µs at t0
  stageFrom : Nat                     -- tick at which the stage began
  readyMs : Nat
  fuseRead : Bool                     -- end of fuse read passed in this start
  loadDone : Bool                     -- end of the load stage passed
  burning : List Nat                  -- fuse groups still to burn, 1 to 5; 6 to 8 revocation groups
  burnFrom : Nat
  hbmTrained : Bool                   -- a training result came before the HBM stage
  grat : Bool                         -- the graticule runs
  drsSent : Bool                      -- Device Readiness Status, R396
  smbAddr : BitVec 2
  bank : Nat                          -- booted bank
  fallback : Bool
  banks : List Bank
  flashA : Bytes
  flashB : Bytes
  commits : Nat
  tokens : Nat
  tokenTicks : Nat                    -- powered µs towards the next token
  commit : Option Commit
  svnFloor : Nat
  image : ImageInfo
  deriving DecidableEq, Repr

inductive Fuse where
  | unburnt | burnt | torn
  deriving DecidableEq, Repr

/-- A pending life-cycle request (R416). -/
structure LcsReq where
  kind : Nat
  from_ : Nat
  to_ : Nat
  digests : List Bytes
  deriving DecidableEq, Repr

/-- A debug certificate's bound fields (R421). -/
structure DebugCert where
  lcState : Nat
  serial : Nat
  notAfter : Nat
  rights : Nat
  signer : Nat
  bytes : Bytes
  deriving DecidableEq, Repr

structure LifeCycle where
  groups : List Fuse                  -- G1 to G5
  revoked : List Fuse                 -- revocation groups of slots 1 to 3
  signers : List (Option Bytes)       -- enrolled digests of slots 1 to 3
  pending : Option LcsReq
  cert : Option DebugCert             -- pending certificate
  inForce : Option DebugCert
  rightsOpen : Bool
  rightsClosed : Bool                 -- closed in this start; they do not reopen
  burnDeferred : Bool
  vpp : Bool
  tdr : Nat                           -- what the TAP last shifted out: IDCODE or 0
  deriving DecidableEq, Repr

/-! ## Host interface -/

/-- One direction of an SPDM session: the traffic secret its key and IV come from, and the records sent under it. -/
structure SpdmKey where
  secret : Bytes
  seq : Nat
  deriving DecidableEq, Repr

/-- SPDM responder (R252). -/
structure Spdm where
  version : Bool
  caps : Bool
  algs : Bool
  vca : Bytes                         -- the messages up to ALGORITHMS
  certs : Bytes                       -- the messages of digests and certificates since then
  meas : Bytes                        -- the messages of unsigned measurements since the last signed ones
  session : Nat                       -- 0 none, 1 handshake, 2 established
  path : SpdmPath                     -- the transport of the session
  sessionId : Nat
  th : Bytes                          -- the transcript of the session's handshake
  master : Bytes                      -- the handshake secret, then the master secret
  toDev : SpdmKey                     -- the requester's direction
  toHost : SpdmKey                    -- the responder's direction
  oldKey : Option SpdmKey             -- the requester's key before an update that is not yet verified
  ideKeys : Tab Nat                   -- selective stream: 1 keys programmed, 2 running
  locks : Tab Bytes                   -- slice to what LOCK_INTERFACE fixed: its nonce and the reporting offset, R120
  resp : Bytes                        -- last response, as it leaves: in a session, its record
  respCode : Nat                      -- its message code: 1 answered, 2 error
  deriving DecidableEq, Repr

/-- A posted memory write of the device: address space, address, length, and the selective IDE stream it left on (R85,
R121). -/
structure Tlp where
  space : Nat
  addr : Nat
  len : Nat
  ide : Option (BitVec 3)
  deriving DecidableEq, Repr

structure Bus where
  latch : Tab (BitVec 32)             -- high-word latches, R12
  heldLow : Tab (BitVec 32)           -- low words held, R12
  data : BitVec 64                    -- data of the last host read of a register
  bytes : Bytes                       -- octets of the last host read of the queue window, R71
  ur : Bool                           -- it completed with Unsupported Request
  posted : Option Tlp                 -- the last completion or head-shadow write, R121
  rrs : Bool                          -- a configuration request was answered with retry status
  smbus : Option Bytes                -- last SMBus response
  spdm : Spdm
  deriving DecidableEq, Repr

/-! ## Casmar cores -/

/-- A multiplier write that has not landed (R305). -/
structure MulWrite where
  land : Nat
  toY : Bool
  reg : Nat
  val : BitVec 64
  deriving DecidableEq, Repr

/-- The vector pipes (R325). -/
inductive Pipe where
  | valu | vmul | vlsu | vperm
  deriving DecidableEq, Repr

/-- A beat in a pipe (R325): the element writes of a vector or a guard register. -/
structure Beat where
  leave : Nat                         -- the cycle at whose end it leaves
  pipe : Pipe
  unitLoad : Bool                     -- of a unit-stride load: may chain, R326
  idx : Nat                           -- its number within the instruction
  reg : Nat                           -- vector register, or 32 + guard
  elems : List (Nat × BitVec 32)
  issue : Nat                         -- number of its instruction
  deriving DecidableEq, Repr

/-- A queued coprocessor command (R317). -/
structure CpCmd where
  seq : Nat                           -- order of issue on the core, R337
  issued : Nat                        -- the cycle of issue
  fn : Nat
  rd : Nat                            -- the register that takes its result; 0 none
  a : BitVec 64
  b : BitVec 64
  vl : Nat
  cfg : Tab (BitVec 64)               -- the coprocessor registers and QMOD (key 0) at issue, R335
  deriving DecidableEq, Repr

structure CpState where
  queue : List CpCmd
  fault : Option Nat                  -- stands until a CPSYNC reads it; commands are discarded meanwhile, R338
  freeAt : Nat                        -- the cycle from which the next command may start
  deriving DecidableEq, Repr

/-- The hash unit, sampler, key port, random port and binary-field unit of a sheet (R335, R336). -/
structure SheetUnits where
  hash : Bytes                        -- state: 200 bytes Keccak, 32 or 64 bytes SHA
  block : Bytes                       -- partial block
  total : Nat                         -- bytes absorbed
  squeezed : Nat                      -- bytes squeezed
  final : Bool
  keyed : Bool
  lastCount : Nat                     -- SMP_LAST
  sel : Option Nat                    -- key-port selection
  drawBuf : Bytes
  secret : Bytes                      -- secret operand buffer
  maskSeed : Option Bytes
  rpCtr : Nat
  deriving DecidableEq, Repr

structure Core where
  x : Tab (BitVec 64)                 -- x1 to x31; unlisted reads 0, R291
  y : Tab (BitVec 64)                 -- y0 to y3
  gv : Tab (BitVec 256)               -- vector forms of g1 to g7; bit 0 is the guard, R322
  init : BitVec 8                     -- GUARDS.INIT of g1 to g7, R291
  fl : BitVec 4                       -- Z N C V, R291
  pc : BitVec 64
  priv : Bool                         -- PSTATE, R309
  ie : Bool
  exl : Bool
  plain : Bool
  recov : Bool
  curPrio : BitVec 5
  epstate : BitVec 64
  epc : BitVec 64
  ecause : BitVec 64
  einfo : BitVec 64
  vbase : BitVec 64
  recovVec : BitVec 64
  recovLocked : Bool
  dfpc : BitVec 64
  dfcause : BitVec 8
  cycle : Nat                         -- CYCLE
  wdog : BitVec 32
  wdogFrom : Nat
  qmod : BitVec 32
  mulq : List MulWrite
  dmem : Tab Byte                     -- data SRAM; unlisted reads 0
  scratch : Tab Byte                  -- operation context and scratch window of a sheet
  waiting : Bool                      -- WFI, R314
  halted : Bool                       -- R315
  held : Bool                         -- held in reset, R290
  v : Tab (BitVec 32)                 -- vector registers: register * 256 + element
  vl : Nat
  vcfg : Bool                         -- MRED
  ffHit : Bool
  sat : Bool
  qerr : Bool
  vfaultIdx : Nat
  beats : List Beat
  issues : Nat                        -- vector instructions and coprocessor commands issued
  loadRd : Nat                        -- rd of the last load and the cycle at which it is there, R308
  loadAt : Nat
  pipeNext : Tab Nat                  -- pipe 0-3 to the first cycle at which a beat may start
  cps : Tab CpState
  cpregs : Tab (BitVec 64)            -- coprocessor system registers by number, R335
  su : SheetUnits
  deriving DecidableEq, Repr

/-- What the weighted round robin of a region core has served a slice on one kind of unit (R101). -/
structure Turn where
  slice : Nat
  time : Nat                          -- launch ticks served, each weighed by 1 / WEIGHT
  queue : Nat                         -- the queue served last
  deriving DecidableEq, Repr

/-! ## The whole device -/

structure State where
  pending : List Instr                -- commands that wait, first in first out
  now : Nat                           -- reference time in µs; the boundary's number while the graticule runs
  free : Nat                          -- the model's own: number of the next free value or draw
  datum : Datum
  units : Tab UnitSt                  -- by 26 * region + region ordinal, R21, R23
  engines : Tab EngineSt              -- by 4 * region + engine
  queues : Tab Queue                  -- by queue number; unlisted: free
  enq0 : Queue                        -- the fields of queue 0 while it is disabled, R96
  slices : Tab Slice                  -- by slice number; unlisted: absent
  ctxs : Tab Ctx                      -- operation contexts in use, R26
  collectors : Tab (List Nat)         -- region to contexts, oldest first, R89
  writerNext : Nat                    -- collector the writer looks at first, R89
  turns : Tab (List Turn)             -- region * 4 + kind to what its slices have been served, R101
  keys : KeyStore
  stateful : Stateful
  rng : Rng
  events : EventCtl
  log : Recorder
  integ : Integrity
  start : StartUp
  lcs : LifeCycle
  bus : Bus
  cores : Tab Core                    -- 0 chief, 1-4 region, 5-68 sheets; unlisted: as at reset
  window : Tab Byte                   -- submission rings by queue-window offset
  host : Tab Byte                     -- host memory as the device has written it, by address space and address
  hbm : Tab Byte                      -- the rest of the HBM as cores write it
  emram : Tab Byte                    -- eMRAM as the chief core writes it
  deriving DecidableEq, Repr

/-- Why the machine stops: the command names an object that the spec says does not exist. Raised by any command with
an index operand out of range; safe (the device has no such event). -/
inductive Fault where
  /-- A core number of 69 or more (R289). Raised by every Casmar command; safe. -/
  | noSuchCore
  /-- A unit number of 104 or more (R16, R22). Raised by unit commands; safe. -/
  | noSuchUnit
  /-- A region number of 4 or more (R16). Raised by region commands; safe. -/
  | noSuchRegion
  /-- A rail, entropy cell or DRBG beyond the spec's tables (R272, R277, R447). Raised by sensor and entropy commands; safe. -/
  | noSuchSensor
  deriving DecidableEq, Repr

/-- Why the model gives a command no meaning. -/
inductive Refusal where
  /-- The arm of a command whose meaning is not written yet; raised by exec alone; safe. -/
  | notModelled (mnemonic : String)
  /-- A JTAG service behind a right that is open: no rule says what the service does (R421, R423, R440). Raised by
  JTAG_ACCESS; safe. -/
  | jtagService
  deriving DecidableEq, Repr

/-- What a step or a meaning answers. -/
abbrev Out := Host.Outcome State Fault Refusal

/-! ## Reset -/

/-- The datum at reset (R37, R46, R60); an unfused DTM_TOKEN_SEQ is 0 (log 9). -/
def Datum.reset : Datum :=
  { v := 0, lo := 0, hi := 2 ^ 64 - 1, st := .unset, cap := 2000000000, chal := none, tokens := [], tokSeq := 0,
    vAtToken := 0, since := 0, widenDue := false, refine := [], lastPps := none, lastPtm := none,
    lastPtmTry := none, rejected := 0, conflicts := 0, ppsApplied := 0, ppsIgnored := 0, ptmApplied := 0,
    ptmIgnored := 0, ppsEn := false, ptmEn := false, acqMs := 50, flat := false, snap := none, authKeys := [] }

/-- A unit at reset: not retired, idle (R362). -/
def UnitSt.reset : UnitSt :=
  { retired := false, mode := .inService, job := .idle, ends := 0, lastBench := 0, fam := 0, benched := [], famSets := [], hatching := none,
    needBench := false, charges := [], reloadEnds := 0, hatchedAt := none, lanes := [], scrub := true }

/-- A stream lane at reset (R222). -/
def Lane.reset : Lane :=
  { resident := none, busy := none, ends := 0, absorbed := 0, used := 0, reserved := false, hatchedAt := none,
    key := [], chain := [], checkpoint := [] }

/-- An engine at reset (R318, R349). -/
def EngineSt.reset : EngineSt :=
  { done := false, reject := false, fault := false, doneTick := 0, busy := false, ends := 0, freeAt := 0,
    desc := [], ops := [], msk := [], kps := [] }

/-- The fields of the disabled queue 0 (R96, R124). -/
def Queue.reset0 : Queue :=
  { st := .active, slice := 0, home := 0, admin := true, sqBase := 0, sqLog2 := 0, cqLog2 := 0, vector := 0,
    cqAddr := 0, shadowAddr := 0, h := 0, t := 0, p := 0, c := 0, pass := 0, shadow := 0, held := [], chainOpen := false, invalid := 0,
    malformed := 0, noticeCount := 0, noticeTag := 0, noticeSince := 0, noticeHeld := false, streams := [],
    nextSeq := 0, undef := [], destroyer := none }

/-- The key store before the first start (R271). -/
def KeyStore.reset : KeyStore :=
  { slots := [], bumps := [], prepared := [], mceCache := [], preps := [], resident := [], anchors := [], peers := [],
    imports := [], receives := [], nextSession := 1, epochs := [], persistNext := 0, persistEnd := 0, reclaimed := 0,
    vaultKey := [], tagKey := [], ctxKey := [], ctxSaves := 0, vaultWrites := 0, rootReady := false, helperA := false, helperB := false, helpA := [], helpB := [],
    maxCorrected := 0, above28 := 0, root := [], digests := [], measure := [], cdiX := [], cdiS := [],
    identity := [], chain := [], serial := 0, svn := 0, signer := 0 }

/-- The journal before the first stateful key (R168). -/
def Stateful.reset : Stateful :=
  { journal := [], owed := [], seqBase := 0, ptr := 0, writes := [], keyIdCtr := 0, keys := [], trees := [], builds := [] }

/-- A latch cell at reset: mid-range trim (log 9). -/
def RngCell.reset : RngCell := { trim := 2048, ones := 0, balanced := false, since := 0 }

/-- A DRBG before instantiation (R278). -/
def Drbg.reset : Drbg :=
  { seeded := false, last := 0, requests := 0, reseeds := 0, stopped := false, due := false, got := 0, kat := 0 }

/-- The entropy source at reset (R288). -/
def Rng.reset : Rng :=
  { stage := .off, restart := false, cells := [], drbgs := [], failures := [], drbgFault := false, mode := false,
    waitMs := 50, rct := 0, apt := 0, balance := 0, restarts := 0, restartsTotal := 0, hostBytes := 0, fresh := [],
    started := 0, stageFrom := 0, blockFrom := 0 }

/-- An MSI-X entry resets to masked (R376). -/
def MsixEntry.reset : MsixEntry := { addr := 0, data := 0, mask := true }

/-- EVC_COAL resets to COUNT 1 and TIMER_US 1 (R384, R393). -/
def Coal.reset : Coal := { count := 1, timer := 1, seen := 0, started := 0 }

/-- An event class at reset (R384). -/
def EvClass.reset : EvClass := { hostSource := 0, hostEn := false, intEn := false }

/-- An internal route at reset (R393). -/
def IntRoute.reset : IntRoute :=
  { target := 0, prio := 0, mask := false, pending := false, active := false, activeOn := 0, handler := 0 }

/-- The event controller at reset: no entry differs from its reset content (R384). -/
def EventCtl.reset : EventCtl :=
  { msix := [], fnMask := false, pba := [], coal := [], classes := [], routes := [], strayEoi := 0, routeErr := 0 }

/-- The recorder as it leaves manufacture: no record (R387, R393). -/
def Recorder.reset : Recorder :=
  { queue := [], kept := [], circ := [], total := 0, dropped := 0, overflow := 0, writes := [], repeatFrom := none, unwritten := 0,
    opSeconds := 0, opTicks := 0, persisted := 0, powerCycles := 0 }

/-- Integrity state at reset (R372). -/
def Integrity.reset : Integrity :=
  { safe := false, firstClass := 0, classes := 0, cause := 0, alarmV := 0, alarmOut := false, zeroised := false,
    transients := 0, mismatches := 0, retriesOne := 0, retriesTwo := 0, unitFaults := 0, mapSeq := 0, mapLog := [],
    mapQueue := [], mapA := true, mapB := true, mapCopyA := [], mapCopyB := [], regions := [], degraded := false, temps := [], hbmTemp := 0,
    due := [], extended := false, thermtrip := false, scrubLine := 0, scrubPasses := 0, scrubStart := 0,
    scrubMs := 0, corrected := 0, uncorrectable := 0, tagFail := 0, poison := [], storeCorrected := 0,
    storeReloads := 0, mirrorFail := [], contextLost := [], switches := [] }

/-- No image is loaded before a start (R354). -/
def ImageInfo.reset : ImageInfo :=
  { versions := [0, 0, 0, 0, 0], words := [0, 0, 0, 0, 0], digests := [0, 0, 0, 0, 0], packCode := 0, locked := 0,
    params := [], formats := [], curves := [], stores := [], loadedPacks := 0, discardedPacks := 0, packIds := [],
    firmware := [] }

/-- A bank that reads as erased (R403, reason 11). -/
def Bank.erased : Bank :=
  { seq := 0, svn := 0, minSvn := 0, signer := 0, pages := 0, sections := 0, reason := 11 }

/-- Before power: PERST_N asserted, erased flash, 16 commit tokens (R394, R404, R409). -/
def StartUp.reset : StartUp :=
  { vddGood := false, perst := true, stage := 0, errCode := 0, errDetail := 0, env := none, t0 := 0, stageFrom := 0, readyMs := 0,
    fuseRead := false, loadDone := false, burning := [], burnFrom := 0, hbmTrained := false, grat := false,
    drsSent := false, smbAddr := 0, bank := 0, fallback := false, banks := [Bank.erased, Bank.erased],
    flashA := [], flashB := [], commits := 0, tokens := 16, tokenTicks := 0, commit := none, svnFloor := 0,
    image := ImageInfo.reset }

/-- No fuse is blown (R412). -/
def LifeCycle.reset : LifeCycle :=
  { groups := List.replicate 5 .unburnt, revoked := List.replicate 3 .unburnt, signers := [none, none, none],
    pending := none, cert := none, inForce := none, rightsOpen := false, rightsClosed := false,
    burnDeferred := false, vpp := false, tdr := 0 }

/-- The responder before any request (R252). -/
def Spdm.reset : Spdm :=
  { version := false, caps := false, algs := false, vca := [], certs := [], meas := [], session := 0, path := .doe,
    sessionId := 0, th := [], master := [], toDev := { secret := [], seq := 0 }, toHost := { secret := [], seq := 0 },
    oldKey := none, ideKeys := [], locks := [], resp := [], respCode := 0 }

/-- The host interface at reset (R12). -/
def Bus.reset : Bus :=
  { latch := [], heldLow := [], data := 0, bytes := [], ur := false, posted := none, rrs := false, smbus := none,
    spdm := Spdm.reset }

/-- The sheet's units after an operation: everything zeroed (R341). -/
def SheetUnits.reset : SheetUnits :=
  { hash := [], block := [], total := 0, squeezed := 0, final := false, keyed := false, lastCount := 0, sel := none,
    drawBuf := [], secret := [], maskSeed := none, rpCtr := 0 }

/-- A core at reset (R290); it is held until its start. -/
def Core.reset : Core :=
  { x := [], y := [], gv := [], init := 0, fl := 0, pc := 0, priv := true, ie := false, exl := false, plain := true,
    recov := false, curPrio := 16, epstate := 0, epc := 0, ecause := 0, einfo := 0, vbase := 0x400, recovVec := 0,
    recovLocked := false, dfpc := 0, dfcause := 0, cycle := 0, wdog := 0, wdogFrom := 0, qmod := 0, mulq := [],
    dmem := [], scratch := [], waiting := false, halted := false, held := true, v := [], vl := 0, vcfg := false,
    ffHit := false, sat := false, qerr := false, vfaultIdx := 0, beats := [], issues := 0, loadRd := 0, loadAt := 0, pipeNext := [], cps := [],
    cpregs := [], su := SheetUnits.reset }

/-- The machine right after reset: a device as it leaves manufacture, unpowered, with no command waiting. -/
def State.reset : State :=
  { pending := [], now := 0, free := 0, datum := Datum.reset, units := [], engines := [], queues := [],
    enq0 := Queue.reset0, slices := [], ctxs := [], collectors := [], writerNext := 0, turns := [], keys := KeyStore.reset,
    stateful := Stateful.reset, rng := Rng.reset, events := EventCtl.reset, log := Recorder.reset,
    integ := Integrity.reset, start := StartUp.reset, lcs := LifeCycle.reset, bus := Bus.reset, cores := [],
    window := [], host := [], hbm := [], emram := [] }

end Sys2Proof.Machine
end

