-- ==== Sys2Proof/Machine/Ops.lean ====
section
/-! DEFINITION. The operations that several commands share: byte order, CRC-32C, units, draws, events, host memory,
the decision of a command, and entry to the safe state. -/

namespace Sys2Proof.Machine

open Sys2Proof

/-! ## Statuses (R92) -/

abbrev St.ok : Nat := 0x0000
abbrev St.malformed : Nat := 0x0101
abbrev St.hdrCheck : Nat := 0x0102
abbrev St.lengthShort : Nat := 0x0103
abbrev St.lengthOver : Nat := 0x0104
abbrev St.doorbellInvalid : Nat := 0x0105
abbrev St.opcodeUnknown : Nat := 0x0106
abbrev St.outLimit : Nat := 0x0107
abbrev St.inputRejected : Nat := 0x0201
abbrev St.keyUnknown : Nat := 0x0301
abbrev St.keyOrphaned : Nat := 0x0302
abbrev St.keyExpired : Nat := 0x0303
abbrev St.keyNotYet : Nat := 0x0304
abbrev St.usageDenied : Nat := 0x0305
abbrev St.quota : Nat := 0x0306
abbrev St.stateExhausted : Nat := 0x0307
abbrev St.busy : Nat := 0x0401
abbrev St.deadlineMissed : Nat := 0x0402
abbrev St.aborted : Nat := 0x0403
abbrev St.sliceFrozen : Nat := 0x0404
abbrev St.unitFault : Nat := 0x0501
abbrev St.integrityAlarm : Nat := 0x0502
abbrev St.entropyWait : Nat := 0x0601
abbrev St.entropyFailed : Nat := 0x0602
abbrev St.timeUntrusted : Nat := 0x0701

/-! ## Stages (R395) -/

abbrev Stage.clocks : Nat := 0x01
abbrev Stage.puf : Nat := 0x02
abbrev Stage.fuses : Nat := 0x03
abbrev Stage.boot : Nat := 0x04
abbrev Stage.verify : Nat := 0x05
abbrev Stage.hbm : Nat := 0x06
abbrev Stage.load : Nat := 0x07
abbrev Stage.measure : Nat := 0x08
abbrev Stage.selftest : Nat := 0x09
abbrev Stage.entropy : Nat := 0x0A
abbrev Stage.datum : Nat := 0x0B
abbrev Stage.ready : Nat := 0x0C
abbrev Stage.locked : Nat := 0x0E
abbrev Stage.failed : Nat := 0x0F

/-- DEV_STAGE reads READY. -/
def State.ready (s : State) : Bool := s.start.stage == Stage.ready

/-- A start is running or has ended: PERST_N is not asserted. -/
def State.started (s : State) : Bool := !s.start.perst && s.start.vddGood

/-! ## The datum's readings (R35, R37, R56) -/

/-- The datum uncertainty U, reported as the cap in UNSET. -/
def Datum.unc (d : Datum) : Nat :=
  match d.st with
  | .unset => d.cap
  | _ => max (d.v - d.lo) (d.hi - d.v)

/-- The code of the datum state (R39). -/
def DatumState.code : DatumState → Nat
  | .unset => 0
  | .trusted => 1
  | .untrusted => 2

/-- The 40-byte snapshot of DATUM_READ (R39). -/
def Datum.snapshot (d : Datum) : Bytes :=
  le 8 d.v ++ le 8 d.lo ++ le 8 d.hi ++ le 8 d.unc ++ le 4 d.st.code ++ le 4 0

/-- U of a state. -/
def State.unc (s : State) : Nat := s.datum.unc

/-- The datum is TRUSTED. -/
def State.trusted (s : State) : Bool := decide (s.datum.st = .trusted)

/-! ## Units (R16, R21, R23) -/

/-- The region of a unit number. -/
def unitRegion (u : Nat) : Nat := u / 26

/-- The region ordinal of a unit number. -/
def unitOrd (u : Nat) : Nat := u % 26

/-- The kind at a region ordinal: 0 sheet, 1 big-number engine, 2 digest pipe, 3 sealing pipe. -/
def ordKind (o : Nat) : Nat := if o < 16 then 0 else if o < 20 then 1 else if o < 24 then 2 else 3

/-- The kind of a unit. -/
def unitKind (u : Nat) : Nat := ordKind (unitOrd u)

/-- The index of a unit within its kind. -/
def unitIndex (u : Nat) : Nat :=
  match unitKind u with
  | 0 => unitOrd u
  | 1 => unitOrd u - 16
  | 2 => unitOrd u - 20
  | _ => unitOrd u - 24

/-- The 8-bit unit identifier (R21). -/
def unitId (u : Nat) : Nat := unitRegion u * 64 + unitKind u * 16 + unitIndex u

/-- The region ordinals of a kind. -/
def kindOrds : Nat → List Nat
  | 0 => List.range 16
  | 1 => [16, 17, 18, 19]
  | 2 => [20, 21, 22, 23]
  | _ => [24, 25]

/-- The unit numbers of a kind in a region. -/
def kindUnits (r k : Nat) : List Nat := (kindOrds k).map (26 * r + ·)

/-- A unit's state; unlisted units are as at reset. -/
def State.unitSt (s : State) (u : Nat) : UnitSt := s.units.getD u UnitSt.reset

/-- Changes a unit's state. -/
def State.setUnit (s : State) (u : Nat) (f : UnitSt → UnitSt) : State :=
  { s with units := s.units.put u (f (s.unitSt u)) }

/-- The region is retired (R365). -/
def State.regionRetired (s : State) (r : Nat) : Bool := s.integ.regions.contains r

/-- A unit is working: neither it nor its region is retired (R24). -/
def State.working (s : State) (u : Nat) : Bool := !(s.unitSt u).retired && !s.regionRetired (unitRegion u)

/-- Working units of a kind in a region. -/
def State.workingIn (s : State) (r k : Nat) : Nat := ((kindUnits r k).filter s.working).length

/-- The region still takes triangulated work of a kind (R19). -/
def State.meetsR19 (s : State) (r k : Nat) : Bool := decide (2 ≤ s.workingIn r k)

/-- Some region takes triangulated work of a kind (R366). -/
def State.anyR19 (s : State) (k : Nat) : Bool := (List.range 4).any (s.meetsR19 · k)

/-- Working sheets of the device (R24). -/
def State.sheetsWorking (s : State) : Nat := ((List.range 4).map (s.workingIn · 0)).sum

/-- A lane of a stream pipe. -/
def UnitSt.lane (x : UnitSt) (l : Nat) : Lane := x.lanes.getD l Lane.reset

/-- Changes a lane of a unit. -/
def State.setLane (s : State) (u l : Nat) (f : Lane → Lane) : State :=
  s.setUnit u fun x => { x with lanes := x.lanes.put l (f (x.lane l)) }

/-- An engine's state. -/
def State.engine (s : State) (e : Nat) : EngineSt := s.engines.getD e EngineSt.reset

/-- A core's state. -/
def State.core (s : State) (c : Nat) : Core := s.cores.getD c Core.reset

/-- Writes a core's state. -/
def State.setCore (s : State) (c : Nat) (k : Core) : State := { s with cores := s.cores.putD c k Core.reset }

/-! ## Draws (R278, R286) -/

/-- A draw of `n` octets from DRBG `d`: the octets are free values; the instance counts one generate request. -/
def State.drawFrom (s : State) (d n : Nat) : Bytes × State :=
  (drawBytes s.free n,
   { s with free := s.free + 1, rng := { s.rng with drbgs := s.rng.drbgs.modify d fun x => { x with requests := x.requests + 1 } } })

/-! ## Host memory (R85, R95, R377) -/

/-- The key of a host byte: address space 0 without PASID, 1 + PASID otherwise. -/
def hostKey (space addr : Nat) : Nat := space * 2 ^ 64 + addr % 2 ^ 64

/-- Writes octets into host memory. -/
def hostWrite (space : Nat) : Nat → Bytes → Tab Byte → Tab Byte
  | _, [], m => m
  | a, b :: t, m => hostWrite space (a + 1) t (m.putD (hostKey space a) b 0)

/-- Reads octets of host memory as the device has left them. -/
def hostRead (m : Tab Byte) (space addr n : Nat) : Bytes :=
  (List.range n).map fun i => m.getD (hostKey space (addr + i)) 0

/-! ## Host vectors (R376, R377) -/

/-- The slice whose MSI-X block holds a vector. -/
def State.vectorSlice (s : State) (v : Nat) : Option Slice :=
  (s.slices.vals).find? fun x => decide (x.msixBase ≤ v ∧ v < x.msixBase + x.msixCount)

/-- The address space of a vector's message: the PASID of its slice, or none (R376). -/
def State.vectorSpace (s : State) (v : Nat) : Nat :=
  match s.vectorSlice v with
  | some x => x.pasid + 1
  | none => 0

/-- An entry of the MSI-X table. -/
def State.msixEntry (s : State) (v : Nat) : MsixEntry := s.events.msix.getD v MsixEntry.reset

/-- Sends the message of a vector. -/
def State.sendMsg (s : State) (v : Nat) : State :=
  let e := s.msixEntry v
  { s with host := hostWrite (s.vectorSpace v) e.addr (le 4 e.data) s.host }

/-- Neither the entry Mask nor Function Mask is set. -/
def State.unmasked (s : State) (v : Nat) : Bool := !(s.msixEntry v).mask && !s.events.fnMask

/-- The coalescing state of a vector. -/
def State.coalOf (s : State) (v : Nat) : Coal := s.events.coal.getD v Coal.reset

/-- Resets a vector's count and timer. -/
def State.coalClear (s : State) (v : Nat) : State :=
  { s with events := { s.events with coal := s.events.coal.putD v { s.coalOf v with seen := 0, started := 0 } Coal.reset } }

/-- A firing: the count and timer reset, and the message is sent or the PBA bit set (R377, rules 3 and 4). -/
def State.fire (s : State) (v : Nat) : State :=
  let s := s.coalClear v
  if s.unmasked v then s.sendMsg v
  else { s with events := { s.events with pba := s.events.pba.put v true } }

/-- Posts one event to a host source (R377, rules 1 and 2). -/
def State.postVector (s : State) (v : Nat) (notify : Bool) : State :=
  let c := s.coalOf v
  let c' := { c with seen := c.seen + 1, started := if c.seen = 0 then s.now else c.started }
  let s' := { s with events := { s.events with coal := s.events.coal.putD v c' Coal.reset } }
  if notify || decide (c.count ≤ c'.seen) then s'.fire v else s'

/-- The last mask over a pending vector is cleared: one message (R377, rule 5). -/
def State.releasePending (s : State) (v : Nat) : State :=
  if s.unmasked v && s.events.pba.getD v false then
    let s := s.coalClear v
    let s := { s with events := { s.events with pba := s.events.pba.drop v } }
    if v < 0x700 then s.sendMsg v else s
  else s

/-! ## Events (R373, R375, R385, R392) -/

abbrev Ev.devReady : Nat := 0x01
abbrev Ev.dtmTrusted : Nat := 0x10
abbrev Ev.dtmUntrusted : Nat := 0x11
abbrev Ev.dtmConflict : Nat := 0x12
abbrev Ev.dtmTokenRejected : Nat := 0x13
abbrev Ev.rngSeeded : Nat := 0x20
abbrev Ev.rngTestFail : Nat := 0x21
abbrev Ev.rngRestarted : Nat := 0x22
abbrev Ev.rngHalted : Nat := 0x23
abbrev Ev.rngDrbgFault : Nat := 0x24
abbrev Ev.intTransient : Nat := 0x30
abbrev Ev.intRetired : Nat := 0x31
abbrev Ev.intRegionRetired : Nat := 0x32
abbrev Ev.intDegraded : Nat := 0x33
abbrev Ev.intAlarm : Nat := 0x34
abbrev Ev.intHbmLine : Nat := 0x35
abbrev Ev.intStoreReload : Nat := 0x36
abbrev Ev.snsVoltageWarn : Nat := 0x40
abbrev Ev.snsTempWarn : Nat := 0x41
abbrev Ev.snsThermtrip : Nat := 0x42
abbrev Ev.kstPufRepair : Nat := 0x50
abbrev Ev.kstPufDrift : Nat := 0x51
abbrev Ev.kstJournalCrc : Nat := 0x52
abbrev Ev.cfgCurveDiscarded : Nat := 0x60
abbrev Ev.cfgPackDiscarded : Nat := 0x61
abbrev Ev.cfgBankInvalid : Nat := 0x62
abbrev Ev.cfgCommitWarn : Nat := 0x63
abbrev Ev.lcsRequest : Nat := 0x70
abbrev Ev.lcsTransition : Nat := 0x71
abbrev Ev.lcsDebugCert : Nat := 0x72
abbrev Ev.queDoorbellInvalid : Nat := 0x80
abbrev Ev.queMalformed : Nat := 0x81
abbrev Ev.slcState : Nat := 0x82
abbrev Ev.slcIdeDrop : Nat := 0x83
abbrev Ev.strContextLost : Nat := 0x84
abbrev Ev.logOverflow : Nat := 0x90

/-- The codes of the event code table (R392). -/
def evCodes : List Nat :=
  [0x01, 0x10, 0x11, 0x12, 0x13, 0x20, 0x21, 0x22, 0x23, 0x24, 0x30, 0x31, 0x32, 0x33, 0x34, 0x35, 0x36, 0x40, 0x41,
   0x42, 0x50, 0x51, 0x52, 0x60, 0x61, 0x62, 0x63, 0x70, 0x71, 0x72, 0x80, 0x81, 0x82, 0x83, 0x84, 0x90]

/-- The severity of a code: 0 INFO, 1 NOTICE, 2 WARNING, 3 ERROR, 4 ALARM (R385, R392). -/
def evSeverity (c : Nat) : Nat :=
  if [0x01, 0x20].contains c then 0
  else if [0x10, 0x22, 0x50, 0x70, 0x71, 0x72, 0x80, 0x81, 0x82].contains c then 1
  else if [0x21, 0x23, 0x24, 0x31, 0x32, 0x33, 0x35, 0x52, 0x62, 0x84].contains c then 3
  else if [0x34, 0x42].contains c then 4
  else 2

abbrev Origin.atlas : Nat := 0
/-- The origin of region `r` (R385). -/
def Origin.region (r : Nat) : Nat := 0x10 + r
/-- The origin of a unit. -/
def Origin.unit (u : Nat) : Nat := 0x100 + unitId u
/-- The origin of a slice. -/
def Origin.slice (x : Nat) : Nat := 0x800 + x - 1
/-- The origin of a queue. -/
def Origin.queue (q : Nat) : Nat := 0x1000 + q

/-- An event class. -/
def State.evClass (s : State) (c : Nat) : EvClass := s.events.classes.getD c EvClass.reset

/-- An internal route. -/
def State.route (s : State) (c : Nat) : IntRoute := s.events.routes.getD c IntRoute.reset

/-- Changes an internal route. -/
def State.setRoute (s : State) (c : Nat) (f : IntRoute → IntRoute) : State :=
  { s with events := { s.events with routes := s.events.routes.putD c (f (s.route c)) IntRoute.reset } }

/-- Posts a class event to its sources (R375); host sources only from READY on (R384). -/
def State.postClass (s : State) (c : Nat) : State :=
  let k := s.evClass c
  let s := if k.intEn then s.setRoute c fun r => { r with pending := true } else s
  if k.hostEn && s.ready then s.postVector k.hostSource false else s

/-- Raises an event: it is posted, and queued for the recorder in order of detection (R385). -/
def State.raise (s : State) (code origin : Nat) (p0 : Nat := 0) (p1 : Nat := 0) (p2 : Nat := 0) (p3 : Nat := 0) :
    State :=
  let s := s.postClass code
  let r : EvRec := { code, origin, severity := evSeverity code, opSeconds := s.log.opSeconds,
                     cycles := s.log.powerCycles, repeats := 0, p0 := p0 % 2 ^ 32, p1 := p1 % 2 ^ 32,
                     p2 := p2 % 2 ^ 32, p3 := p3 % 2 ^ 32 }
  { s with log := { s.log with queue := s.log.queue ++ [r] } }

/-! ## Contexts and results -/

/-- A result that carries only a status. -/
def Result.bare (status : Nat) : Result :=
  { status, out := [], entries := [], deposit := none, depositPolicy := [], depositPub := [], loops := [],
    destroySource := false }

/-- Changes a context; a number not in use stays free. -/
def State.setCtx (s : State) (i : Nat) (f : Ctx → Ctx) : State := { s with ctxs := s.ctxs.modify i f }

/-- The operation contexts of consumed packets: without the batches of survey streams that still arrive. -/
def State.packets (s : State) : List Ctx := s.ctxs.vals.filter fun c => !c.batch

/-- Changes a queue. -/
def State.setQueue (s : State) (q : Nat) (f : Queue → Queue) : State := { s with queues := s.queues.modify q f }

/-- Changes a slice. -/
def State.setSlice (s : State) (n : Nat) (f : Slice → Slice) : State := { s with slices := s.slices.modify n f }

/-- A queue's stream entry. -/
def State.stream (s : State) (q id : Nat) : Option Stream := (s.queues.find q).bind fun x => x.streams.find id

/-- Changes a stream entry. -/
def State.setStream (s : State) (q id : Nat) (f : Stream → Stream) : State :=
  s.setQueue q fun x => { x with streams := x.streams.modify id f }

/-- Operand memory that a stream entry holds, in KiB: its context and its scratch pages (R27, R68, R99). -/
def Stream.mem (e : Stream) : Nat := if e.st = .aborted then 0 else 1 + 64 * e.pages

/-- Gives operand memory back to a slice. -/
def State.freeMem (s : State) (n k : Nat) : State := s.setSlice n fun y => { y with memUsed := y.memUsed - k }

/-- Gives back what the entry of a stream holds. -/
def State.freeStream (s : State) (q id : Nat) : State :=
  match s.queues.find q with
  | none => s
  | some x => match x.streams.find id with
    | none => s
    | some e => s.freeMem x.slice e.mem

/-- Returns a stream entry to idle; its context and pages are released. -/
def State.dropStream (s : State) (q id : Nat) : State :=
  (s.freeStream q id).setQueue q fun x => { x with streams := x.streams.drop id }

/-- Aborts a stream entry: its context is cleared and released (R68, R69). -/
def State.abortStream (s : State) (q id : Nat) : State :=
  (s.freeStream q id).setStream q id fun e => { e with st := .aborted, data := [], pages := 0 }

/-- FLAGS bits (R62). -/
def Ctx.cont (c : Ctx) : Bool := bitOf c.flags 0
def Ctx.final (c : Ctx) : Bool := bitOf c.flags 1
def Ctx.fence (c : Ctx) : Bool := bitOf c.flags 2
def Ctx.notify (c : Ctx) : Bool := bitOf c.flags 3
def Ctx.timeBound (c : Ctx) : Bool := bitOf c.flags 4
def Ctx.keep (c : Ctx) : Bool := bitOf c.flags 5

/-- The context has been decided: its completion is on its way. -/
def Phase.decided : Phase → Bool
  | .finished | .collected | .writing => true
  | _ => false

/-- A slab of a launched command does not run: it was discarded with an earlier one, or its rerun is due (R224). -/
def Ctx.slabIdle (d : Ctx) : Bool := d.parts.any fun p => p.slab && (decide (p.phase = .waiting) || decide (p.phase = .withheld))

/-- A later packet of a stream that an error ends, or its survey batch: undecided and not launched, it completes ST_ABORTED
at once, and so it does where its slab has been discarded; launched, it runs to its end and completes ST_ABORTED (R69, R192,
R224). -/
def afterAbort (now v : Nat) (c d : Ctx) : Ctx :=
  if d.q == c.q && d.stream == c.stream && (decide (c.seq < d.seq) || d.batch) && !d.phase.decided then
    let ended := { d with phase := .finished, finishedAt := now, progress := now, result := some (Result.bare St.aborted) }
    if d.phase = .waiting then { ended with parts := [], launchV := v, launchTick := now }
    else if d.slabIdle then ended
    else { d with drop := true }
  else d

/-- Batches of survey streams that are over go (R190, R192). -/
def State.dropBatches (s : State) (f : Ctx → Bool) : State :=
  { s with ctxs := Tab.keep (fun _ d => !(d.batch && f d)) s.ctxs }

/-- An error completion of a packet of an open stream aborts the stream; a FINAL packet ends it (R69). A stream that
has begun since under the same STREAM_ID is not concerned. -/
def State.streamError (s : State) (c : Ctx) : State :=
  if c.stream = 0 then s
  else match s.stream c.q c.stream with
    | none => s
    | some e =>
      if c.seq < e.first then s
      else
        let s := { s with ctxs := s.ctxs.mapVals fun _ d => afterAbort s.now s.datum.v c d }
        let s := s.dropBatches fun d => d.q == c.q && d.stream == c.stream && d.phase.decided
        if e.finalCtx.isSome then s
        else if c.final then s.dropStream c.q c.stream
        else s.abortStream c.q c.stream

/-- Frees a slot that a command reserved and does not fill (R143, R144). -/
def State.unreserve (s : State) (h : Nat) : State :=
  let slots := s.keys.slots.modify (h / 2 ^ 24) fun x => if x.st = .reserved then { x with st := .free } else x
  { s with keys := { s.keys with slots } }

/-- Gives a context its outcome; a context that is already decided keeps the outcome it has. UNIT is that of its
parts (R450). A command whose queue or slice is being shut down ends ST_ABORTED (R107, R109). The outcome of a survey batch
whose stream still arrives waits for the packet that carries its chain (R190, R191; log 114). -/
def State.conclude (s : State) (i : Nat) (r : Result) : State :=
  match s.ctxs.find i with
  | none => s
  | some c =>
    if c.phase.decided then s
    else if c.batch then
      if c.drop then { s with ctxs := s.ctxs.drop i } else s.setCtx i fun c => { c with phase := .finished, result := some r }
    else
      let s := match c.reserved with
        | some h => s.unreserve h
        | none => s
      let r := if c.drop then Result.bare St.aborted else r
      let s := s.setCtx i fun c => { c with phase := .finished, result := some r, finishedAt := s.now, progress := s.now,
                                            reserved := none }
      let s := if r.status = St.ok then s else s.streamError c
      if r.status = St.malformed || r.status = St.hdrCheck then
        (s.setQueue c.q fun x => { x with malformed := satAdd 16 x.malformed 1 }).raise Ev.queMalformed (Origin.queue c.q)
          c.slice r.status
      else s

/-- Completes a command without launch: UNIT is 0xFFFF and LAUNCH is V at this boundary (R82, R450). -/
def State.refuse (s : State) (i status : Nat) : State :=
  match s.ctxs.find i with
  | none => s
  | some c =>
    if c.phase.decided then s
    else (s.setCtx i fun c => { c with parts := [], launchV := s.datum.v, launchTick := s.now }).conclude i
      (Result.bare status)

/-- Completes a launched command with a status and no output. -/
def State.failWith (s : State) (i status : Nat) : State := s.conclude i (Result.bare status)

/-- Completes a command that takes no unit with its output; a longer output than OUT_LIMIT allows completes
ST_OUT_LIMIT (R81). -/
def State.answer (s : State) (i : Nat) (out : Bytes) : State :=
  match s.ctxs.find i with
  | none => s
  | some c =>
    let s := s.setCtx i fun c => { c with parts := [], launchV := s.datum.v, launchTick := s.now }
    if c.outLimit < out.length then s.failWith i St.outLimit
    else s.conclude i { Result.bare St.ok with out := out }

/-! ## Commands that one of the cores executes -/

/-- The queue has held entries: it launches nothing new (R90). -/
def State.heldUp (s : State) (q : Nat) : Bool :=
  match s.queues.find q with
  | some x => !x.held.isEmpty
  | none => false

/-- FENCE (R65): an earlier packet of the queue has not had its completion written, or an earlier fenced packet has
not launched. -/
def State.fenced (s : State) (c : Ctx) : Bool :=
  s.packets.any fun d => d.q == c.q && decide (d.seq < c.seq) &&
    (c.fence || (d.fence && decide (d.phase = .waiting)))

/-- Something other than a unit, a residency or entropy holds the command back. -/
def State.blocked (s : State) (c : Ctx) : Bool := s.fenced c || s.heldUp c.q

/-- Something that R38 or R259 puts at this boundary has not happened yet. -/
def State.unsettled (s : State) : Bool :=
  s.datum.widenDue || s.datum.tokens.any (fun t => decide (t.accepted < s.now)) ||
  s.datum.refine.any (fun r => decide (r.accepted < s.now)) || s.keys.bumps.any (fun b => decide (b.2 < s.now))

/-- The device runs commands: READY and not in the safe state. -/
def State.serving (s : State) : Bool := s.ready && !s.integ.safe

/-- A waiting command of an opcode that may execute at this boundary. -/
def State.ripe (s : State) (i opcode : Nat) : Option Ctx :=
  match s.ctxs.find i with
  | none => none
  | some c =>
    if s.serving && !s.unsettled && c.opcode == opcode && decide (c.phase = .waiting) && decide (c.accepted < s.now) &&
       !s.blocked c then some c else none

/-- DATUM_READ, RANDOM_STATUS and ANCHOR_DROP run no datum test (R446), nor do KEY_INFO and KEY_DESTROY (R262). -/
def noDatumTest (opcode : Nat) : Bool := [0x6003, 0x5002, 0x1A04, 0x4003, 0x4004].contains opcode

/-- The deadline test (R56, R58): the status of a command that may not launch. -/
def State.deadlineTest (s : State) (c : Ctx) : Option Nat :=
  if !c.timeBound || noDatumTest c.opcode then none
  else if !s.trusted then some St.timeUntrusted
  else if s.datum.v + s.unc < c.deadline then none
  else some St.deadlineMissed

/-- Runs a waiting command on the chief or a region core, after its deadline test; a command that may not execute
now stays as it is. -/
def State.runCore (s : State) (i opcode : Nat) (k : Ctx → State → State) : State :=
  match s.ripe i opcode with
  | none => s
  | some c =>
    match s.deadlineTest c with
    | some st => s.refuse i st
    | none => k c s

/-- A command of the chief core that has a signature verified on a sheet (R408, R416, R422). -/
def chiefVerifies (opcode : Nat) : Bool := opcode == 0x0141 || opcode == 0x0150 || opcode == 0x0151

/-- Runs a waiting command of the chief core that has a signature verified on a sheet: `early` gives the status of the checks
before the signature; the command goes on with `k` once the sheet and its partner have passed. LAUNCH stays the boundary at
which its execution began (R97). -/
def State.runVerified (s : State) (i opcode : Nat) (early : Ctx → State → Option Nat) (k : Ctx → State → State) : State :=
  match s.ripe i opcode with
  | none => s
  | some c =>
    if c.parts.isEmpty then
      match s.deadlineTest c with
      | some st => s.refuse i st
      | none => match early c s with | some st => s.refuse i st | none => s
    else (k c s).setCtx i fun d => { d with launchV := c.launchV, launchTick := c.launchTick, parts := c.parts }

/-! ## Random service (R277, R278, R281, R285) -/

/-- Random service has halted. -/
def State.rngHalted (s : State) : Bool := decide (s.rng.stage = .halted)

/-- Every one of the 13 instances has been instantiated (R281). -/
def State.everySeeded (s : State) : Bool :=
  (List.range 13).all fun d => match s.rng.drbgs.find d with | some x => x.seeded | none => false

/-- An instance past its reseed limit (R278): HATCH instances have none. -/
def Drbg.past (x : Drbg) (d now : Nat) : Bool :=
  decide (d < 9) && (x.stopped || decide (x.last + 1000000 ≤ now) || decide (2 ^ 24 ≤ x.requests))

/-- Instance `d` serves draws: 0 to 3 region INT, 4 atlas INT, 5 to 8 HOST, 9 to 12 HATCH. -/
def State.serves (s : State) (d : Nat) : Bool :=
  s.everySeeded && !(s.rngHalted && decide (d < 9)) &&
  match s.rng.drbgs.find d with
  | some x => x.seeded && !x.past d s.now
  | none => false

/-- What a draw from `d` meets (R152, R282, R285): ready, waiting or failed. -/
inductive DrawState where
  | serves | waits | failed
  deriving DecidableEq, Repr

def State.drawState (s : State) (d : Nat) : DrawState :=
  if s.rngHalted then .failed else if s.serves d then .serves else .waits

/-- Marks the first boundary at which a command missed randomness (R282). -/
def State.awaitDraw (s : State) (i : Nat) : State :=
  s.setCtx i fun c => { c with waitFrom := some (c.waitFrom.getD s.now) }

/-- The kind of a RANDOM_BYTES (R286): 0 DRBG, 1 DRBG_PR, 2 FRESH. -/
def randomKind (b : Bytes) : Nat := uAt b 4 1

/-- The conditioned bits of a DRBG_PR or FRESH request are in hand. -/
def State.inHand (s : State) (i : Nat) : Bool := s.rng.fresh.any fun p => p.1 == i && p.2 == 0

/-- Commands that one of the cores executes with a draw from the atlas INT instance (R40, R113, R268, R270). -/
def drawsAtlas (opcode : Nat) : Bool := [0x0106, 0x0107, 0x0109, 0x6001].contains opcode

/-- Random service gives what a command waits for: fresh output, its HOST or INT instance, or for a command not yet placed
the INT instance of any region. -/
def State.drawReady (s : State) (i : Nat) (c : Ctx) : Bool :=
  if c.opcode = 0x5001 then
    (if randomKind c.payload = 0 then s.serves (5 + c.region) else s.everySeeded && s.inHand i)
  else if drawsAtlas c.opcode then s.serves 4
  else if c.phase = .waiting then (List.range 4).any s.serves
  else s.serves c.region

/-- A command that waits for a draw. -/
def Ctx.awaits (c : Ctx) : Bool := c.waitFrom.isSome && !c.phase.decided

/-- A command whose draw random service gives again waits for it no longer (R282). -/
def State.clearWaits (s : State) : State :=
  { s with ctxs := s.ctxs.mapVals fun i c => if c.awaits && s.drawReady i c then { c with waitFrom := none } else c }

/-! ## SMBus answers (R406) -/

/-- Answers an SMBus command: a status, a zero u16 and the output. -/
def State.smbAnswer (s : State) (status : Nat) (out : Bytes := []) : State :=
  { s with bus := { s.bus with smbus := some (le 2 status ++ le 2 0 ++ out) } }

/-- The message of FIPS 204 pure mode: 0, the context's length, the context, the message (R41, R132). -/
def pureMsg (ctx m : Bytes) : Bytes := 0#8 :: BitVec.ofNat 8 ctx.length :: (ctx ++ m)

/-- An ML-DSA signature in pure mode verifies. -/
def mldsaOk (param : Nat) (pk ctx m sig : Bytes) : Bool :=
  Config.verdict .mldsaVerify param [pk, pureMsg ctx m, sig]

/-! ## Control stores (R342) -/

/-- An entry that is not loaded (DESIGN CHOICE, log 62). -/
def noEntry : Nat := 0xFFFF

/-- Entry `i` of the stores of kind `k` is loaded. -/
def ImageInfo.hasEntry (g : ImageInfo) (k i : Nat) : Bool :=
  bitOf g.locked k && uAt (g.stores.getD k []) (2 * i) 2 != noEntry

/-! ## Key material at rest -/

/-- The key action of a TAMPER alarm (R369). -/
def State.zeroise (s : State) : State :=
  { s with
    keys := { s.keys with
      resident := [], prepared := [], mceCache := [], preps := [], vaultKey := [], tagKey := [], ctxKey := [], cdiX := [], cdiS := [], identity := [] }
    rng := { s.rng with drbgs := [] }
    integ := { s.integ with zeroised := true } }

/-! ## The safe state (R370, R371) -/

/-- The core of a sheet unit. -/
def sheetCore (u : Nat) : Nat := 5 + 16 * unitRegion u + unitOrd u

/-- What the end of a sheet operation clears, and what an abort clears: secrets, vectors, the elements above 0 of each guard,
the coprocessor queues (R341). Configuration registers, the operation context and scratch pages stay. -/
def Core.endClear (k : Core) : Core :=
  { k with
    v := [], vl := 0, beats := [], pipeNext := []
    gv := k.gv.mapVals fun _ b => if b.getLsbD 0 then BitVec.allOnes 256 else 0
    cps := k.cps.mapVals fun _ c => { c with queue := [] }
    su := { SheetUnits.reset with lastCount := k.su.lastCount } }

/-- The same for the sheet of a unit; other units have no core. -/
def State.clearSheet (s : State) (u : Nat) : State :=
  if unitKind u = 0 then { s with cores := s.cores.modify (sheetCore u) Core.endClear } else s

/-- Aborts every unit, lane and coprocessor with its clearing (R218, R242, R341). -/
def State.abortUnits (s : State) : State :=
  { s with
    units := s.units.mapVals fun _ x => { x with job := .idle, lanes := [], scrub := true }
    engines := s.engines.mapVals fun _ e => { EngineSt.reset with doneTick := e.doneTick, ops := e.ops }
    cores := s.cores.mapVals fun i k => if i < 5 then k else k.endClear
    keys := { s.keys with preps := [] }
    stateful := { s.stateful with trees := s.stateful.trees.filter fun t => t.left == 0, builds := [] } }

/-- An undecided or unreleased command becomes an alarm completion; a chain already begun stays. -/
def alarmCtx (now v : Nat) (c : Ctx) : Ctx :=
  if decide (c.phase = .writing) then c
  else { c with phase := .finished, parts := [], launchV := v, launchTick := now, finishedAt := now,
                result := some (Result.bare St.integrityAlarm), reserved := none, shares := [], waitFrom := none }

/-- Held entries in the safe state: results that the writer has not begun become alarm completions. `open` says that
the entry before it left its chain begun. -/
def alarmHeld (v : Nat) : Bool → List Held → List Held
  | _, [] => []
  | begun, h :: t =>
    if begun then h :: alarmHeld v (!h.last) t
    else if h.ctx.isNone then h :: alarmHeld v false t
    else if h.last then
      { h with status := St.integrityAlarm, unit := 0xFFFF, launch := v, cont := false, retries := 0, hatched := false,
               out := [], last := true } :: alarmHeld v false t
    else alarmHeld v false t

/-- A queue in the safe state. -/
def alarmQueue (v : Nat) (q : Queue) : Queue :=
  { q with held := alarmHeld v q.chainOpen q.held, streams := [] }

/-- Raises an alarm of a class with its cause code. The first alarm is latched; a TAMPER alarm zeroises whatever
class is in force (R369, R370, R372, R447); before READY the start fails with code 7 (R397). -/
def State.alarm (s : State) (cls cause : Nat) : State :=
  let first := !s.integ.safe
  let s := s.raise Ev.intAlarm Origin.atlas cls cause (s.datum.v % 2 ^ 32) (s.datum.v / 2 ^ 32)
  let s := { s with integ := { s.integ with
    safe := true
    alarmOut := true
    classes := s.integ.classes ||| 2 ^ (cls - 1)
    firstClass := if first then cls else s.integ.firstClass
    cause := if first then cause else s.integ.cause
    alarmV := if first then (if s.trusted then s.datum.v else 0) else s.integ.alarmV } }
  let s := if cls = 1 then s.zeroise else s
  let s :=
    if first then
      let s := s.abortUnits
      { s with
        ctxs := (Tab.keep (fun _ c => !c.batch) s.ctxs).mapVals fun _ c => alarmCtx s.now s.datum.v c
        collectors := []
        queues := s.queues.mapVals fun _ q => alarmQueue s.datum.v q
        log := { s.log with repeatFrom := none, unwritten := 0 }
        rng := { s.rng with fresh := [] }
        keys := { s.keys with ctxKey := [] }
        start := { s.start with commit := none } }
    else s
  if s.started && !s.ready && decide (s.start.stage ≠ Stage.locked) && decide (s.start.stage ≠ Stage.failed) then
    { s with start := { s.start with stage := Stage.failed, errCode := 7, errDetail := cls, grat := false } }
  else s

/-! ## Region-core faults (R365) -/

/-- A region core shows a fault: its region is retired at the next boundary. -/
def State.regionFault (s : State) (r reason : Nat) : State :=
  if s.regionRetired r ∨ (s.integ.due.find r).isSome then s
  else { s with integ := { s.integ with due := s.integ.due.put r (reason, s.now) } }

end Sys2Proof.Machine
end

