-- ==== Sys2Proof/Machine/Cert.lean ====
section
/-! DEFINITION. Identity certificate chains: the DER of their three X.509 certificates, the composite extension, and what
proves an attested Maelarn device (R250, R251). -/

namespace Sys2Proof.Machine

open Sys2Proof

/-! ## DER -/

/-- The length octets at the start of a string: the length, in its shortest form, and what follows. -/
def derLength (b : Bytes) : Option (Nat × Bytes) :=
  match b with
  | [] => none
  | x :: t =>
    let n := x.toNat - 128
    if x.toNat < 128 then some (x.toNat, t)
    else if n = 0 ∨ 3 < n ∨ t.length < n then none
    else
      let v := beNat (t.take n)
      if v < 128 ∨ v < 256 ^ (n - 1) then none else some (v, t.drop n)

/-- The element at the start of a string: its contents, its own octets and what follows; none where its tag is another. -/
structure Der where
  body : Bytes
  whole : Bytes
  rest : Bytes
  deriving DecidableEq, Repr

def derRead (tag : Nat) (b : Bytes) : Option Der :=
  match b with
  | [] => none
  | x :: t =>
    if x.toNat ≠ tag then none
    else match derLength t with
      | none => none
      | some (n, r) =>
        if r.length < n then none
        else some { body := r.take n, whole := b.take (b.length - r.length + n), rest := r.drop n }

/-- An element that may be absent is passed over. -/
def derSkip (tag : Nat) (b : Bytes) : Bytes := match derRead tag b with | some x => x.rest | none => b

/-- An INTEGER that is not negative, in its shortest form. -/
def derNat (b : Bytes) : Option (Nat × Bytes) :=
  match derRead 2 b with
  | none => none
  | some x =>
    match x.body with
    | [] => none
    | y :: t =>
      let long := decide (y = 0) && (match t with | z :: _ => decide (z.toNat < 128) | [] => false)
      if 128 ≤ y.toNat || long then none else some (beNat x.body, x.rest)

/-- The elements of a SEQUENCE of SEQUENCEs; `fuel` bounds their number. -/
def derSeqs : Nat → Bytes → Option (List Bytes)
  | 0, b => if b.isEmpty then some [] else none
  | f + 1, b =>
    if b.isEmpty then some []
    else match derRead 0x30 b with
      | none => none
      | some x => (derSeqs f x.rest).map (x.body :: ·)

/-- Octets written as numbers. -/
def octets (l : List Nat) : Bytes := l.map (BitVec.ofNat 8)

/-! ## A certificate (R250) -/

/-- The algorithm ecdsa-with-SHA384. -/
def algEcdsa384 : Bytes := octets [0x30, 0x0A, 0x06, 0x08, 0x2A, 0x86, 0x48, 0xCE, 0x3D, 0x04, 0x03, 0x03]

/-- A P-384 SubjectPublicKeyInfo before its point. -/
def spkiHead : Bytes :=
  octets [0x30, 0x76, 0x30, 0x10, 0x06, 0x07, 0x2A, 0x86, 0x48, 0xCE, 0x3D, 0x02, 0x01, 0x06, 0x05, 0x2B, 0x81, 0x04, 0x00, 0x22,
          0x03, 0x62, 0x00]

/-- The object identifiers of basicConstraints and of the composite extension: 2.25 and the UUID of R250. -/
def oidBasic : Bytes := octets [0x55, 0x1D, 0x13]
def oidComposite : Bytes :=
  octets [0x69, 0x81, 0xB4, 0xBE, 0xCE, 0x87, 0xAF, 0xB4, 0x92, 0xB8, 0x91, 0xB6, 0xF8, 0xCB, 0xB3, 0xA4, 0xE4, 0xB9, 0xFE, 0x30]

/-- An extension: its identifier, whether it is critical, its value. -/
structure CertExt where
  oid : Bytes
  critical : Bool
  value : Bytes
  deriving DecidableEq, Repr

/-- The fields of an Extension. -/
def certExtOf (b : Bytes) : Option CertExt :=
  match derRead 6 b with
  | none => none
  | some o =>
    let crit := match derRead 1 o.rest with | some x => x.body == [0xFF#8] | none => false
    match derRead 4 (derSkip 1 o.rest) with
    | some v => if v.rest.isEmpty then some { oid := o.body, critical := crit, value := v.body } else none
    | none => none

/-- What the device reads of a certificate. -/
structure Cert where
  tbs : Bytes               -- the octets that the ECDSA signature covers
  spki : Bytes              -- SubjectPublicKeyInfo
  ca : Bool
  ext : Bytes               -- the composite extension
  sig : Bytes               -- r and s, 48 octets each
  deriving DecidableEq, Repr

/-- The point of a certificate's P-384 key. -/
def Cert.point (c : Cert) : Bytes := c.spki.drop 23

/-- Both subject keys: ML-DSA-87, then P-384. -/
def Cert.keys (c : Cert) : Bytes := bytesAt c.ext 0x10 2592 ++ c.point

/-- basicConstraints says CA; without the extension or its flag it does not (RFC 5280). -/
def caOf (l : List CertExt) : Bool :=
  match l.find? fun e => e.oid == oidBasic with
  | none => false
  | some e => match derRead 0x30 e.value with
    | some x => (match derRead 1 x.body with | some y => y.body == [0xFF#8] | none => false)
    | none => false

/-- The composite extension is there, not critical, and has its legal form. -/
def compositeExt (l : List CertExt) : Option Bytes :=
  match l.find? fun e => e.oid == oidComposite with
  | some e =>
    if !e.critical && e.value.length == 7235 && uAt e.value 0 2 == 1 && zeroAt e.value 4 4 then some e.value else none
  | none => none

/-- The ECDSA-Sig-Value of a signature's bits, as 96 octets. -/
def sigOfBits (b : Bytes) : Option Bytes :=
  match b with
  | [] => none
  | u :: t =>
    if u ≠ 0 then none
    else match derRead 0x30 t with
      | none => none
      | some x => match derNat x.body with
        | none => none
        | some (r, rest) => match derNat rest with
          | none => none
          | some (v, left) =>
            if x.rest.isEmpty && left.isEmpty && decide (r < 2 ^ 384) && decide (v < 2 ^ 384) then some (be 48 r ++ be 48 v)
            else none

/-- The extensions of a TBSCertificate from behind its SubjectPublicKeyInfo. -/
def certExts (b : Bytes) : Option (List CertExt) :=
  match derRead 0xA3 (derSkip 0x82 (derSkip 0x81 b)) with
  | none => none
  | some w => match derRead 0x30 w.body with
    | none => none
    | some x =>
      if !w.rest.isEmpty || !x.rest.isEmpty then none
      else (derSeqs 64 x.body).bind fun l => l.mapM certExtOf

/-- The fields of a TBSCertificate of version 3: SubjectPublicKeyInfo and extensions. -/
def tbsOf (b : Bytes) : Option (Bytes × List CertExt) :=
  match derRead 0xA0 b with
  | none => none
  | some v => match derRead 2 v.rest with
    | none => none
    | some n => match derRead 0x30 n.rest with
      | none => none
      | some a => match derRead 0x30 a.rest with
        | none => none
        | some iss => match derRead 0x30 iss.rest with
          | none => none
          | some val => match derRead 0x30 val.rest with
            | none => none
            | some sub => match derRead 0x30 sub.rest with
              | none => none
              | some k =>
                if v.body == octets [2, 1, 2] && a.whole == algEcdsa384 && k.whole.length == 120 && k.whole.take 23 == spkiHead &&
                   curveP384.pointOk (k.whole.drop 23) then
                  (certExts k.rest).map fun l => (k.whole, l)
                else none

/-- The certificate at the start of a string, and what follows. -/
def certRead (b : Bytes) : Option (Cert × Bytes) :=
  match derRead 0x30 b with
  | none => none
  | some c => match derRead 0x30 c.body with
    | none => none
    | some t => match derRead 0x30 t.rest with
      | none => none
      | some a => match derRead 3 a.rest with
        | none => none
        | some s =>
          if a.whole ≠ algEcdsa384 || !s.rest.isEmpty then none
          else match tbsOf t.body, sigOfBits s.body with
            | some (k, l), some sig =>
              (compositeExt l).map fun e => ({ tbs := t.whole, spki := k, ca := caOf l, ext := e, sig := sig }, c.rest)
            | _, _ => none

/-! ## Chains (R250, R251) -/

/-- A chain as it parses: the root hash and the three certificates, and the octets of the first. -/
structure Chain where
  rootHash : Bytes
  first : Bytes
  root : Cert
  authority : Cert
  leaf : Cert
  deriving DecidableEq, Repr

/-- A chain in the format of R250: its length, two reserved octets, the root hash, and exactly three certificates. -/
def chainOf (b : Bytes) : Option Chain :=
  match certRead (b.drop 52) with
  | none => none
  | some (x, t) => match certRead t with
    | none => none
    | some (y, u) => match certRead u with
      | none => none
      | some (z, left) =>
        if uAt b 0 2 == b.length && zeroAt b 2 2 && left.isEmpty then
          some { rootHash := bytesAt b 4 48, first := (b.drop 52).take (b.length - 52 - t.length), root := x, authority := y, leaf := z }
        else none

/-- The root's two public keys, which the ROM of every device holds; the spec does not print them. -/
def romRootKeys : Bytes := fit 2689 (Config.prim .romKey 3 [])

/-- Both signatures of a certificate verify under its issuer's two keys. -/
def certSigned (c issuer : Cert) : Bool :=
  curveP384.ecdsaVerify issuer.point (sha384 c.tbs) c.sig &&
  mldsaOk 0x00110003 (bytesAt issuer.ext 0x10 2592) (ascii "MAELARN-CERT") (c.ext.take 0xA30 ++ sha512 c.spki) (bytesAt c.ext 0xA30 4627)

/-- An authority's extension shows no class, no serial. -/
def Cert.isAuthority (c : Cert) : Bool := c.ca && zeroAt c.ext 2 2 && zeroAt c.ext 8 8

/-- A chain proves an attested Maelarn device (R251). -/
def chainOk (chain : Bytes) : Bool :=
  match chainOf chain with
  | none => false
  | some c =>
    c.rootHash == sha384 c.first && c.root.keys == romRootKeys && c.root.isAuthority && c.authority.isAuthority && !c.leaf.ca &&
    certSigned c.root c.root && certSigned c.authority c.root && certSigned c.leaf c.authority && zeroAt c.leaf.ext 2 2

/-- The leaf's serial and its two public keys, ML-DSA-87 then P-384. -/
def chainSerial (chain : Bytes) : Nat := match chainOf chain with | some c => uAt c.leaf.ext 8 8 | none => 0
def chainKeys (chain : Bytes) : Bytes := match chainOf chain with | some c => c.leaf.keys | none => []

end Sys2Proof.Machine
end

