-- ==== Sys2Proof/Machine/Aes.lean ====
section
/-! DEFINITION. AES-256 (FIPS 197), its GCM mode (SP 800-38D) and key wrap KW and KWP (SP 800-38F): what a sealing lane
computes, and what seals the vault and saved contexts (R28, R223, R235 to R239, R261). -/

namespace Sys2Proof.Machine

open Sys2Proof

/-! ## The block cipher -/

/-- The substitution box of FIPS 197, part 0. -/
def aesS0 : Bytes :=
  [0x63, 0x7C, 0x77, 0x7B, 0xF2, 0x6B, 0x6F, 0xC5, 0x30, 0x01, 0x67, 0x2B, 0xFE, 0xD7, 0xAB, 0x76,
   0xCA, 0x82, 0xC9, 0x7D, 0xFA, 0x59, 0x47, 0xF0, 0xAD, 0xD4, 0xA2, 0xAF, 0x9C, 0xA4, 0x72, 0xC0,
   0xB7, 0xFD, 0x93, 0x26, 0x36, 0x3F, 0xF7, 0xCC, 0x34, 0xA5, 0xE5, 0xF1, 0x71, 0xD8, 0x31, 0x15,
   0x04, 0xC7, 0x23, 0xC3, 0x18, 0x96, 0x05, 0x9A, 0x07, 0x12, 0x80, 0xE2, 0xEB, 0x27, 0xB2, 0x75]

/-- The substitution box of FIPS 197, part 1. -/
def aesS1 : Bytes :=
  [0x09, 0x83, 0x2C, 0x1A, 0x1B, 0x6E, 0x5A, 0xA0, 0x52, 0x3B, 0xD6, 0xB3, 0x29, 0xE3, 0x2F, 0x84,
   0x53, 0xD1, 0x00, 0xED, 0x20, 0xFC, 0xB1, 0x5B, 0x6A, 0xCB, 0xBE, 0x39, 0x4A, 0x4C, 0x58, 0xCF,
   0xD0, 0xEF, 0xAA, 0xFB, 0x43, 0x4D, 0x33, 0x85, 0x45, 0xF9, 0x02, 0x7F, 0x50, 0x3C, 0x9F, 0xA8,
   0x51, 0xA3, 0x40, 0x8F, 0x92, 0x9D, 0x38, 0xF5, 0xBC, 0xB6, 0xDA, 0x21, 0x10, 0xFF, 0xF3, 0xD2]

/-- The substitution box of FIPS 197, part 2. -/
def aesS2 : Bytes :=
  [0xCD, 0x0C, 0x13, 0xEC, 0x5F, 0x97, 0x44, 0x17, 0xC4, 0xA7, 0x7E, 0x3D, 0x64, 0x5D, 0x19, 0x73,
   0x60, 0x81, 0x4F, 0xDC, 0x22, 0x2A, 0x90, 0x88, 0x46, 0xEE, 0xB8, 0x14, 0xDE, 0x5E, 0x0B, 0xDB,
   0xE0, 0x32, 0x3A, 0x0A, 0x49, 0x06, 0x24, 0x5C, 0xC2, 0xD3, 0xAC, 0x62, 0x91, 0x95, 0xE4, 0x79,
   0xE7, 0xC8, 0x37, 0x6D, 0x8D, 0xD5, 0x4E, 0xA9, 0x6C, 0x56, 0xF4, 0xEA, 0x65, 0x7A, 0xAE, 0x08]

/-- The substitution box of FIPS 197, part 3. -/
def aesS3 : Bytes :=
  [0xBA, 0x78, 0x25, 0x2E, 0x1C, 0xA6, 0xB4, 0xC6, 0xE8, 0xDD, 0x74, 0x1F, 0x4B, 0xBD, 0x8B, 0x8A,
   0x70, 0x3E, 0xB5, 0x66, 0x48, 0x03, 0xF6, 0x0E, 0x61, 0x35, 0x57, 0xB9, 0x86, 0xC1, 0x1D, 0x9E,
   0xE1, 0xF8, 0x98, 0x11, 0x69, 0xD9, 0x8E, 0x94, 0x9B, 0x1E, 0x87, 0xE9, 0xCE, 0x55, 0x28, 0xDF,
   0x8C, 0xA1, 0x89, 0x0D, 0xBF, 0xE6, 0x42, 0x68, 0x41, 0x99, 0x2D, 0x0F, 0xB0, 0x54, 0xBB, 0x16]

/-- The inverse substitution box, part 0. -/
def aesI0 : Bytes :=
  [0x52, 0x09, 0x6A, 0xD5, 0x30, 0x36, 0xA5, 0x38, 0xBF, 0x40, 0xA3, 0x9E, 0x81, 0xF3, 0xD7, 0xFB,
   0x7C, 0xE3, 0x39, 0x82, 0x9B, 0x2F, 0xFF, 0x87, 0x34, 0x8E, 0x43, 0x44, 0xC4, 0xDE, 0xE9, 0xCB,
   0x54, 0x7B, 0x94, 0x32, 0xA6, 0xC2, 0x23, 0x3D, 0xEE, 0x4C, 0x95, 0x0B, 0x42, 0xFA, 0xC3, 0x4E,
   0x08, 0x2E, 0xA1, 0x66, 0x28, 0xD9, 0x24, 0xB2, 0x76, 0x5B, 0xA2, 0x49, 0x6D, 0x8B, 0xD1, 0x25]

/-- The inverse substitution box, part 1. -/
def aesI1 : Bytes :=
  [0x72, 0xF8, 0xF6, 0x64, 0x86, 0x68, 0x98, 0x16, 0xD4, 0xA4, 0x5C, 0xCC, 0x5D, 0x65, 0xB6, 0x92,
   0x6C, 0x70, 0x48, 0x50, 0xFD, 0xED, 0xB9, 0xDA, 0x5E, 0x15, 0x46, 0x57, 0xA7, 0x8D, 0x9D, 0x84,
   0x90, 0xD8, 0xAB, 0x00, 0x8C, 0xBC, 0xD3, 0x0A, 0xF7, 0xE4, 0x58, 0x05, 0xB8, 0xB3, 0x45, 0x06,
   0xD0, 0x2C, 0x1E, 0x8F, 0xCA, 0x3F, 0x0F, 0x02, 0xC1, 0xAF, 0xBD, 0x03, 0x01, 0x13, 0x8A, 0x6B]

/-- The inverse substitution box, part 2. -/
def aesI2 : Bytes :=
  [0x3A, 0x91, 0x11, 0x41, 0x4F, 0x67, 0xDC, 0xEA, 0x97, 0xF2, 0xCF, 0xCE, 0xF0, 0xB4, 0xE6, 0x73,
   0x96, 0xAC, 0x74, 0x22, 0xE7, 0xAD, 0x35, 0x85, 0xE2, 0xF9, 0x37, 0xE8, 0x1C, 0x75, 0xDF, 0x6E,
   0x47, 0xF1, 0x1A, 0x71, 0x1D, 0x29, 0xC5, 0x89, 0x6F, 0xB7, 0x62, 0x0E, 0xAA, 0x18, 0xBE, 0x1B,
   0xFC, 0x56, 0x3E, 0x4B, 0xC6, 0xD2, 0x79, 0x20, 0x9A, 0xDB, 0xC0, 0xFE, 0x78, 0xCD, 0x5A, 0xF4]

/-- The inverse substitution box, part 3. -/
def aesI3 : Bytes :=
  [0x1F, 0xDD, 0xA8, 0x33, 0x88, 0x07, 0xC7, 0x31, 0xB1, 0x12, 0x10, 0x59, 0x27, 0x80, 0xEC, 0x5F,
   0x60, 0x51, 0x7F, 0xA9, 0x19, 0xB5, 0x4A, 0x0D, 0x2D, 0xE5, 0x7A, 0x9F, 0x93, 0xC9, 0x9C, 0xEF,
   0xA0, 0xE0, 0x3B, 0x4D, 0xAE, 0x2A, 0xF5, 0xB0, 0xC8, 0xEB, 0xBB, 0x3C, 0x83, 0x53, 0x99, 0x61,
   0x17, 0x2B, 0x04, 0x7E, 0xBA, 0x77, 0xD6, 0x26, 0xE1, 0x69, 0x14, 0x63, 0x55, 0x21, 0x0C, 0x7D]

def aesSbox : Bytes := aesS0 ++ aesS1 ++ aesS2 ++ aesS3
def aesInvSbox : Bytes := aesI0 ++ aesI1 ++ aesI2 ++ aesI3

def aesSub (b : Byte) : Byte := aesSbox.getD b.toNat 0
def aesInvSub (b : Byte) : Byte := aesInvSbox.getD b.toNat 0

/-- Multiplication by x in GF(2^8). -/
def gfX (b : Byte) : Byte := if b.msb then (b <<< 1) ^^^ 0x1B#8 else b <<< 1

/-- Multiplication by a constant in GF(2^8). -/
def gfTimes (k : Nat) (b : Byte) : Byte :=
  let b2 := gfX b
  let b4 := gfX b2
  let b8 := gfX b4
  (if bitOf k 0 then b else 0) ^^^ (if bitOf k 1 then b2 else 0) ^^^ (if bitOf k 2 then b4 else 0) ^^^
  (if bitOf k 3 then b8 else 0)

/-- The next words of the key schedule from the 8 before: word `i` is the sum of word `i - 8` and its predecessor,
transformed at every fourth. -/
def aesNextWord (i : Nat) (before last : Bytes) : Bytes :=
  let t :=
    if i % 8 = 0 then
      let r := (last.drop 1 ++ last.take 1).map aesSub
      xorBytes r [BitVec.ofNat 8 (2 ^ (i / 8 - 1)), 0, 0, 0]
    else if i % 8 = 4 then last.map aesSub
    else last
  xorBytes before t

/-- The 60 words of the key schedule, in one string of 240 octets. -/
def aesSchedule (key : Bytes) : Bytes :=
  (List.range 52).foldl (fun w i => w ++ aesNextWord (i + 8) (bytesAt w (4 * i) 4) (bytesAt w (4 * (i + 7)) 4)) (fit 32 key)

/-- Round key `r`. -/
def aesRoundKey (w : Bytes) (r : Nat) : Bytes := bytesAt w (16 * r) 16

/-- Rows shift left by their number; the state is in columns. -/
def aesShift (b : Bytes) : Bytes := (List.range 16).map fun i => b.getD ((i + 4 * (i % 4)) % 16) 0
def aesUnshift (b : Bytes) : Bytes := (List.range 16).map fun i => b.getD ((i + 12 * (i % 4)) % 16) 0

/-- Each column is multiplied by a circulant whose first row is `m`. -/
def aesMix (m : List Nat) (b : Bytes) : Bytes :=
  (List.range 16).map fun i =>
    (List.range 4).foldl (fun a j => a ^^^ gfTimes (m.getD ((j + 4 - i % 4) % 4) 0) (b.getD (i / 4 * 4 + j) 0)) 0#8

/-- AES-256 of one block under an expanded key. -/
def aesWith (w b : Bytes) : Bytes :=
  let b := (List.range 13).foldl (fun b r =>
    xorBytes (aesMix [2, 3, 1, 1] (aesShift (b.map aesSub))) (aesRoundKey w (r + 1))) (xorBytes b (aesRoundKey w 0))
  xorBytes (aesShift (b.map aesSub)) (aesRoundKey w 14)

/-- The inverse cipher under an expanded key. -/
def aesInvWith (w b : Bytes) : Bytes :=
  let b := (List.range 13).foldl (fun b r =>
    aesMix [14, 11, 13, 9] (xorBytes ((aesUnshift b).map aesInvSub) (aesRoundKey w (13 - r)))) (xorBytes b (aesRoundKey w 14))
  xorBytes ((aesUnshift b).map aesInvSub) (aesRoundKey w 0)

/-- AES-256 of one block. -/
@[irreducible] def aesEnc (key b : Bytes) : Bytes := fit 16 (aesWith (aesSchedule key) (fit 16 b))

/-- AES-256 inverse of one block. -/
@[irreducible] def aesDec (key b : Bytes) : Bytes := fit 16 (aesInvWith (aesSchedule key) (fit 16 b))

theorem aesEnc_length (key b : Bytes) : (aesEnc key b).length = 16 := by
  unfold aesEnc; simp [fit_length]

/-! ## GCM -/

/-- Multiplication in GF(2^128), the first bit of a string being the coefficient of 1. -/
def ghashMul (x y : BitVec 128) : BitVec 128 :=
  ((List.range 128).foldl (fun (a : BitVec 128 × BitVec 128) i =>
    (if x.getMsbD i then a.1 ^^^ a.2 else a.1,
     if a.2.getLsbD 0 then (a.2 >>> 1) ^^^ (0xE1#128 <<< 120) else a.2 >>> 1)) (0, y)).1

/-- Zeros up to a multiple of 16 octets. -/
def pad16 (b : Bytes) : Bytes := b ++ List.replicate ((16 - b.length % 16) % 16) 0#8

/-- GHASH of a string of whole blocks. -/
@[irreducible] def ghash (h b : Bytes) : Bytes :=
  be 16 ((List.range (b.length / 16)).foldl (fun a i =>
    ghashMul (a ^^^ BitVec.ofNat 128 (beNat (bytesAt b (16 * i) 16))) (BitVec.ofNat 128 (beNat h))) 0#128).toNat

/-- The hash subkey H. -/
def gcmSubkey (key : Bytes) : Bytes := aesEnc key (List.replicate 16 0#8)

/-- Counter block `i` of a 96-bit IV. -/
def gcmCtr (iv : Bytes) (i : Nat) : Bytes := fit 12 iv ++ be 4 i

/-- `n` octets of the key stream. -/
def gcmStream (key iv : Bytes) (n : Nat) : Bytes :=
  fit n ((List.range (ceilDiv n 16)).flatMap fun i => aesEnc key (gcmCtr iv (i + 2)))

/-- The tag over the associated data and a ciphertext. -/
def gcmTag (key iv aad ct : Bytes) : Bytes :=
  fit 16 (xorBytes (aesEnc key (gcmCtr iv 1))
    (ghash (gcmSubkey key) (pad16 aad ++ pad16 ct ++ be 8 (8 * aad.length) ++ be 8 (8 * ct.length))))

/-- Encryption and decryption are one: the key stream is added. -/
def gcmCrypt (key iv m : Bytes) : Bytes := xorBytes m (gcmStream key iv m.length)

/-- Seals a plaintext: the ciphertext, then the tag. -/
def gcmSeal (key iv aad m : Bytes) : Bytes := gcmCrypt key iv m ++ gcmTag key iv aad (gcmCrypt key iv m)

/-- Opens a ciphertext where its tag matches. -/
def gcmOpen (key iv aad ct tag : Bytes) : Option Bytes :=
  if gcmTag key iv aad ct = tag then some (gcmCrypt key iv ct) else none

theorem gcmCrypt_length (key iv m : Bytes) : (gcmCrypt key iv m).length = m.length := by
  simp [gcmCrypt, xorBytes, gcmStream, fit_length]

theorem gcmCrypt_crypt (key iv m : Bytes) : gcmCrypt key iv (gcmCrypt key iv m) = m := by
  have h : (gcmCrypt key iv m).length = m.length := gcmCrypt_length key iv m
  unfold gcmCrypt at h ⊢
  rw [h]
  exact xorBytes_cancel m _ (by simp [gcmStream, fit_length])

/-- What was sealed opens again. -/
theorem gcmOpen_seal (key iv aad m : Bytes) :
    gcmOpen key iv aad (gcmCrypt key iv m) (gcmTag key iv aad (gcmCrypt key iv m)) = some m := by
  simp [gcmOpen, gcmCrypt_crypt]

/-! ## Key wrap (SP 800-38F) -/

/-- One of the 6n steps of W on A and the semiblocks: step `t` counts from 1. -/
def kwStep (key : Bytes) (n : Nat) (x : Bytes × Bytes) (t : Nat) : Bytes × Bytes :=
  let i := (t - 1) % n
  let b := aesEnc key (x.1 ++ bytesAt x.2 (8 * i) 8)
  (xorBytes (b.take 8) (be 8 t), x.2.take (8 * i) ++ b.drop 8 ++ x.2.drop (8 * i + 8))

/-- The inverse step. -/
def kwUnstep (key : Bytes) (n : Nat) (x : Bytes × Bytes) (t : Nat) : Bytes × Bytes :=
  let i := (t - 1) % n
  let b := aesDec key (xorBytes x.1 (be 8 t) ++ bytesAt x.2 (8 * i) 8)
  (b.take 8, x.2.take (8 * i) ++ b.drop 8 ++ x.2.drop (8 * i + 8))

/-- W over an integrity value and whole semiblocks. -/
def kwW (key icv p : Bytes) : Bytes :=
  let n := p.length / 8
  let r := (List.range (6 * n)).foldl (fun x t => kwStep key n x (t + 1)) (icv, p)
  r.1 ++ r.2

/-- The inverse of W: the integrity value, and the rest. -/
def kwInv (key c : Bytes) : Bytes × Bytes :=
  let n := c.length / 8 - 1
  ((List.range (6 * n)).reverse).foldl (fun x t => kwUnstep key n x (t + 1)) (c.take 8, c.drop 8)

/-- KW of whole semiblocks, at least two. -/
def kwWrap (key p : Bytes) : Bytes := kwW key (List.replicate 8 0xA6#8) p

def kwUnwrap (key c : Bytes) : Option Bytes :=
  if c.length % 8 ≠ 0 ∨ c.length < 24 then none
  else
    let (a, p) := kwInv key c
    if a = List.replicate 8 0xA6#8 then some p else none

/-- The integrity value of KWP: a constant and the length in octets. -/
def kwpIcv (n : Nat) : Bytes := [0xA6#8, 0x59#8, 0x59#8, 0xA6#8] ++ be 4 n

/-- KWP of any string of at least one octet; one semiblock is a single block. -/
def kwpWrap (key p : Bytes) : Bytes :=
  let q := p ++ List.replicate ((8 - p.length % 8) % 8) 0#8
  if q.length = 8 then aesEnc key (kwpIcv p.length ++ q) else kwW key (kwpIcv p.length) q

def kwpUnwrap (key c : Bytes) : Option Bytes :=
  if c.length % 8 ≠ 0 ∨ c.length < 16 then none
  else
    let (a, q) := if c.length = 16 then let b := aesDec key c; (b.take 8, b.drop 8) else kwInv key c
    let n := beNat (a.drop 4)
    if a.take 4 = [0xA6#8, 0x59#8, 0x59#8, 0xA6#8] ∧ n ≤ q.length ∧ q.length < n + 8 ∧ (q.drop n).all (· == 0) then some (q.take n)
    else none

end Sys2Proof.Machine
end

