-- ==== Sys2Proof/Machine/Params.lean ====
section
/-! DEFINITION. The parameter sets of the algorithm chapters with their sizes and tick counts (R125, R145, R153,
R157, R158, R171, R173, R177, R179, R200, R215, R227, R229, R235). The XMSS and XMSS^MT sizes follow from the OIDs of
RFC 8391 and SP 800-208 (log 12). -/

namespace Sys2Proof.Machine

open Sys2Proof

/-- One parameter set: sizes in octets, counts in ticks; 0 where a column does not apply. -/
structure SetRow where
  kind : Nat        -- unit kind
  pk : Nat          -- public key
  out : Nat         -- ciphertext, signature or digest
  secret : Nat      -- stored secret, or the length of a generated key
  shared : Nat      -- deposited secret
  keygen : Nat      -- key generation; RSA: after the candidates
  prep : Nat        -- preparation, and validation by KEY_LOAD_PUBLIC (R270)
  prepared : Nat    -- encapsulate or verify, key prepared
  payload : Nat     -- encapsulate or verify, key in the payload
  dec : Nat         -- decapsulate
  decCheck : Nat    -- check of a decapsulation
  sign : Nat        -- sign, or the setup of a signing loop
  iter : Nat        -- one signing iteration
  verify : Nat
  agree : Nat
  bench : Nat
  cand : Nat        -- one RSA candidate
  deriving DecidableEq, Repr

def setRows0 : List (Nat × SetRow) :=
  [(0x00100001, ⟨0, 800, 768, 64, 32, 4, 2, 3, 5, 7, 7, 0, 0, 0, 0, 5, 0⟩),
   (0x00100002, ⟨0, 1184, 1088, 64, 32, 6, 3, 5, 8, 11, 10, 0, 0, 0, 0, 8, 0⟩),
   (0x00100003, ⟨0, 1568, 1568, 64, 32, 9, 4, 8, 12, 18, 14, 0, 0, 0, 0, 16, 0⟩),
   (0x00110001, ⟨0, 1312, 2420, 32, 0, 11, 3, 5, 8, 0, 0, 2, 4, 0, 0, 50, 0⟩),
   (0x00110002, ⟨0, 1952, 3309, 32, 0, 15, 5, 6, 11, 0, 0, 3, 5, 0, 0, 59, 0⟩),
   (0x00110003, ⟨0, 2592, 4627, 32, 0, 24, 8, 10, 18, 0, 0, 10, 8, 0, 0, 100, 0⟩),
   (0x00120001, ⟨0, 32, 7856, 64, 0, 4000, 1, 16, 16, 0, 0, 58600, 0, 16, 0, 50, 0⟩),
   (0x00120002, ⟨0, 32, 7856, 64, 0, 4400, 1, 18, 18, 0, 0, 64500, 0, 18, 0, 50, 0⟩),
   (0x00120003, ⟨0, 32, 17088, 64, 0, 64, 1, 48, 48, 0, 0, 1460, 0, 48, 0, 50, 0⟩),
   (0x00120004, ⟨0, 32, 17088, 64, 0, 70, 1, 53, 53, 0, 0, 1610, 0, 53, 0, 50, 0⟩),
   (0x00120005, ⟨0, 48, 16224, 96, 0, 8700, 1, 34, 34, 0, 0, 143300, 0, 34, 0, 50, 0⟩),
   (0x00120006, ⟨0, 48, 16224, 96, 0, 6500, 1, 25, 25, 0, 0, 107500, 0, 25, 0, 50, 0⟩),
   (0x00120007, ⟨0, 48, 35664, 96, 0, 136, 1, 101, 101, 0, 0, 3360, 0, 101, 0, 50, 0⟩),
   (0x00120008, ⟨0, 48, 35664, 96, 0, 102, 1, 76, 76, 0, 0, 2520, 0, 76, 0, 50, 0⟩),
   (0x00120009, ⟨0, 64, 29792, 128, 0, 5700, 1, 53, 53, 0, 0, 118800, 0, 53, 0, 50, 0⟩),
   (0x0012000A, ⟨0, 64, 29792, 128, 0, 4300, 1, 40, 40, 0, 0, 89103, 0, 40, 0, 50, 0⟩),
   (0x0012000B, ⟨0, 64, 49856, 128, 0, 357, 1, 104, 104, 0, 0, 6829, 0, 104, 0, 50, 0⟩),
   (0x0012000C, ⟨0, 64, 49856, 128, 0, 268, 1, 78, 78, 0, 0, 5122, 0, 78, 0, 50, 0⟩),
   (0x00130001, ⟨0, 0, 0, 0, 0, 0, 0, 0, 0, 0, 0, 0, 0, 0, 0, 32, 0⟩),
   (0x00140001, ⟨0, 68, 0, 0, 0, 0, 0, 0, 0, 0, 0, 0, 0, 0, 0, 32, 0⟩)]

def setRows1 : List (Nat × SetRow) :=
  [(0x00140002, ⟨0, 68, 0, 0, 0, 0, 0, 0, 0, 0, 0, 0, 0, 0, 0, 32, 0⟩),
   (0x00140003, ⟨0, 68, 0, 0, 0, 0, 0, 0, 0, 0, 0, 0, 0, 0, 0, 32, 0⟩),
   (0x0014000D, ⟨0, 52, 0, 0, 0, 0, 0, 0, 0, 0, 0, 0, 0, 0, 0, 32, 0⟩),
   (0x0014000E, ⟨0, 52, 0, 0, 0, 0, 0, 0, 0, 0, 0, 0, 0, 0, 0, 32, 0⟩),
   (0x0014000F, ⟨0, 52, 0, 0, 0, 0, 0, 0, 0, 0, 0, 0, 0, 0, 0, 32, 0⟩),
   (0x00140010, ⟨0, 68, 0, 0, 0, 0, 0, 0, 0, 0, 0, 0, 0, 0, 0, 32, 0⟩),
   (0x00140011, ⟨0, 68, 0, 0, 0, 0, 0, 0, 0, 0, 0, 0, 0, 0, 0, 32, 0⟩),
   (0x00140012, ⟨0, 68, 0, 0, 0, 0, 0, 0, 0, 0, 0, 0, 0, 0, 0, 32, 0⟩),
   (0x00140013, ⟨0, 52, 0, 0, 0, 0, 0, 0, 0, 0, 0, 0, 0, 0, 0, 32, 0⟩),
   (0x00140014, ⟨0, 52, 0, 0, 0, 0, 0, 0, 0, 0, 0, 0, 0, 0, 0, 32, 0⟩),
   (0x00140015, ⟨0, 52, 0, 0, 0, 0, 0, 0, 0, 0, 0, 0, 0, 0, 0, 32, 0⟩),
   (0x00140101, ⟨0, 68, 0, 0, 0, 0, 0, 0, 0, 0, 0, 0, 0, 0, 0, 32, 0⟩),
   (0x00140102, ⟨0, 68, 0, 0, 0, 0, 0, 0, 0, 0, 0, 0, 0, 0, 0, 32, 0⟩),
   (0x00140103, ⟨0, 68, 0, 0, 0, 0, 0, 0, 0, 0, 0, 0, 0, 0, 0, 32, 0⟩),
   (0x00140104, ⟨0, 68, 0, 0, 0, 0, 0, 0, 0, 0, 0, 0, 0, 0, 0, 32, 0⟩),
   (0x00140105, ⟨0, 68, 0, 0, 0, 0, 0, 0, 0, 0, 0, 0, 0, 0, 0, 32, 0⟩),
   (0x00140106, ⟨0, 68, 0, 0, 0, 0, 0, 0, 0, 0, 0, 0, 0, 0, 0, 32, 0⟩),
   (0x00140107, ⟨0, 68, 0, 0, 0, 0, 0, 0, 0, 0, 0, 0, 0, 0, 0, 32, 0⟩),
   (0x00140108, ⟨0, 68, 0, 0, 0, 0, 0, 0, 0, 0, 0, 0, 0, 0, 0, 32, 0⟩),
   (0x00140121, ⟨0, 52, 0, 0, 0, 0, 0, 0, 0, 0, 0, 0, 0, 0, 0, 32, 0⟩)]

def setRows2 : List (Nat × SetRow) :=
  [(0x00140122, ⟨0, 52, 0, 0, 0, 0, 0, 0, 0, 0, 0, 0, 0, 0, 0, 32, 0⟩),
   (0x00140123, ⟨0, 52, 0, 0, 0, 0, 0, 0, 0, 0, 0, 0, 0, 0, 0, 32, 0⟩),
   (0x00140124, ⟨0, 52, 0, 0, 0, 0, 0, 0, 0, 0, 0, 0, 0, 0, 0, 32, 0⟩),
   (0x00140125, ⟨0, 52, 0, 0, 0, 0, 0, 0, 0, 0, 0, 0, 0, 0, 0, 32, 0⟩),
   (0x00140126, ⟨0, 52, 0, 0, 0, 0, 0, 0, 0, 0, 0, 0, 0, 0, 0, 32, 0⟩),
   (0x00140127, ⟨0, 52, 0, 0, 0, 0, 0, 0, 0, 0, 0, 0, 0, 0, 0, 32, 0⟩),
   (0x00140128, ⟨0, 52, 0, 0, 0, 0, 0, 0, 0, 0, 0, 0, 0, 0, 0, 32, 0⟩),
   (0x00140129, ⟨0, 68, 0, 0, 0, 0, 0, 0, 0, 0, 0, 0, 0, 0, 0, 32, 0⟩),
   (0x0014012A, ⟨0, 68, 0, 0, 0, 0, 0, 0, 0, 0, 0, 0, 0, 0, 0, 32, 0⟩),
   (0x0014012B, ⟨0, 68, 0, 0, 0, 0, 0, 0, 0, 0, 0, 0, 0, 0, 0, 32, 0⟩),
   (0x0014012C, ⟨0, 68, 0, 0, 0, 0, 0, 0, 0, 0, 0, 0, 0, 0, 0, 32, 0⟩),
   (0x0014012D, ⟨0, 68, 0, 0, 0, 0, 0, 0, 0, 0, 0, 0, 0, 0, 0, 32, 0⟩),
   (0x0014012E, ⟨0, 68, 0, 0, 0, 0, 0, 0, 0, 0, 0, 0, 0, 0, 0, 32, 0⟩),
   (0x0014012F, ⟨0, 68, 0, 0, 0, 0, 0, 0, 0, 0, 0, 0, 0, 0, 0, 32, 0⟩),
   (0x00140130, ⟨0, 68, 0, 0, 0, 0, 0, 0, 0, 0, 0, 0, 0, 0, 0, 32, 0⟩),
   (0x00140131, ⟨0, 52, 0, 0, 0, 0, 0, 0, 0, 0, 0, 0, 0, 0, 0, 32, 0⟩),
   (0x00140132, ⟨0, 52, 0, 0, 0, 0, 0, 0, 0, 0, 0, 0, 0, 0, 0, 32, 0⟩),
   (0x00140133, ⟨0, 52, 0, 0, 0, 0, 0, 0, 0, 0, 0, 0, 0, 0, 0, 32, 0⟩),
   (0x00140134, ⟨0, 52, 0, 0, 0, 0, 0, 0, 0, 0, 0, 0, 0, 0, 0, 32, 0⟩),
   (0x00140135, ⟨0, 52, 0, 0, 0, 0, 0, 0, 0, 0, 0, 0, 0, 0, 0, 32, 0⟩)]

def setRows3 : List (Nat × SetRow) :=
  [(0x00140136, ⟨0, 52, 0, 0, 0, 0, 0, 0, 0, 0, 0, 0, 0, 0, 0, 32, 0⟩),
   (0x00140137, ⟨0, 52, 0, 0, 0, 0, 0, 0, 0, 0, 0, 0, 0, 0, 0, 32, 0⟩),
   (0x00140138, ⟨0, 52, 0, 0, 0, 0, 0, 0, 0, 0, 0, 0, 0, 0, 0, 32, 0⟩),
   (0x00150001, ⟨0, 261120, 96, 6492, 32, 13500, 1, 52, 52, 340, 52, 0, 0, 0, 0, 100, 0⟩),
   (0x00150002, ⟨0, 524160, 156, 13608, 32, 42700, 1, 101, 101, 760, 101, 0, 0, 0, 0, 100, 0⟩),
   (0x00150003, ⟨0, 1044992, 208, 13932, 32, 227200, 1, 203, 203, 1317, 203, 0, 0, 0, 0, 100, 0⟩),
   (0x00150004, ⟨0, 1047319, 194, 13948, 32, 233600, 1, 204, 204, 1380, 204, 0, 0, 0, 0, 100, 0⟩),
   (0x00150005, ⟨0, 1357824, 208, 14120, 32, 287600, 1, 264, 264, 1560, 264, 0, 0, 0, 0, 100, 0⟩),
   (0x00150011, ⟨0, 2249, 4481, 2289, 64, 20, 1, 45, 45, 75, 45, 0, 0, 0, 0, 60, 0⟩),
   (0x00150012, ⟨0, 4522, 9026, 4562, 64, 40, 1, 90, 90, 150, 90, 0, 0, 0, 0, 60, 0⟩),
   (0x00150013, ⟨0, 7245, 14469, 7285, 64, 70, 1, 155, 155, 260, 155, 0, 0, 0, 0, 60, 0⟩),
   (0x00180001, ⟨0, 1216, 1120, 96, 32, 0, 0, 0, 0, 0, 0, 0, 0, 0, 0, 0, 0⟩),
   (0x00180002, ⟨0, 1665, 1665, 112, 32, 0, 0, 0, 0, 0, 0, 0, 0, 0, 0, 0, 0⟩),
   (0x00180011, ⟨0, 1344, 2484, 64, 0, 0, 0, 0, 0, 0, 0, 0, 0, 0, 0, 0, 0⟩),
   (0x00180012, ⟨0, 2017, 3373, 64, 0, 0, 0, 0, 0, 0, 0, 0, 0, 0, 0, 0, 0⟩),
   (0x00180013, ⟨0, 2689, 4723, 80, 0, 0, 0, 0, 0, 0, 0, 0, 0, 0, 0, 0, 0⟩),
   (0x001A0001, ⟨0, 0, 0, 0, 0, 0, 0, 0, 0, 0, 0, 0, 0, 0, 0, 27, 0⟩),
   (0x001A0002, ⟨0, 0, 0, 0, 0, 0, 0, 0, 0, 0, 0, 0, 0, 0, 0, 27, 0⟩),
   (0x00200001, ⟨1, 65, 64, 32, 32, 14, 2, 40, 40, 0, 0, 26, 0, 40, 24, 20, 0⟩),
   (0x00200002, ⟨1, 97, 96, 48, 48, 30, 3, 86, 86, 0, 0, 57, 0, 86, 52, 30, 0⟩)]

def setRows4 : List (Nat × SetRow) :=
  [(0x00200003, ⟨1, 133, 132, 66, 66, 66, 6, 190, 190, 0, 0, 125, 0, 190, 115, 50, 0⟩),
   (0x00200011, ⟨1, 32, 0, 32, 32, 20, 2, 0, 0, 0, 0, 0, 0, 0, 20, 16, 0⟩),
   (0x00200012, ⟨1, 56, 0, 56, 56, 66, 4, 0, 0, 0, 0, 0, 0, 0, 66, 40, 0⟩),
   (0x00200021, ⟨1, 32, 64, 32, 0, 12, 2, 32, 32, 0, 0, 21, 0, 32, 0, 16, 0⟩),
   (0x00200022, ⟨1, 57, 114, 57, 0, 40, 4, 105, 105, 0, 0, 70, 0, 105, 0, 40, 0⟩),
   (0x00200101, ⟨1, 288, 256, 0, 0, 1100, 1, 11, 11, 0, 0, 250, 0, 11, 0, 40, 125⟩),
   (0x00200102, ⟨1, 416, 384, 0, 0, 3500, 1, 25, 25, 0, 0, 844, 0, 25, 0, 80, 420⟩),
   (0x00200103, ⟨1, 544, 512, 0, 0, 7000, 1, 44, 44, 0, 0, 1626, 0, 44, 0, 120, 810⟩),
   (0x00300001, ⟨2, 0, 32, 0, 0, 0, 0, 0, 0, 0, 0, 0, 0, 0, 0, 4, 0⟩),
   (0x00300002, ⟨2, 0, 48, 0, 0, 0, 0, 0, 0, 0, 0, 0, 0, 0, 0, 4, 0⟩),
   (0x00300003, ⟨2, 0, 64, 0, 0, 0, 0, 0, 0, 0, 0, 0, 0, 0, 0, 4, 0⟩),
   (0x00300004, ⟨2, 0, 32, 0, 0, 0, 0, 0, 0, 0, 0, 0, 0, 0, 0, 4, 0⟩),
   (0x00300005, ⟨2, 0, 28, 0, 0, 0, 0, 0, 0, 0, 0, 0, 0, 0, 0, 4, 0⟩),
   (0x00300011, ⟨2, 0, 28, 0, 0, 0, 0, 0, 0, 0, 0, 0, 0, 0, 0, 4, 0⟩),
   (0x00300012, ⟨2, 0, 32, 0, 0, 0, 0, 0, 0, 0, 0, 0, 0, 0, 0, 4, 0⟩),
   (0x00300013, ⟨2, 0, 48, 0, 0, 0, 0, 0, 0, 0, 0, 0, 0, 0, 0, 4, 0⟩),
   (0x00300014, ⟨2, 0, 64, 0, 0, 0, 0, 0, 0, 0, 0, 0, 0, 0, 0, 4, 0⟩),
   (0x00300021, ⟨2, 0, 0, 0, 0, 0, 0, 0, 0, 0, 0, 0, 0, 0, 0, 4, 0⟩),
   (0x00300022, ⟨2, 0, 0, 0, 0, 0, 0, 0, 0, 0, 0, 0, 0, 0, 0, 4, 0⟩),
   (0x00300031, ⟨2, 0, 0, 0, 0, 0, 0, 0, 0, 0, 0, 0, 0, 0, 0, 4, 0⟩)]

def setRows5 : List (Nat × SetRow) :=
  [(0x00300032, ⟨2, 0, 0, 0, 0, 0, 0, 0, 0, 0, 0, 0, 0, 0, 0, 4, 0⟩),
   (0x00310001, ⟨2, 0, 32, 32, 0, 0, 0, 0, 0, 0, 0, 0, 0, 0, 0, 4, 0⟩),
   (0x00310002, ⟨2, 0, 48, 48, 0, 0, 0, 0, 0, 0, 0, 0, 0, 0, 0, 4, 0⟩),
   (0x00310003, ⟨2, 0, 64, 64, 0, 0, 0, 0, 0, 0, 0, 0, 0, 0, 0, 4, 0⟩),
   (0x00310011, ⟨2, 0, 32, 32, 0, 0, 0, 0, 0, 0, 0, 0, 0, 0, 0, 4, 0⟩),
   (0x00310013, ⟨2, 0, 64, 64, 0, 0, 0, 0, 0, 0, 0, 0, 0, 0, 0, 4, 0⟩),
   (0x00310021, ⟨2, 0, 0, 32, 0, 0, 0, 0, 0, 0, 0, 0, 0, 0, 0, 4, 0⟩),
   (0x00310022, ⟨2, 0, 0, 32, 0, 0, 0, 0, 0, 0, 0, 0, 0, 0, 0, 4, 0⟩),
   (0x00320001, ⟨3, 0, 0, 32, 0, 0, 0, 0, 0, 0, 0, 0, 0, 0, 0, 3, 0⟩),
   (0x00320002, ⟨3, 0, 0, 32, 0, 0, 0, 0, 0, 0, 0, 0, 0, 0, 0, 3, 0⟩),
   (0x00320003, ⟨3, 0, 0, 32, 0, 0, 0, 0, 0, 0, 0, 0, 0, 0, 0, 3, 0⟩)]

/-- Every base set by its PARAM code. -/
def setRows : List (Nat × SetRow) := setRows0 ++ setRows1 ++ setRows2 ++ setRows3 ++ setRows4 ++ setRows5

/-- A code that names no set has every figure 0. -/
def SetRow.none : SetRow := ⟨0, 0, 0, 0, 0, 0, 0, 0, 0, 0, 0, 0, 0, 0, 0, 0, 0⟩

/-! ## Sets that packs add (R125, R200, R350, R353)

A base set goes by its PARAM code. A set that a pack adds goes by a number that carries what the tables hold of it: the
code in bits 31 to 0, the parameter-set row above it, then the curve row (zero where the set has none), then the number
of its benchmark family. -/

/-- The PARAM code of a set. -/
def codeOf (p : Nat) : Nat := p % 2 ^ 32

/-- The number of a set with its rows. -/
def withRows (code : Nat) (row curve : Bytes) (fam : Nat) : Nat :=
  code + 2 ^ 32 * leNat (row.take 64) + 2 ^ 544 * leNat (curve.take 512) + 2 ^ 4640 * fam

/-- A set that carries its rows. -/
def carriesRows (p : Nat) : Bool := decide (2 ^ 32 ≤ p)

/-- The parameter-set row that a set's number carries. -/
def rowOfSet (p : Nat) : Bytes := le 64 (p / 2 ^ 32)

/-- The curve row that a set's number carries; zero where it has none. -/
def curveRowOfSet (p : Nat) : Bytes := le 512 (p / 2 ^ 544)

/-- The high half of a PARAM code. -/
def paramGroup (p : Nat) : Nat := p / 2 ^ 16 % 2 ^ 16

/-- A code that a pack adds (R125, R200). -/
def packCode (p : Nat) : Bool := p.testBit 15

/-- Ticks of KEY_LOAD_PUBLIC's validation by the CLASS of a curve (R270). -/
def classPrep (k : Nat) : Nat := [0, 2, 3, 4, 6].getD k 1

/-- A parameter-set row with its TICKS in the order of its group's tick table (R145, R171, R177, R179, R215, R350);
what a check costs where its table has no column, and the slot of a benchmark figure that the group's table does not
hold, are the model's choice (log 107). -/
def packSetRow (r : Bytes) (g cls : Nat) : SetRow :=
  let t := fun k => uAt r (0x18 + 4 * k) 4
  let b := { SetRow.none with kind := uAt r 4 1, pk := uAt r 8 4, out := uAt r 0x0C 4, secret := uAt r 0x10 4,
                              shared := uAt r 0x14 4 }
  match g with
  | 0x10 => { b with keygen := t 0, prep := t 1, prepared := t 2, payload := t 3, dec := t 4, decCheck := t 4, bench := t 7 }
  | 0x11 => { b with keygen := t 0, prep := t 1, prepared := t 2, payload := t 3, sign := t 5, iter := t 6, bench := t 7 }
  | 0x12 => { b with keygen := t 0, prep := 1, sign := t 1, prepared := t 2, payload := t 2, verify := t 2, bench := t 3 }
  | 0x15 => { b with keygen := t 0, prep := 1, prepared := t 1, payload := t 1, dec := t 2, decCheck := t 1, bench := t 3 }
  | 0x20 => { b with keygen := t 0, prep := classPrep cls, sign := t 1, prepared := t 2, payload := t 2, verify := t 2,
                     agree := t 3, bench := t 4 }
  | _ => { b with keygen := t 0, prep := t 1, prepared := t 2, payload := t 3, dec := t 4, decCheck := t 4, sign := t 5,
                  iter := t 6, bench := t 7 }

/-- The row of a set. -/
def setRow? (p : Nat) : Option SetRow :=
  if carriesRows p then some (packSetRow (rowOfSet p) (paramGroup p) (uAt (curveRowOfSet p) 5 1)) else setRows.lookup p

/-- The row of a set, or zeros. -/
def setRow (p : Nat) : SetRow := (setRow? p).getD SetRow.none

/-- The lattice part of a hybrid or composite set (R125). -/
def latticePart (p : Nat) : Nat :=
  match p with
  | 0x00180001 => 0x00100002
  | 0x00180002 => 0x00100003
  | 0x00180011 => 0x00110001
  | 0x00180012 => 0x00110002
  | 0x00180013 => 0x00110003
  | _ => p

/-- The classical part of a hybrid or composite set. -/
def classicPart (p : Nat) : Nat :=
  match p with
  | 0x00180001 => 0x00200011
  | 0x00180002 => 0x00200002
  | 0x00180011 => 0x00200021
  | 0x00180012 => 0x00200001
  | 0x00180013 => 0x00200002
  | _ => p

/-- The benchmark family of a set (R55, R147, R171, R177, R179, R190, R215, R225, R350). -/
def famOf (p : Nat) : Nat :=
  if carriesRows p then p / 2 ^ 4640
  else match paramGroup p with
  | 0x10 => 1
  | 0x11 => 2
  | 0x12 => 3
  | 0x13 => 4
  | 0x14 => 4
  | 0x15 => if p % 2 ^ 16 < 0x10 then 5 else 6
  | 0x1A => 7
  | 0x20 => 8
  | 0x30 => 9
  | 0x31 => 9
  | 0x32 => 10
  | _ => 0

/-- The set that a unit of a kind benchmarks before its first real operation (R52). -/
def firstSet : Nat → Nat
  | 0 => 0x00100001
  | 1 => 0x00200001
  | 2 => 0x00300001
  | _ => 0x00320001

/-- SLH-DSA's n (R153). -/
def slhN (p : Nat) : Nat := (setRow p).pk / 2

/-- RSA modulus octets. -/
def rsaLen (p : Nat) : Nat := (setRow p).out

/-- The curve of a set of group 0x20; none for RSA. -/
def curveOf (p : Nat) : Option Curve :=
  if carriesRows p then
    (if paramGroup p = 0x20 ∧ uAt (curveRowOfSet p) 4 1 ≠ 0 then some (curveOfRow (curveRowOfSet p)) else none)
  else match p with
    | 0x00200001 => some curveP256
    | 0x00200002 => some curveP384
    | 0x00200003 => some curveP521
    | 0x00200011 => some curveX25519
    | 0x00200012 => some curveX448
    | 0x00200021 => some curveEd25519
    | 0x00200022 => some curveEd448
    | _ => none

/-- A set of group 0x20 with a curve: its FORM (R201); 0 for RSA. -/
def curveForm (p : Nat) : Nat := match curveOf p with | some c => c.form | none => 0

/-- The USES of a base curve: [0] ECDSA, [1] ECDH, [2] EdDSA, [3] X-only agreement (R201). -/
def formUses : Nat → Nat
  | 1 => 3
  | 2 => 8
  | 3 => 4
  | _ => 0

/-- USES of a set's curve. -/
def curveUses (p : Nat) : Nat := if carriesRows p then uAt (curveRowOfSet p) 0x0C 4 else formUses (curveForm p)

/-- The operand class of a set of group 0x20: 1 E256, 2 E384, 3 E448, 4 E576, 5 M2048, 6 M3072, 7 M4096 (R199, R200). -/
def setClass (p : Nat) : Nat :=
  match curveOf p with
  | some c => c.cls
  | none => [5, 6, 7].getD ((setRow p).out / 128 - 2) 0

/-- Field or modulus width of a class in bits (R199). -/
def classBits : Nat → Nat
  | 1 => 256 | 2 => 384 | 3 => 448 | 4 => 576 | 5 => 2048 | 6 => 3072 | 7 => 4096
  | _ => 0

/-- Width of what an engine holds of a class: an RSA value carries 64 bits of blinding headroom (R199). -/
def classSlotBits (k : Nat) : Nat := if 5 ≤ k then classBits k + 64 else classBits k

/-- Width of the CRT halves of an RSA class (R199). -/
def crtBits (k : Nat) : Nat := classBits k / 2

/-- XMSS^MT layers of an OID: d (RFC 8391, SP 800-208). -/
def xmssLayers (p : Nat) : Nat :=
  if paramGroup p = 0x14 ∧ fieldOf p 8 8 = 1 then [2, 4, 2, 4, 8, 3, 6, 12].getD ((p % 256 - 1) % 8) 1 else 1

/-- XMSS and XMSS^MT total height of an OID. -/
def xmssHeight (p : Nat) : Nat :=
  if fieldOf p 8 8 = 1 then [20, 20, 40, 40, 40, 60, 60, 60].getD ((p % 256 - 1) % 8) 20
  else [10, 16, 20].getD ((p % 256 - 1) % 3) 10

/-- Octets of a digest of a HASH code (R204). -/
def hashLen (h : Nat) : Nat := [0, 32, 48, 64, 32, 48, 64].getD h 0

/-- The selector of a HASH code. -/
def hashSel (h : Nat) : Nat := [0, 256, 384, 512, 3256, 3384, 3512].getD h 0

/-- HMAC and KMAC key lengths that are legal (R229). -/
def macKeyOk (p n : Nat) : Bool :=
  paramGroup p == 0x31 && (setRow? p).isSome && decide ((if p = 0x00310022 then 32 else 16) ≤ n) && decide (n ≤ 128)

/-- A length that is legal for a key of a symmetric set (R229, R235, R257). -/
def keyLenOk (p n : Nat) : Bool :=
  if paramGroup p = 0x31 then macKeyOk p n
  else paramGroup p == 0x32 && (setRow? p).isSome && n == 32

end Sys2Proof.Machine
end

