-- ==== Sys2Proof/Machine/Policy.lean ====
section
/-! DEFINITION. The policy block of a key (R255 to R257) and its rules. -/

namespace Sys2Proof.Machine

open Sys2Proof

/-- Reads a 64-byte policy block (R255). -/
def policyOf (b : Bytes) : Policy :=
  { param := uAt b 0x00 4, usage := uAt b 0x04 4, childUsage := uAt b 0x08 4, childParam := uAt b 0x0C 4,
    notBefore := uAt b 0x10 8, notAfter := uAt b 0x18 8, quotaWindow := uAt b 0x20 8, quotaOps := uAt b 0x28 4,
    materialLen := uAt b 0x2C 2, flags := uAt b 0x2E 2, counter := uAt b 0x30 8, sealBy := uAt b 0x38 1,
    depth := uAt b 0x39 1 }

/-- The 64 bytes of a policy block. -/
def Policy.bytes (p : Policy) : Bytes :=
  le 4 p.param ++ le 4 p.usage ++ le 4 p.childUsage ++ le 4 p.childParam ++ le 8 p.notBefore ++ le 8 p.notAfter ++
  le 8 p.quotaWindow ++ le 4 p.quotaOps ++ le 2 p.materialLen ++ le 2 p.flags ++ le 8 p.counter ++ le 1 p.sealBy ++
  le 1 p.depth ++ List.replicate 6 0

/-! Usage bits. -/
abbrev Use.sign : Nat := 0
abbrev Use.verify : Nat := 1
abbrev Use.encaps : Nat := 2
abbrev Use.decaps : Nat := 3
abbrev Use.agree : Nat := 4
abbrev Use.encrypt : Nat := 5
abbrev Use.decrypt : Nat := 6
abbrev Use.mac : Nat := 7
abbrev Use.derive : Nat := 8
abbrev Use.deriveParent : Nat := 9
abbrev Use.sealBit : Nat := 10
abbrev Use.openBit : Nat := 11
abbrev Use.wrap : Nat := 12
abbrev Use.unwrap : Nat := 13
abbrev Use.prehash : Nat := 14
abbrev Use.externalMu : Nat := 15
abbrev Use.deterministic : Nat := 16
abbrev Use.hostIv : Nat := 17
abbrev Use.wrappable : Nat := 18

/-- A usage bit of a key. -/
def Policy.may (p : Policy) (bit : Nat) : Bool := p.usage.testBit bit

/-! FLAGS bits. -/
def Policy.exportable (p : Policy) : Bool := p.flags.testBit 0
def Policy.childExportable (p : Policy) : Bool := p.flags.testBit 1
def Policy.persistable (p : Policy) : Bool := p.flags.testBit 2
def Policy.shared (p : Policy) : Bool := p.flags.testBit 3
def Policy.stateful (p : Policy) : Bool := p.flags.testBit 4
def Policy.imported (p : Policy) : Bool := p.flags.testBit 5
def Policy.publicOnly (p : Policy) : Bool := p.flags.testBit 6

/-- The quota window of a policy or a slice is legal (R99, R255). -/
def windowOk (w : Nat) : Bool := w % 1000000 == 0 && decide (1000000 ≤ w) && decide (w ≤ 86400000000000)

/-- The row that a table holds for a 32-bit code. -/
def rowFor (rows : List Bytes) (code : Nat) : Option Bytes := rows.find? fun r => uAt r 0 4 == code

/-- The number of the benchmark family that a row's FAMILY byte names: the family of a base row with the same byte,
otherwise one of its own (R55, R350; log 107). -/
def ImageInfo.family (g : ImageInfo) (r : Bytes) : Nat :=
  match g.params.find? fun x => !(uAt x 0 4).testBit 15 && uAt x 5 1 == uAt r 5 1 with
  | some x => famOf (uAt x 0 4)
  | none => 16 + uAt r 5 1

/-- The set that a PARAM code names: a base code stands for itself, the code of a loaded pack row carries its rows. -/
def State.setNum (s : State) (code : Nat) : Nat :=
  if packCode code then
    match rowFor s.start.image.params code with
    | some r => withRows code r ((rowFor s.start.image.curves code).getD []) (s.start.image.family r)
    | none => code
  else code

/-- The policy block at the start of a string, its PARAM codes as sets. -/
def State.policyAt (s : State) (b : Bytes) : Policy :=
  let p := policyOf b
  { p with param := s.setNum p.param, childParam := s.setNum p.childParam }

/-- A set that is loaded: a base set, or one that carries the rows of a pack. -/
def paramLoaded (p : Nat) : Bool := (setRow? p).isSome

/-- The field rules of a policy block that hold of every key (R255), PARAM and the device fields apart. -/
def State.policyRest (s : State) (b : Bytes) : Bool :=
  let p := s.policyAt b
  decide (p.usage < 2 ^ 19) && decide (p.childUsage < 2 ^ 19) &&
  (p.childParam == 0 || ((paramGroup p.childParam == 0x31 || paramGroup p.childParam == 0x32) && paramLoaded p.childParam)) &&
  decide (p.notBefore < p.notAfter) &&
  ((p.quotaWindow == 0 && p.quotaOps == 0) || (windowOk p.quotaWindow && p.quotaOps != 0)) &&
  decide (p.sealBy ≤ 1) && zeroAt b 0x3A 6

/-- The field rules of a policy block that hold of every key (R255), the device fields apart. -/
def State.policyFields (s : State) (b : Bytes) : Bool := paramLoaded (s.policyAt b).param && s.policyRest b

/-- A key-creation block, its PARAM apart: legal fields and every device field zero (R255). -/
def State.creationBut (s : State) (b : Bytes) : Bool :=
  let p := s.policyAt b
  s.policyRest b && p.materialLen == 0 && decide (p.flags < 8) && p.counter == 0 && p.depth == 0

/-- A key-creation block (R255). -/
def State.creationOk (s : State) (b : Bytes) : Bool := paramLoaded (s.policyAt b).param && s.creationBut b

/-- The policy block of a blob or envelope is well formed (R239, R266). -/
def State.policyWf (s : State) (b : Bytes) : Bool :=
  let p := s.policyAt b
  s.policyFields b && b.length == 64 && decide (p.flags < 128) && decide (p.materialLen ≤ 16384) && decide (1 ≤ p.depth) &&
  decide (p.depth ≤ 8)

/-- A key that involves no datum test (R255). -/
def Policy.timeless (p : Policy) : Bool :=
  p.notBefore == 0 && p.notAfter == maxOf 64 && p.quotaWindow == 0

/-- One window lies within another. -/
def Policy.within (p q : Policy) : Bool := decide (q.notBefore ≤ p.notBefore) && decide (p.notAfter ≤ q.notAfter)

/-- A usage is contained in another. -/
def usageIn (a b : Nat) : Bool := (a &&& b) == a

/-- The rules of a parent for a key with a creation block (R256). -/
def Policy.parentAllows (parent child : Policy) : Bool :=
  usageIn child.usage parent.childUsage && child.within parent &&
  (!child.exportable || parent.childExportable) && decide (parent.depth + 1 ≤ 8)

/-- The policy of a key deposited without a creation block (R257); `shared` per R258. -/
def Policy.child (p : Policy) (len : Nat) (shared : Bool) : Policy :=
  { param := p.childParam, usage := p.childUsage, childUsage := p.childUsage, childParam := p.childParam,
    notBefore := p.notBefore, notAfter := p.notAfter, quotaWindow := 0, quotaOps := 0, materialLen := len,
    flags := b2n p.childExportable + 2 * b2n p.childExportable + 4 * b2n p.persistable + 8 * b2n shared,
    counter := 0, sealBy := p.sealBy, depth := p.depth + 1 }

end Sys2Proof.Machine
end

