-- ==== Sys2Proof/Machine/Formats.lean ====
section
/-! DEFINITION. The command formats: what each opcode accepts (R98, R104, R445, the command tables of the algorithm
chapters, R351), how its payload is laid out, and its fixed output length. -/

namespace Sys2Proof.Machine

open Sys2Proof

/-! ## The packet header (R62) -/

structure Hdr where
  opcode : Nat
  flags : Nat
  tag : Nat
  payLen : Nat
  cells : Nat
  fragCount : Nat
  keyA : Nat
  keyB : Nat
  stream : Nat
  param : Nat
  declared : Nat
  deadline : Nat
  outLimit : Nat
  check : Nat
  deriving DecidableEq, Repr

/-- Reads a 64-byte header (R62). -/
def hdrOf (b : Bytes) : Hdr :=
  { opcode := uAt b 0x00 2, flags := uAt b 0x02 2, tag := uAt b 0x04 4, payLen := uAt b 0x08 4, cells := uAt b 0x0C 2,
    fragCount := uAt b 0x0E 2, keyA := uAt b 0x10 8, keyB := uAt b 0x18 8, stream := uAt b 0x20 4,
    param := uAt b 0x24 4, declared := uAt b 0x28 8, deadline := uAt b 0x30 8, outLimit := uAt b 0x38 4,
    check := uAt b 0x3C 4 }

def Hdr.cont (h : Hdr) : Bool := bitOf h.flags 0
def Hdr.final (h : Hdr) : Bool := bitOf h.flags 1
def Hdr.timeBound (h : Hdr) : Bool := bitOf h.flags 4
def Hdr.keep (h : Hdr) : Bool := bitOf h.flags 5

/-! ## Opcodes -/

/-- What a handle field of a command may hold (R351). -/
inductive KeyNeed where
  | zero | optional | required
  deriving DecidableEq, Repr

structure Format where
  stream : Bool               -- a stream is allowed
  single : Bool               -- a single packet is allowed
  queues : Nat                -- bit 0 queue 0, bit 1 slice administration queue, bit 2 other queues (R445)
  keyA : KeyNeed
  keyB : KeyNeed
  parent : Bool               -- KEY_B is a parent
  param : Bool                -- PARAM names a set (or may be zero beside KEY_A)
  deriving DecidableEq, Repr

/-- A key generation. -/
def fmtKeygen : Format := ⟨false, true, 6, .zero, .optional, true, true⟩
/-- An encapsulation: public key by handle or in the payload, deposit under KEY_B. -/
def fmtEncaps : Format := ⟨false, true, 6, .optional, .required, true, true⟩
/-- A decapsulation, agreement or derivation. -/
def fmtDeposit : Format := ⟨false, true, 6, .required, .required, true, true⟩
/-- A command that names one key and nothing else. -/
def fmtKey : Format := ⟨false, true, 6, .required, .zero, false, true⟩
/-- A signature. -/
def fmtSign : Format := ⟨true, true, 6, .required, .zero, false, true⟩
/-- A verification. -/
def fmtVerify : Format := ⟨true, true, 6, .optional, .zero, false, true⟩
/-- A device administration command. -/
def fmtAdmin : Format := ⟨false, true, 1, .zero, .zero, false, false⟩
/-- A device administration stream. -/
def fmtAdminStream (single : Bool) : Format := ⟨true, single, 1, .zero, .zero, false, false⟩
/-- A slice administration command. -/
def fmtSliceAdmin : Format := ⟨false, true, 2, .zero, .zero, false, false⟩
/-- A key-store command that names one key and takes no PARAM. -/
def fmtStore : Format := ⟨false, true, 6, .required, .zero, false, false⟩
/-- A command without keys or PARAM on the given queues. -/
def fmtPlain (queues : Nat) : Format := ⟨false, true, queues, .zero, .zero, false, false⟩

/-- The base opcodes. -/
def baseOpcodes : List Nat :=
  [0x0101, 0x0102, 0x0103, 0x0104, 0x0105, 0x0106, 0x0107, 0x0108, 0x0109, 0x010A, 0x0120, 0x0130, 0x0140, 0x0141, 0x0150,
   0x0151, 0x0152, 0x0201, 0x0202, 0x0203] ++
  [0x1001, 0x1002, 0x1003, 0x1004, 0x1101, 0x1102, 0x1103, 0x1104, 0x1201, 0x1202, 0x1203, 0x1204, 0x1301, 0x1302, 0x1303,
   0x1304, 0x1305, 0x1401, 0x1402, 0x1403, 0x1404, 0x1405] ++
  [0x1501, 0x1502, 0x1503, 0x1504, 0x1511, 0x1512, 0x1513, 0x1514, 0x1801, 0x1802, 0x1803, 0x1811, 0x1812, 0x1813, 0x1A01,
   0x1A02, 0x1A03, 0x1A04] ++
  [0x2001, 0x2002, 0x2003, 0x2004, 0x2005, 0x2006, 0x2007, 0x2011, 0x2012, 0x2013, 0x2014, 0x2015, 0x2016, 0x3001, 0x3002,
   0x3101, 0x3102, 0x3111, 0x3112, 0x3113, 0x3201, 0x3202, 0x3203, 0x3204] ++
  [0x4001, 0x4002, 0x4003, 0x4004, 0x4005, 0x4006, 0x4007, 0x4008, 0x4009, 0x400A, 0x400B, 0x5001, 0x5002, 0x6001, 0x6002,
   0x6003, 0x6010]

/-- The format of an opcode of the base table; none: unassigned (R91). -/
def formatOf (op : Nat) : Option Format :=
  match op with
  | 0x0101 => some fmtAdmin | 0x0102 => some fmtAdmin | 0x0103 => some fmtAdmin | 0x0104 => some fmtAdmin
  | 0x0105 => some fmtAdmin | 0x0106 => some fmtAdmin | 0x0107 => some (fmtAdminStream false) | 0x0108 => some fmtAdmin
  | 0x0109 => some fmtAdmin | 0x010A => some fmtAdmin | 0x0120 => some fmtAdmin | 0x0130 => some fmtAdmin
  | 0x0140 => some fmtAdmin | 0x0141 => some (fmtAdminStream false) | 0x0150 => some (fmtAdminStream true)
  | 0x0151 => some fmtAdmin | 0x0152 => some fmtAdmin
  | 0x0201 => some fmtSliceAdmin | 0x0202 => some fmtSliceAdmin | 0x0203 => some fmtSliceAdmin
  | 0x1001 => some fmtKeygen | 0x1002 => some fmtEncaps | 0x1003 => some fmtDeposit | 0x1004 => some fmtKey
  | 0x1101 => some fmtKeygen | 0x1102 => some fmtSign | 0x1103 => some fmtVerify | 0x1104 => some fmtKey
  | 0x1201 => some fmtKeygen | 0x1202 => some fmtSign | 0x1203 => some fmtVerify | 0x1204 => some fmtKey
  | 0x1301 => some fmtKeygen | 0x1302 => some fmtSign | 0x1303 => some fmtVerify | 0x1304 => some fmtKey
  | 0x1305 => some fmtKey
  | 0x1401 => some fmtKeygen | 0x1402 => some fmtSign | 0x1403 => some fmtVerify | 0x1404 => some fmtKey
  | 0x1405 => some fmtKey
  | 0x1501 => some fmtKeygen | 0x1502 => some ⟨true, true, 6, .optional, .required, true, true⟩
  | 0x1503 => some fmtDeposit | 0x1504 => some fmtKey
  | 0x1511 => some fmtKeygen | 0x1512 => some fmtEncaps | 0x1513 => some fmtDeposit | 0x1514 => some fmtKey
  | 0x1801 => some fmtKeygen | 0x1802 => some fmtEncaps | 0x1803 => some fmtDeposit
  | 0x1811 => some fmtKeygen | 0x1812 => some fmtSign | 0x1813 => some fmtVerify
  | 0x1A01 => some fmtSign | 0x1A02 => some ⟨false, true, 6, .optional, .zero, false, true⟩
  | 0x1A03 => some (fmtPlain 6) | 0x1A04 => some (fmtPlain 6)
  | 0x2001 => some fmtKeygen | 0x2002 => some fmtSign | 0x2003 => some fmtVerify | 0x2004 => some fmtSign
  | 0x2005 => some fmtVerify | 0x2006 => some fmtDeposit | 0x2007 => some fmtKey
  | 0x2011 => some fmtKeygen | 0x2012 => some fmtSign | 0x2013 => some fmtVerify | 0x2014 => some fmtDeposit
  | 0x2015 => some ⟨false, true, 6, .optional, .zero, false, true⟩ | 0x2016 => some fmtKey
  | 0x3001 => some ⟨true, true, 6, .zero, .zero, false, true⟩ | 0x3002 => some ⟨false, true, 6, .zero, .zero, false, true⟩
  | 0x3101 => some fmtSign | 0x3102 => some fmtSign
  | 0x3111 => some fmtDeposit | 0x3112 => some fmtDeposit | 0x3113 => some fmtDeposit
  | 0x3201 => some fmtSign | 0x3202 => some fmtSign
  | 0x3203 => some ⟨false, true, 6, .required, .required, false, true⟩ | 0x3204 => some fmtDeposit
  | 0x4001 => some ⟨false, true, 6, .zero, .optional, true, false⟩
  | 0x4002 => some ⟨false, true, 6, .zero, .optional, true, false⟩
  | 0x4003 => some fmtStore | 0x4004 => some fmtStore | 0x4005 => some fmtStore | 0x4006 => some (fmtPlain 6)
  | 0x4007 => some ⟨false, true, 6, .zero, .required, true, false⟩ | 0x4008 => some fmtStore
  | 0x4009 => some ⟨true, true, 6, .zero, .zero, false, false⟩ | 0x400A => some (fmtPlain 2)
  | 0x400B => some (fmtPlain 7)
  | 0x5001 => some (fmtPlain 6) | 0x5002 => some (fmtPlain 7)
  | 0x6001 => some (fmtPlain 1) | 0x6002 => some (fmtPlain 1) | 0x6003 => some (fmtPlain 7) | 0x6010 => some (fmtPlain 7)
  | _ => none

/-! ## Opcodes that packs add (R351) -/

/-- The loaded command-format row of an opcode (R80 step 4). -/
def State.formatRow? (s : State) (op : Nat) : Option Bytes := s.start.image.formats.find? fun r => uAt r 0 2 == op

/-- What a KEYS field says of a handle. -/
def keyNeed : Nat → KeyNeed
  | 0 => .zero
  | 1 => .optional
  | _ => .required

/-- What a command-format row says. -/
def formatOfRow (r : Bytes) : Format :=
  let k := uAt r 5 1
  { stream := bitOf (uAt r 2 2) 0, single := true, queues := uAt r 4 1, keyA := keyNeed (fieldOf k 0 2)
    keyB := keyNeed (fieldOf k 2 2), parent := bitOf k 4, param := uAt r 0x18 2 != 0 }

/-- The row of an opcode that a pack has added. -/
def State.packRow? (s : State) (op : Nat) : Option Bytes :=
  match formatOf op with
  | some _ => none
  | none => s.formatRow? op

/-- A command that a pack has added. -/
def State.packOp (s : State) (op : Nat) : Bool := (s.packRow? op).isSome

/-- The format of an opcode: the chapters' for a base opcode, its row for one that a pack adds. -/
def State.formatFor (s : State) (op : Nat) : Option Format :=
  match formatOf op with
  | some f => some f
  | none => (s.formatRow? op).map formatOfRow

/-- The payload of a single or first packet keeps the lengths of a pack's row. -/
def packLengths (r : Bytes) (n : Nat) : Bool :=
  decide (uAt r 8 4 ≤ n) && decide (uAt r 0x0C 4 ≤ n) && (uAt r 0x10 4 == 0 || decide (n ≤ uAt r 0x10 4))

/-- The low half of a PARAM code without the pack bit. -/
def codeLow (p : Nat) : Nat := p % 2 ^ 15

/-- The sets an opcode of a group works with. -/
def paramFor (op p : Nat) : Bool :=
  let g := paramGroup p
  let low := codeLow p
  (setRow? p).isSome &&
  match op / 256 with
  | 0x10 => g == 0x10
  | 0x11 => g == 0x11
  | 0x12 => g == 0x12
  | 0x13 => g == 0x13
  | 0x14 => g == 0x14
  | 0x15 => g == 0x15 && (decide (op < 0x1510) == decide (low < 0x10))
  | 0x18 => g == 0x18 && (decide (op < 0x1810) == decide (low < 0x10))
  | 0x1A => if op = 0x1A01 then g == 0x1A else p == 0x00110003 || p == 0x00180013
  | 0x20 =>
    if op = 0x2002 ∨ op = 0x2003 then g == 0x20 && curveForm p == 1 && bitOf (curveUses p) 0
    else if op = 0x2004 ∨ op = 0x2005 then g == 0x20 && curveForm p == 3 && bitOf (curveUses p) 2
    else if op = 0x2006 then
      g == 0x20 && ((curveForm p == 1 && bitOf (curveUses p) 1) || (curveForm p == 2 && bitOf (curveUses p) 3))
    else if op < 0x2010 then g == 0x20 && curveForm p != 0
    else g == 0x20 && curveForm p == 0
  | 0x30 => g == 0x30 && (op != 0x3002 || decide (low < 0x20))
  | 0x31 =>
    if op = 0x3111 ∨ op = 0x3112 then g == 0x31 && decide (low < 0x20)
    else if op = 0x3113 then p == 0x00310022
    else g == 0x31
  | 0x32 => if op < 0x3203 then p == 0x00320001 else p == 0x00320002 || p == 0x00320003
  | _ => false

/-- The group of PARAM codes that the format of an opcode accepts (R351). -/
def paramGroupOf (op : Nat) : Nat :=
  match op / 256 with
  | 0x31 => 0x31
  | 0x32 => 0x32
  | g => g

/-- Step 5 accepts a PARAM field: a set of the opcode where no key gives one, otherwise zero or a loaded set of the
opcode's group; zero where the opcode takes none. LMS_KEYGEN takes any code of its group, which step 7 judges (R62, R157, R80, R125, R142, R200). -/
def State.paramOk (s : State) (f : Format) (h : Hdr) : Bool :=
  if !f.param then h.param == 0
  else if h.opcode = 0x1A01 then paramFor h.opcode h.param
  else match s.packRow? h.opcode with
    | some r => (h.param == 0 && h.keyA != 0) || (paramGroup h.param == uAt r 0x18 2 && paramLoaded h.param)
    | none =>
      if h.opcode = 0x1301 then paramGroup h.param == 0x13
      else if h.keyA = 0 then paramFor h.opcode h.param
      else h.param == 0 || paramFor h.opcode h.param || (paramGroup h.param == paramGroupOf h.opcode && paramLoaded h.param)

/-! ## Header fields of the payloads -/

/-- The hash length a KDF or MAC set gives: its digest. -/
def macLen (p : Nat) : Nat := (setRow p).out

/-- The legal values of the signing header (R132, R154). -/
def signHdrOk (op : Nat) (h : Hdr) (b : Bytes) : Bool :=
  let mode := uAt b 0 1
  let ph := uAt b 1 1
  let ctx := uAt b 2 1
  let sf := uAt b 3 1
  let verify := op % 256 == 3
  decide (16 ≤ b.length) && zeroAt b 4 12 &&
  (match mode with
   | 0 => ph == 0
   | 1 => (ph == 1 || ph == 2) && h.stream == 0
   | 2 => ph == 0 && ctx == 0 && h.stream == 0 && decide (op / 256 = 0x11)
   | _ => false) && (if verify then sf == 0 else decide (sf ≤ 1))

/-- The set-independent legal values of the classical header (R204). -/
def classicHdrOk (op : Nat) (h : Hdr) (b : Bytes) : Bool :=
  let mode := uAt b 0 1
  let hash := uAt b 1 1
  let ctx := uAt b 2 1
  let sf := uAt b 3 1
  let pad := uAt b 4 1
  let salt := uAt b 5 1
  let ed := decide (op = 0x2004 ∨ op = 0x2005)
  let rsa := decide (0x2010 ≤ op)
  decide (16 ≤ b.length) && zeroAt b 6 10 &&
  (if ed then mode == 0 else decide (mode ≤ 1)) && (mode == 0 || h.stream == 0) &&
  (if ed then hash == 0 else decide (1 ≤ hash ∧ hash ≤ 6)) && (ed || ctx == 0) &&
  (if op = 0x2002 then decide (sf ≤ 1) else sf == 0) &&
  (if rsa then pad == 1 || pad == 2 else pad == 0) &&
  (if pad = 2 then decide (salt ≤ hashLen hash) else salt == 0)

/-- The OAEP header (R208). -/
def oaepHdrOk (op : Nat) (b : Bytes) : Bool :=
  decide (16 ≤ b.length) && decide (1 ≤ uAt b 0 1 ∧ uAt b 0 1 ≤ 6) && uAt b 1 1 == 0 && decide (uAt b 2 2 ≤ 1024) &&
  zeroAt b 6 10 && (if op = 0x2014 then decide (16 ≤ uAt b 4 2 ∧ uAt b 4 2 ≤ 64) else uAt b 4 2 == 0)

/-- The digest header, its set known (R227). -/
def digestHdrOk (p : Nat) (b : Bytes) : Bool :=
  let low := codeLow p
  decide (16 ≤ b.length) && zeroAt b 8 8 &&
  (if 0x21 ≤ low then decide (1 ≤ uAt b 0 4 ∧ uAt b 0 4 ≤ 1048576) else uAt b 0 4 == 0) &&
  (if 0x31 ≤ low then decide (uAt b 4 2 ≤ 255) && decide (uAt b 6 2 ≤ 255) else uAt b 4 2 == 0 && uAt b 6 2 == 0)

/-- The set-independent part of the MAC header (R229). -/
def macHdrOk (b : Bytes) : Bool :=
  decide (16 ≤ b.length) && decide (uAt b 6 1 ≤ 1) && zeroAt b 7 9 && decide (16 ≤ uAt b 0 4) &&
  decide (uAt b 0 4 ≤ 64) && decide (uAt b 4 2 ≤ 255)

/-- The set-dependent part of the MAC header (R229). -/
def macHdrSet (p : Nat) (b : Bytes) : Bool :=
  if codeLow p < 0x20 then decide (uAt b 0 4 ≤ macLen p) && uAt b 4 2 == 0 && uAt b 6 1 == 0 else true

/-- The KDF header and exact length (R233). -/
def kdfHdrOk (op : Nat) (b : Bytes) : Bool :=
  let a := uAt b 0 2
  let c := uAt b 2 2
  decide (16 ≤ b.length) && decide (a ≤ 1024) && decide (c ≤ 1024) && decide (16 ≤ uAt b 4 2 ∧ uAt b 4 2 ≤ 128) &&
  (if op = 0x3111 then decide (uAt b 6 1 ≤ 1) else uAt b 6 1 == 0) && zeroAt b 7 9 &&
  (op != 0x3111 || uAt b 6 1 == 0 || a == 0) && b.length == 16 + a + c

/-- The seal and open headers (R235, R236). -/
def sealHdrOk (op : Nat) (b : Bytes) : Bool :=
  decide (32 ≤ b.length) && decide (uAt b 0 4 ≤ 4096) &&
  (op != 0x3201 || (decide (uAt b 0x10 1 ≤ 1) && zeroAt b 0x11 15 && (uAt b 0x10 1 != 0 || zeroAt b 4 12)))

/-- The batch header (R183). -/
def batchHdrOk (b : Bytes) : Bool :=
  decide (16 ≤ b.length) && decide (1 ≤ uAt b 8 4 ∧ uAt b 8 4 ≤ 65536) &&
  (uAt b 0xC 1 == 32 || uAt b 0xC 1 == 64) && zeroAt b 0xD 3

/-- Leaf count and digest length of a batch. -/
def batchBytes (b : Bytes) : Nat := uAt b 8 4 * uAt b 0xC 1

/-- The random header (R286). -/
def randomHdrOk (b : Bytes) : Bool :=
  let n := uAt b 0 4
  b.length == 16 && zeroAt b 5 11 && decide (1 ≤ n) &&
  match uAt b 4 1 with
  | 0 => decide (n ≤ 1048576)
  | 1 => decide (n ≤ 65536)
  | 2 => decide (n ≤ 4096)
  | _ => false

/-- The LOG_READ payload (R390). -/
def logHdrOk (b : Bytes) : Bool :=
  b.length == 16 && decide (uAt b 0 1 ≤ 1) && zeroAt b 1 3 && decide (1 ≤ uAt b 4 4 ∧ uAt b 4 4 ≤ 4096) &&
  (uAt b 0 1 == 1 || decide (uAt b 8 8 ≤ 255))

/-- The length of a public key of a set in a payload; HSS keys carry their own length (R158, R200). -/
def pkLenOk (p n : Nat) : Bool :=
  if paramGroup p = 0x13 then n == 52 || n == 60 else n == (setRow p).pk

/-! ## Where the message begins -/

/-- Octets of a first packet before the message or stream bytes; `p` is the set. Key and signature come from the
payload only where KEY_A is zero. -/
def headLen (op p : Nat) (h : Hdr) (b : Bytes) : Nat :=
  let pk := if h.keyA = 0 then (setRow p).pk else 0
  let sg := (setRow p).out
  match op with
  | 0x0107 => 32
  | 0x1102 => 16 + uAt b 2 1
  | 0x1103 => 16 + pk + sg + uAt b 2 1
  | 0x1202 => 16 + uAt b 2 1
  | 0x1203 => 16 + pk + sg + uAt b 2 1
  | 0x1303 => 16 + uAt b 0 4 + uAt b 4 4
  | 0x1403 => 16 + uAt b 0 4 + uAt b 4 4
  | 0x1812 => 16 + uAt b 0 1
  | 0x1813 => 16 + pk + sg + uAt b 0 1
  | 0x1A01 => 16
  | 0x1A02 => 80 + pk + (if p = 0x00180013 then 4723 else 4627)
  | 0x2002 => 16
  | 0x2003 => 16 + pk + sg
  | 0x2004 => 16 + uAt b 2 1
  | 0x2005 => 16 + pk + sg + uAt b 2 1
  | 0x2012 => 16
  | 0x2013 => 16 + pk + sg
  | 0x2014 => 16 + uAt b 2 2 + sg
  | 0x2015 => 16 + uAt b 2 2 + pk
  | 0x3001 => 16 + uAt b 4 2 + uAt b 6 2
  | 0x3101 => 16 + uAt b 4 2
  | 0x3102 => 16 + uAt b 4 2 + uAt b 0 4
  | 0x3201 => 32 + uAt b 0 4
  | 0x3202 => 32 + uAt b 0 4
  | _ => 0

/-- Octets of a first packet before its message: HDR_LEN of its row for an opcode that a pack adds (R351). -/
def State.headLen (s : State) (op p : Nat) (h : Hdr) (b : Bytes) : Nat :=
  match s.packRow? op with
  | some r => uAt r 8 4
  | none => Machine.headLen op p h b

/-! ## Payload layout (R80 step 5, R449) -/

/-- The checks of a single or first packet's payload that do not depend on the set. -/
def layoutFixed (h : Hdr) (b : Bytes) : Bool :=
  let n := b.length
  let op := h.opcode
  match op with
  | 0x0101 => n == 80
  | 0x0102 => n == 32
  | 0x0103 => n == 8
  | 0x0104 => n == 8
  | 0x0105 => n == 8
  | 0x0106 => decide (8 ≤ n) && n == 6315 + uAt b 4 4
  | 0x0107 => decide (32 ≤ n) && zeroAt b 0 4
  | 0x0108 => n == 8
  | 0x0109 => n == 8
  | 0x010A => n == 8
  | 0x0120 => n == 8
  | 0x0130 => logHdrOk b
  | 0x0140 => n == 0
  | 0x0141 => decide (28672 ≤ n)
  | 0x0150 => h.stream != 0 || n == 7395
  | 0x0151 => n == 7259
  | 0x0152 => n == 0
  | 0x0201 => n == 32
  | 0x0202 => n == 8
  | 0x0203 => n == 0
  | 0x1001 => n == 64
  | 0x1004 => n == 0
  | 0x1101 => n == 64
  | 0x1102 => signHdrOk op h b && decide (headLen op 0 h b ≤ n) && (uAt b 0 1 == 0 || n == headLen op 0 h b + 64)
  | 0x1103 => signHdrOk op h b
  | 0x1104 => n == 0
  | 0x1201 => n == 64
  | 0x1202 => signHdrOk op h b && decide (headLen op 0 h b ≤ n) && (uAt b 0 1 == 0 || n == headLen op 0 h b + 64)
  | 0x1203 => signHdrOk op h b
  | 0x1204 => n == 0
  | 0x1301 => n == 128
  | 0x1303 => decide (16 ≤ n) && zeroAt b 8 8 && (h.keyA == 0 || uAt b 0 4 == 0) && decide (headLen op 0 h b ≤ n)
  | 0x1304 => n == 0
  | 0x1305 => n == 0
  | 0x1401 => n == 128
  | 0x1403 => decide (16 ≤ n) && zeroAt b 8 8 && (h.keyA == 0 || uAt b 0 4 == 0) && decide (headLen op 0 h b ≤ n)
  | 0x1404 => n == 0
  | 0x1405 => n == 0
  | 0x1501 => n == 64
  | 0x1502 => if h.keyA = 0 then h.stream != 0 else n == 0 && h.stream == 0
  | 0x1504 => n == 0
  | 0x1511 => n == 64
  | 0x1512 => h.keyA == 0 || n == 0
  | 0x1514 => n == 0
  | 0x1002 => h.keyA == 0 || n == 0
  | 0x1801 => n == 64
  | 0x1802 => h.keyA == 0 || n == 0
  | 0x1811 => n == 64
  | 0x1812 => decide (16 ≤ n) && zeroAt b 1 15 && decide (headLen op 0 h b ≤ n)
  | 0x1813 => decide (16 ≤ n) && zeroAt b 1 15
  | 0x1A01 => batchHdrOk b && (h.stream != 0 || n == 16 + batchBytes b)
  | 0x1A02 => decide (80 ≤ n) && decide (uAt b 0 4 ≤ 2592000) && zeroAt b 4 12
  | 0x1A03 => decide (32 ≤ n)
  | 0x1A04 => n == 32
  | 0x2001 => n == 64
  | 0x2002 => classicHdrOk op h b && (uAt b 0 1 == 0 || n == 16 + hashLen (uAt b 1 1))
  | 0x2003 => classicHdrOk op h b
  | 0x2004 => classicHdrOk op h b && decide (headLen op 0 h b ≤ n)
  | 0x2005 => classicHdrOk op h b
  | 0x2007 => n == 0
  | 0x2011 => n == 96
  | 0x2012 => classicHdrOk op h b && (uAt b 0 1 == 0 || n == 16 + hashLen (uAt b 1 1))
  | 0x2013 => classicHdrOk op h b
  | 0x2014 => oaepHdrOk op b
  | 0x2015 => oaepHdrOk op b
  | 0x2016 => n == 0
  | 0x3001 => digestHdrOk h.param b && decide (headLen op 0 h b ≤ n)
  | 0x3101 => macHdrOk b && decide (headLen op 0 h b ≤ n)
  | 0x3102 => macHdrOk b && decide (headLen op 0 h b ≤ n)
  | 0x3111 => kdfHdrOk op b
  | 0x3112 => kdfHdrOk op b
  | 0x3113 => kdfHdrOk op b
  | 0x3201 => sealHdrOk op b && decide (headLen op 0 h b ≤ n)
  | 0x3202 => sealHdrOk op b && decide (headLen op 0 h b ≤ n)
  | 0x3203 => n == 0
  | 0x3204 => decide (16 ≤ n)
  | 0x4001 => n == 64
  | 0x4002 => decide (64 ≤ n)
  | 0x4003 => n == 0
  | 0x4004 => n == 0
  | 0x4005 => n == 0
  | 0x4006 => decide (0x50 ≤ n) && n == 0x50 + uAt b 0x0C 4
  | 0x4007 => n == 0
  | 0x4008 => decide (16 ≤ n) && decide (uAt b 4 2 ≤ 1) && zeroAt b 6 10 && n == 6323 + uAt b 0 4
  | 0x400A => n == 0
  | 0x5001 => randomHdrOk b
  | 0x5002 => n == 0
  | 0x6001 => n == 0
  | 0x6002 => n == 3357
  | 0x6003 => n == 0
  | 0x6010 => n == 32
  | _ => true

/-- e of RSA_KEYGEN: big-endian, zero meaning 65,537 (R209). -/
def rsaE (b : Bytes) : Nat :=
  let e := leNat (bytesAt b 64 32).reverse
  if e = 0 then 65537 else e

/-- The curve's EdDSA takes a context: its EDHASH is SHAKE256 (R204). -/
def edContext (p : Nat) : Bool := match curveOf p with | some c => c.edHash == 2 | none => false

/-- The checks of a single or first packet's payload that the set decides. -/
def layoutSet (p : Nat) (h : Hdr) (b : Bytes) : Bool :=
  let n := b.length
  let op := h.opcode
  let r := setRow p
  match op with
  | 0x1002 => h.keyA != 0 || n == r.pk
  | 0x1003 => n == r.out
  | 0x1103 => decide (headLen op p h b ≤ n) && (uAt b 0 1 == 0 || n == headLen op p h b + 64)
  | 0x1203 => decide (headLen op p h b ≤ n) && (uAt b 0 1 == 0 || n == headLen op p h b + 64)
  | 0x1503 => n == r.out
  | 0x1512 => h.keyA != 0 || n == r.pk
  | 0x1513 => n == r.out
  | 0x1802 => h.keyA != 0 || n == r.pk
  | 0x1803 => n == r.out
  | 0x1813 => decide (headLen op p h b ≤ n)
  | 0x1A02 => n == headLen op p h b
  | 0x2003 => decide (headLen op p h b ≤ n) && (uAt b 0 1 == 0 || n == headLen op p h b + hashLen (uAt b 1 1))
  | 0x2004 => edContext p || uAt b 2 1 == 0
  | 0x2005 => (edContext p || uAt b 2 1 == 0) && decide (headLen op p h b ≤ n)
  | 0x2006 => n == r.pk
  | 0x2011 => rsaE b % 2 == 1 && decide (65537 ≤ rsaE b)
  | 0x2013 => decide (headLen op p h b ≤ n) && (uAt b 0 1 == 0 || n == headLen op p h b + hashLen (uAt b 1 1))
  | 0x2014 => n == headLen op p h b
  | 0x2015 => decide (headLen op p h b ≤ n) &&
      decide (n - headLen op p h b + 2 * hashLen (uAt b 0 1) + 2 ≤ r.out)
  | 0x3101 => macHdrSet p b
  | 0x3102 => macHdrSet p b
  | _ => true

/-- The creation block of a payload is legal and names the command's set (R255). -/
def State.blockOk (s : State) (h : Hdr) (b : Bytes) : Bool :=
  let p := (s.policyAt b).param
  match h.opcode with
  | 0x4001 => s.creationOk (b.take 64) && (paramGroup p == 0x31 || paramGroup p == 0x32)
  | 0x4002 =>
    s.creationOk (b.take 64) && decide (paramGroup p ≤ 0x20) && paramGroup p != 0x1A &&
      (paramGroup p == 0x15 && decide (codeLow p < 0x10) || pkLenOk p (b.length - 64))
  | op =>
    if [0x1001, 0x1101, 0x1201, 0x1301, 0x1401, 0x1501, 0x1511, 0x1801, 0x1811, 0x2001, 0x2011].contains op then
      (if op = 0x1301 then s.creationBut (b.take 64) else s.creationOk (b.take 64)) && p == h.param
    else true

/-- The stateful key block's fixed fields (R160): reserved bytes and BLOCK. -/
def statefulBlockOk (h : Hdr) (b : Bytes) : Bool :=
  let k := b.drop 64
  let blk := uAt k 4 4
  (h.opcode != 0x1301 && h.opcode != 0x1401) ||
  (zeroAt k 1 3 && zeroAt k 0x18 8 &&
   (blk == 0 || (decide (1024 ≤ blk ∧ blk ≤ 1048576) && blk &&& (blk - 1) == 0)) &&
   (h.opcode == 0x1301 || (uAt k 0 1 == 0 && zeroAt k 8 16)))

/-! ## Streams (R66 to R68 and the owning chapters) -/

/-- DECLARED_LEN of a first packet is one that its opcode accepts: a base opcode's by its chapter, a pack's not zero
unless its row allows undeclared streams. -/
def declaredOk (r : Option Bytes) (h : Hdr) (b : Bytes) : Bool :=
  let d := h.declared
  match r with
  | some r => decide (0 < d) || bitOf (uAt r 2 2) 1
  | none =>
  match h.opcode with
  | 0x3001 => true
  | 0x1502 => d == (setRow h.param).pk
  | 0x1A01 => d == batchBytes b
  | 0x0150 => d == 7395
  | 0x0141 => d % 4096 == 0 && decide (32768 ≤ d ∧ d ≤ 16777216)
  | 0x1202 => decide (0 < d ∧ d ≤ 67108864)
  | 0x2004 => decide (0 < d ∧ d ≤ 67108864)
  | 0x3201 => decide (0 < d ∧ d ≤ 67108864)
  | 0x3202 => decide (0 < d ∧ d ≤ 67108864)
  | _ => decide (0 < d)

/-- FRAG_COUNT is one that the opcode accepts. -/
def fragsOk (r : Option Bytes) (h : Hdr) : Bool :=
  match r with
  | some r => if bitOf (uAt r 2 2) 2 then decide (h.fragCount ≤ uAt r 6 2) else h.fragCount == 0
  | none => if h.opcode = 0x3002 then decide (1 ≤ h.fragCount ∧ h.fragCount ≤ 256) else h.fragCount == 0

/-- The flag and field rules of a packet by itself (R62, R67): DEADLINE only with TIME_BOUND, CONT and FINAL only on a
stream, KEEP_CTX only on its FINAL packet; `r` is the row of an opcode that a pack adds. -/
def fieldsOk (f : Format) (r : Option Bytes) (h : Hdr) : Bool :=
  (h.timeBound || h.deadline == 0) && decide (h.stream ≤ 1024) &&
  (if h.stream = 0 then f.single && !h.cont && !h.final && h.declared == 0 && !h.keep
   else f.stream && (h.cont != h.final) && (!h.keep || h.final)) &&
  (f.keyA != .zero || h.keyA == 0) && (f.keyB != .zero || h.keyB == 0) &&
  (f.keyA != .required || h.keyA != 0) && (f.keyB != .required || h.keyB != 0) &&
  fragsOk r h

/-- The stream bytes a packet carries: on a first packet, or a single one, what follows its header part. -/
def streamBytes (p : Nat) (h : Hdr) (b : Bytes) (first : Bool) : Nat :=
  if first then b.length - headLen h.opcode p h b else b.length

/-! ## Fragment table (R64) -/

/-- The descriptors of a fragment table. -/
def fragsOf (n : Nat) (b : Bytes) : List (Nat × Nat) :=
  (List.range n).map fun i => (uAt b (8 * i) 4, uAt b (8 * i + 4) 4)

/-- The fragments stand in order, without overlap, inside the payload; `from` is where the next may begin. -/
def fragsInOrder (len : Nat) : Nat → List (Nat × Nat) → Bool
  | _, [] => true
  | lo, (o, l) :: t => decide (lo ≤ o) && decide (o + l ≤ len) && fragsInOrder len (o + l) t

/-! ## Fixed output (R80 step 6) -/

/-- n of an HSS level's LMS typecode: 32 for M32, 24 for M24 (R157). -/
def lmsN (t : Nat) : Nat := if (0x0A ≤ t ∧ t ≤ 0x0D) ∨ (0x14 ≤ t ∧ t ≤ 0x17) then 24 else 32

/-- The output length that an opcode has for a set, where it has one. -/
def fixedOut (op p : Nat) (b : Bytes) : Option Nat :=
  let r := setRow p
  match op with
  | 0x0101 => some 8
  | 0x0107 => some 8
  | 0x0109 => some 6307
  | 0x010A => some 128
  | 0x0120 => some 8
  | 0x0140 => some 80
  | 0x0201 => some 8
  | 0x0203 => some 80
  | 0x1001 => some (8 + r.pk)
  | 0x1002 => some (8 + r.out)
  | 0x1003 => some 8
  | 0x1004 => some r.pk
  | 0x1101 => some (8 + r.pk)
  | 0x1102 => some r.out
  | 0x1104 => some r.pk
  | 0x1201 => some (8 + r.pk)
  | 0x1202 => some r.out
  | 0x1204 => some r.pk
  | 0x1301 => some (8 + 28 + lmsN (uAt b 0x48 1))
  | 0x1305 => some 32
  | 0x1401 => some (8 + r.pk)
  | 0x1404 => some r.pk
  | 0x1405 => some 32
  | 0x1501 => some (8 + r.pk)
  | 0x1502 => some (8 + r.out)
  | 0x1503 => some 8
  | 0x1504 => some r.pk
  | 0x1511 => some (8 + r.pk)
  | 0x1512 => some (8 + r.out)
  | 0x1513 => some 8
  | 0x1514 => some r.pk
  | 0x1801 => some (8 + r.pk)
  | 0x1802 => some (8 + r.out)
  | 0x1803 => some 8
  | 0x1811 => some (8 + r.pk)
  | 0x1812 => some r.out
  | 0x1A02 => some 32
  | 0x2001 => some (8 + r.pk)
  | 0x2002 => some r.out
  | 0x2004 => some r.out
  | 0x2006 => some 8
  | 0x2007 => some r.pk
  | 0x2011 => some (8 + r.pk)
  | 0x2012 => some r.out
  | 0x2014 => some 8
  | 0x2015 => some r.out
  | 0x2016 => some r.pk
  | 0x3001 => some (if 0x21 ≤ codeLow p then uAt b 0 4 else r.out)
  | 0x3101 => some (uAt b 0 4)
  | 0x3111 => some 8
  | 0x3112 => some 8
  | 0x3113 => some 8
  | 0x3204 => some 8
  | 0x4001 => some 8
  | 0x4002 => some 8
  | 0x4003 => some 96
  | 0x4006 => some 8
  | 0x4007 => some 6307
  | 0x4009 => some 8
  | 0x400A => some 8
  | 0x400B => some 8
  | 0x5001 => some (uAt b 0 4)
  | 0x5002 => some 16
  | 0x6001 => some 24
  | 0x6002 => some 40
  | 0x6003 => some 40
  | 0x6010 => some 5155
  | _ => none

/-- The output length of a packet's opcode: FIXED_OUT of the row for one that a pack adds (R80 step 6, R351). -/
def State.fixedOut (s : State) (op p : Nat) (b : Bytes) : Option Nat :=
  match s.packRow? op with
  | some r => if uAt r 0x14 4 = 0 then none else some (uAt r 0x14 4)
  | none => Machine.fixedOut op p b

/-- The opcodes whose output length the set decides. -/
def outBySet (op : Nat) : Bool := decide (0x10 ≤ op / 256 ∧ op / 256 ≤ 0x20)

/-! ## Usage and deposits -/

/-- The usage bits of which KEY_A must have one; an empty list asks for none (the command tables). -/
def usageOf (op : Nat) : List Nat :=
  match op with
  | 0x1002 => [Use.encaps]
  | 0x1003 => [Use.decaps]
  | 0x1004 => [Use.encaps, Use.decaps]
  | 0x1102 => [Use.sign]
  | 0x1103 => [Use.verify]
  | 0x1104 => [Use.sign, Use.verify]
  | 0x1202 => [Use.sign]
  | 0x1203 => [Use.verify]
  | 0x1204 => [Use.sign, Use.verify]
  | 0x1302 => [Use.sign]
  | 0x1303 => [Use.verify]
  | 0x1304 => [Use.sign, Use.verify]
  | 0x1305 => [Use.sign]
  | 0x1402 => [Use.sign]
  | 0x1403 => [Use.verify]
  | 0x1404 => [Use.sign, Use.verify]
  | 0x1405 => [Use.sign]
  | 0x1502 => [Use.encaps]
  | 0x1503 => [Use.decaps]
  | 0x1504 => [Use.encaps, Use.decaps]
  | 0x1512 => [Use.encaps]
  | 0x1513 => [Use.decaps]
  | 0x1514 => [Use.encaps, Use.decaps]
  | 0x1802 => [Use.encaps]
  | 0x1803 => [Use.decaps]
  | 0x1812 => [Use.sign]
  | 0x1813 => [Use.verify]
  | 0x1A01 => [Use.sign]
  | 0x1A02 => [Use.verify]
  | 0x2002 => [Use.sign]
  | 0x2003 => [Use.verify]
  | 0x2004 => [Use.sign]
  | 0x2005 => [Use.verify]
  | 0x2006 => [Use.agree]
  | 0x2012 => [Use.sign]
  | 0x2013 => [Use.verify]
  | 0x2014 => [Use.decrypt]
  | 0x2015 => [Use.encrypt]
  | 0x3101 => [Use.mac]
  | 0x3102 => [Use.mac]
  | 0x3111 => [Use.derive]
  | 0x3112 => [Use.derive]
  | 0x3113 => [Use.derive]
  | 0x3201 => [Use.sealBit]
  | 0x3202 => [Use.openBit]
  | 0x3203 => [Use.wrap]
  | 0x3204 => [Use.unwrap]
  | _ => []

/-- The length of the secret that a command deposits without a creation block; none: it deposits none (R257). -/
def depositLen (op p : Nat) (b : Bytes) : Option Nat :=
  if [0x1002, 0x1003, 0x1502, 0x1503, 0x1512, 0x1513, 0x1802, 0x1803, 0x2006].contains op then some (setRow p).shared
  else if [0x2014, 0x3111, 0x3112, 0x3113].contains op then some (uAt b 4 2)
  else none

/-- The commands that create a key from a creation block. -/
def createsKey (op : Nat) : Bool :=
  [0x1001, 0x1101, 0x1201, 0x1301, 0x1401, 0x1501, 0x1511, 0x1801, 0x1811, 0x2001, 0x2011, 0x4001, 0x4002].contains op

/-- Step 4 of R143 applies: the command fills a new slot. -/
def deposits (op : Nat) : Bool :=
  createsKey op || [0x1002, 0x1003, 0x1502, 0x1503, 0x1512, 0x1513, 0x1802, 0x1803, 0x2006, 0x2014, 0x3111, 0x3112, 0x3113,
    0x3204, 0x4009].contains op

/-- The command fills a new slot: DEPOSITS of its row for an opcode that a pack adds (R143, R351). -/
def State.deposits (s : State) (op : Nat) : Bool :=
  match s.packRow? op with
  | some r => bitOf (uAt r 2 2) 4
  | none => Machine.deposits op

/-- The header of a packet, its PARAM as a set. -/
def State.hdrAt (s : State) (b : Bytes) : Hdr := { hdrOf b with param := s.setNum (hdrOf b).param }

end Sys2Proof.Machine
end

