-- ==== Sys2Proof/Machine/Vault.lean ====
section
/-! DEFINITION. Secrets at rest: vault records and extents sealed under the per-boot vault key, residencies as two shares,
and secrets of operations under masks (R28, R30, R31, R261). -/

namespace Sys2Proof.Machine

open Sys2Proof

/-! ## Masks -/

/-- A secret under a mask at least as long. -/
def Masked.of (mask m : Bytes) : Masked := { mask := fit m.length mask, value := xorBytes m (fit m.length mask) }

/-- The secret. -/
def Masked.open (x : Masked) : Bytes := xorBytes x.value x.mask

/-- Masking and opening give the secret back. -/
theorem Masked.open_of (mask m : Bytes) : (Masked.of mask m).open = m :=
  xorBytes_cancel m _ (by simp [fit_length])

/-- The mask of the results of an operation whose draw has number `k` (R28, R151). -/
def maskDraw (k n : Nat) : Bytes := (List.range n).map fun i => Config.drawByte k (2 ^ 32 + i)

/-! ## Records and extents (R261) -/

/-- A record before anything is sealed in it. -/
def Vault.none : Vault := { handle := 0, nonce := [], body := [], tag := [] }

/-- The nonce: the u32 record index, then the u64 write count. -/
def vaultNonce (idx count : Nat) : Bytes := le 4 idx ++ le 8 count

/-- The associated data: the handle and its generation, and for an extent six octets more. -/
def vaultAad (h : Nat) (extent : Bool) : Bytes :=
  le 8 h ++ le 4 (h % 2 ^ 24) ++ (if extent then ascii "EXTENT" else [])

/-- Seals a string for a handle. -/
def sealVault (key : Bytes) (idx count h : Nat) (extent : Bool) (m : Bytes) : Vault :=
  let iv := vaultNonce idx count
  let ct := gcmCrypt key iv m
  { handle := h, nonce := iv, body := ct, tag := gcmTag key iv (vaultAad h extent) ct }

/-- Opens what was sealed; none: the tag fails. -/
def Vault.open (key : Bytes) (extent : Bool) (v : Vault) : Option Bytes :=
  gcmOpen key v.nonce (vaultAad v.handle extent) v.body v.tag

/-- What was sealed opens. -/
theorem Vault.open_seal (key : Bytes) (idx count h : Nat) (extent : Bool) (m : Bytes) :
    (sealVault key idx count h extent m).open key extent = some m := by
  simp [sealVault, Vault.open, gcmOpen_seal]

/-- The `n` octets of a record or extent: the 32-octet header with handle, parent handle and nonce; what is sealed; at the
end the tag. -/
def Vault.bytes (v : Vault) (parent n : Nat) : Bytes :=
  fit 32 (le 8 v.handle ++ le 8 parent ++ v.nonce) ++ fit (n - 48) v.body ++ fit 16 v.tag

/-- What such octets hold; what is sealed keeps its length. -/
def Vault.ofBytes (v : Vault) (b : Bytes) (n : Nat) : Vault :=
  { handle := uAt b 0 8, nonce := bytesAt b 16 12, body := bytesAt b 32 v.body.length, tag := bytesAt b (n - 16) 16 }

/-- The longest material that a record holds. -/
def recordRoom : Nat := 896

/-- The vault keys exist (R271). -/
def KeyStore.vaultReady (k : KeyStore) : Bool := !k.vaultKey.isEmpty

/-- The material of a slot's key, unsealed by the key store controller under the vault key. -/
def Slot.material (x : Slot) (key : Bytes) : Bytes :=
  match x.extent with
  | some (_, e) => (e.open key true).getD []
  | none => ((x.sealed.open key false).getD []).drop 64

/-- The cause code of the alarm that opening a slot's record and extent raises: the tag of one fails (R261, R447). -/
def Slot.badVault (x : Slot) (key : Bytes) : Option Nat :=
  if (x.sealed.open key false).isNone then some 0x51
  else match x.extent with
    | some (_, e) => if (e.open key true).isNone then some 0x52 else none
    | none => none

/-- The least number, from `n` on, that a list does not hold; `fuel` bounds the search. -/
def leastFree (l : List Nat) : Nat → Nat → Nat
  | 0, n => n
  | f + 1, n => if l.contains n then leastFree l f (n + 1) else n

/-- The record and the extent that a new key takes: the least free ones. -/
def KeyStore.freeRecord (k : KeyStore) : Nat :=
  let l := (k.slots.vals.filter fun x => decide (x.st ≠ .free)).map Slot.record
  leastFree l l.length 0
def KeyStore.freeExtent (k : KeyStore) : Nat :=
  let l := k.slots.vals.filterMap fun x => if x.st = .free then none else x.extent.map Prod.fst
  leastFree l l.length 0

/-- A slot with its key sealed into record `r` and, where the material is longer than a record holds, extent `e`; `count`
is the write count. -/
def Slot.withKey (x : Slot) (key : Bytes) (h r e count : Nat) (p : Policy) (material : Bytes) : Slot :=
  if material.length ≤ recordRoom then
    { x with policy := p, record := r, sealed := sealVault key r count h false (p.bytes ++ material), extent := none }
  else
    { x with policy := p, record := r, sealed := sealVault key r count h false p.bytes
             extent := some (e, sealVault key r (count + 1) h true material) }

/-- The material that was sealed is the material that opens. -/
theorem Slot.material_withKey (x : Slot) (key : Bytes) (h r e count : Nat) (p : Policy) (m : Bytes)
    (hp : p.bytes.length = 64) : (x.withKey key h r e count p m).material key = m := by
  unfold Slot.withKey
  split
  · simp [Slot.material, Vault.open_seal, hp]
  · simp [Slot.material, Vault.open_seal]

/-! ## Residencies (R30, R31) -/

/-- Splits a material into two shares under a mask. -/
def Residency.split (h : Nat) (mask m : Bytes) : Residency :=
  { handle := h, share0 := fit m.length mask, share1 := xorBytes m (fit m.length mask) }

/-- The two shares of a residency together. -/
def Residency.value (x : Residency) : Bytes := xorBytes x.share1 x.share0

/-- The shares of a resident key make its material. -/
theorem Residency.value_split (h : Nat) (mask m : Bytes) : (Residency.split h mask m).value = m :=
  xorBytes_cancel m _ (by simp [fit_length])

/-- The residency of a handle in a region. -/
def State.residency (s : State) (r h : Nat) : Option Residency :=
  (s.keys.resident.getD r []).find? fun x => x.handle == h

/-! ## Saved stream contexts (R223) -/

/-- The associated data of a saved context: queue number, STREAM_ID and save counter. -/
def ctxAad (q id n : Nat) : Bytes := le 2 q ++ le 4 id ++ le 8 n

/-- A saved context as it is restored; none: its tag fails. -/
def SavedCtx.restore (key : Bytes) (q id : Nat) (x : SavedCtx) : Option Bytes :=
  if x.keyed then gcmOpen key (le 12 x.counter) (ctxAad q id x.counter) x.body x.tag else some x.body

/-! ## The stack as octets (R26, R308) -/

/-- Octet `k` of an operation context, from 16 KiB on of its scratch pages in order: what a core has stored there, or the
payload of the command, which stands at the start (log 60). -/
def Ctx.octet (c : Ctx) (k : Nat) : Byte := c.mem.getD k (c.payload.getD k 0)

/-- Stores octets there. -/
def Ctx.store (c : Ctx) : Nat → Bytes → Ctx
  | _, [] => c
  | k, b :: t => Ctx.store { c with mem := c.mem.putD k b (c.payload.getD k 0) } (k + 1) t

/-- Writes octets into a table of memory, where an unlisted address reads 0. -/
def putBytes : Nat → Bytes → Tab Byte → Tab Byte
  | _, [], m => m
  | a, b :: t, m => putBytes (a + 1) t (m.putD a b 0)

/-- The commands that hold scratch pages, page by page in the order of their contexts, behind the pages of streams: the
context and the place of the page there (DESIGN CHOICE, log 11). -/
def State.ctxPages (s : State) : List (Nat × Nat) :=
  s.ctxs.flatMap fun p => (List.range p.2.pages).map fun k => (p.1, k)

/-- Scratch pages that streams hold. -/
def State.streamPages (s : State) : Nat := ((s.queues.vals.map fun x => (x.streams.vals.map Stream.pages).sum)).sum

/-- What an offset of the stack holds of a command: its context number and the place there. -/
def State.hbmCtx (s : State) (off : Nat) : Option (Nat × Nat) :=
  if 2 ^ 32 ≤ off ∧ off < 2 ^ 32 + 2 ^ 30 then some ((off - 2 ^ 32) / 16384, off % 16384)
  else if 19058917376 ≤ off then
    let n := (off - 19058917376) / 65536
    if n < s.streamPages then none
    else (s.ctxPages[n - s.streamPages]?).map fun p => (p.1, 16384 + 65536 * p.2 + off % 65536)
  else none

/-- The first octets of the vault's records and of its extents (R26). -/
def vaultStart : Nat := 8321499136
def extentStart : Nat := vaultStart + 2 ^ 32

/-- The slot whose record or extent holds an offset of the stack, whether it is the extent, and the place there. -/
def State.vaultAt (s : State) (off : Nat) : Option (Nat × Bool × Nat) :=
  if vaultStart ≤ off ∧ off < extentStart then
    (s.keys.slots.find? fun p => decide (p.2.st ≠ .free) && p.2.record == (off - vaultStart) / 1024).map
      fun p => (p.1, false, (off - vaultStart) % 1024)
  else if extentStart ≤ off ∧ off < extentStart + 2 ^ 30 then
    (s.keys.slots.find? fun p => decide (p.2.st ≠ .free) && p.2.extent.map Prod.fst == some ((off - extentStart) / 16384)).map
      fun p => (p.1, true, (off - extentStart) % 16384)
  else none

/-- What a slot's record or its extent holds. -/
def Slot.vaultBytes (x : Slot) (extent : Bool) : Bytes :=
  match extent, x.extent with
  | true, some (_, e) => e.bytes x.parent 16384
  | _, _ => x.sealed.bytes x.parent 1024

/-- The same once octets have been stored there. -/
def Slot.setVault (x : Slot) (extent : Bool) (b : Bytes) : Slot :=
  match extent, x.extent with
  | true, some (n, e) => { x with extent := some (n, e.ofBytes b 16384) }
  | _, _ => { x with sealed := x.sealed.ofBytes b 1024, parent := uAt b 8 8 }

/-- Stores octets at a place of a slot's record or extent. -/
def Slot.putVault (x : Slot) (extent : Bool) (k : Nat) (b : Bytes) : Slot :=
  let v := x.vaultBytes extent
  x.setVault extent (v.take k ++ b ++ v.drop (k + b.length))

/-- One octet of HBM: the submission rings stand at the start of the stack, then the operation contexts, later the key vault,
and the scratch pages at its end (R26). -/
def State.hbmByte (s : State) (off : Nat) : Byte :=
  if off < 2 ^ 32 then s.window.getD off 0
  else match s.hbmCtx off with
    | some (i, k) => (match s.ctxs.find i with | some x => x.octet k | none => s.hbm.getD off 0)
    | none => match s.vaultAt off with
      | some (h, e, k) => (match s.keys.slots.find h with | some x => (x.vaultBytes e).getD k 0 | none => 0)
      | none => s.hbm.getD off 0

/-! ## HBM line metadata (R25) -/

/-- The octets of a 64-byte line. -/
def State.hbmLine (s : State) (line : Nat) : Bytes := (List.range 64).map fun i => s.hbmByte (64 * line + i)

/-- The 56-bit integrity tag of a line under the tag key. -/
def State.lineTag (s : State) (line : Nat) : Nat :=
  leNat (fit 7 (Config.prim .lineTag line [s.keys.tagKey, s.hbmLine line]))

/-- The 11 SECDED check bits over a line's data and its tag. -/
def State.lineCheck (s : State) (line : Nat) : Nat :=
  leNat (fit 2 (Config.prim .lineCheck line [s.hbmLine line, le 7 (s.lineTag line)])) % 2 ^ 11

/-- The 72 metadata bits of a line: tag, check bits, 5 reserved bits. -/
def State.lineMeta (s : State) (line : Nat) : Nat := s.lineTag line + 2 ^ 56 * s.lineCheck line

end Sys2Proof.Machine
end

