-- ==== Sys2Proof/Machine/Keys.lean ====
section
/-! DEFINITION. Handles, slots and key tests: lookup (R142, R254), validity (R57), quotas (R59, R102), reservation and
deposit (R143, R144, R257, R258), public keys, and how every handle field of a command is checked (R142, R256, R257). -/

namespace Sys2Proof.Machine

open Sys2Proof

/-! ## Handles (R254) -/

/-- The handle of slot `n` of a slice with generation `g`. -/
def handleOf (slice n g : Nat) : Nat := slice * 2 ^ 48 + n * 2 ^ 24 + g

/-- The key of a handle's slot in the slot table. -/
def slotKey (h : Nat) : Nat := h / 2 ^ 24

/-- What a handle names. -/
inductive Found where
  | live (x : Slot)
  | unknown
  | orphaned
  deriving DecidableEq, Repr

/-- Looks a handle up for a slice (R142, rules 1 and 2). -/
def State.findKey (s : State) (slice h : Nat) : Found :=
  if h / 2 ^ 48 ≠ slice then .unknown
  else match s.keys.slots.find (slotKey h) with
    | none => .unknown
    | some x =>
      if x.gen ≠ h % 2 ^ 24 then .unknown
      else match x.st with
        | .live => .live x
        | .orphaned => .orphaned
        | _ => .unknown

/-- The live slot of a handle, whatever the slice. -/
def State.liveKey (s : State) (h : Nat) : Option Slot :=
  match s.findKey (h / 2 ^ 48) h with
  | .live x => some x
  | _ => none

/-- Changes the slot of a handle. -/
def State.setSlot (s : State) (h : Nat) (f : Slot → Slot) : State :=
  { s with keys := { s.keys with slots := s.keys.slots.modify (slotKey h) f } }

/-- A slot counts against KEY_SLOTS (R260). -/
def Slot.used (x : Slot) : Bool := decide (x.st ≠ .free)

/-- Slots of a slice in use: live, reserved, and awaiting reclaim; a launched KEY_RESTORE counts its own. -/
def State.slotsUsed (s : State) (slice : Nat) : Nat :=
  (s.keys.slots.filter fun p => p.1 / 2 ^ 24 == slice && p.2.used).length +
  (s.ctxs.vals.filter fun c => c.slice == slice && c.opcode == 0x4006 && decide (c.phase = .running)).length

/-- A record longer than 896 octets lies in an extent (R261). -/
def Slot.inExtent (x : Slot) : Bool := x.used && x.extent.isSome

/-- Extents of a slice, and of the device. -/
def State.extents (s : State) (slice : Nat) : Nat :=
  (s.keys.slots.filter fun p => p.1 / 2 ^ 24 == slice && p.2.inExtent).length
def State.extentsAll (s : State) : Nat := (s.keys.slots.filter fun p => p.2.inExtent).length

/-- An extent is free for a slice beside those that launched commands have taken, `mine` in the slice and `all` in the
device (R261). -/
def State.extentFree (s : State) (slice slots mine all : Nat) : Bool :=
  decide (s.extents slice + mine < slots / 64) && decide (s.extentsAll + all < 65536)

/-- Caches keep the handles of live keys alone: a bumped key loses its residencies and entries at the boundary after
its bump (R31, R128, R174). -/
def State.sweepKeys (s : State) : State :=
  let live := fun h => (s.liveKey h).isSome
  { s with keys := { s.keys with
      prepared := s.keys.prepared.filter live
      mceCache := s.keys.mceCache.filter live
      preps := s.keys.preps.filter fun b => live b.id
      resident := s.keys.resident.mapVals fun _ l => l.filter fun x => live x.handle } }

/-- A slot that may be allocated: free and short of the last generation. -/
def State.slotOpen (s : State) (slice n : Nat) : Bool :=
  match s.keys.slots.find (slice * 2 ^ 24 + n) with
  | none => true
  | some x => decide (x.st = .free) && decide (x.gen < 0xFFFFFF)

/-- The least slot of a slice that may be allocated, from `n` on; `fuel` bounds the search. -/
def State.openSlot (s : State) (slice : Nat) : Nat → Nat → Option Nat
  | _, 0 => none
  | n, f + 1 => if s.slotOpen slice n then some n else State.openSlot s slice (n + 1) f

/-- A slot before its key. -/
def Slot.empty (gen : Nat) (st : SlotSt) : Slot :=
  { gen, st, parent := 0, policy := policyOf [], record := 0, sealed := Vault.none, extent := none, pub := [], quotaIdx := none, quotaCharged := 0,
    spentTo := none }

/-- Reserves the lowest free slot of a slice within its KEY_SLOTS (R143 step 4, R254). -/
def State.reserve (s : State) (slice limit : Nat) : Option (Nat × State) :=
  if limit ≤ s.slotsUsed slice then none
  else match s.openSlot slice 1 (s.keys.slots.length + 1) with
    | none => none
    | some n =>
      if 65536 < n then none
      else
        let k := slice * 2 ^ 24 + n
        let g := match s.keys.slots.find k with | some x => x.gen + 1 | none => 1
        some (handleOf slice n g,
          { s with keys := { s.keys with slots := s.keys.slots.put k (Slot.empty g .reserved) } })

/-- Puts a key into its slot, sealed into a vault record and where it is long into an extent (R261); it becomes live. -/
def State.deposit (s : State) (h parent : Nat) (p : Policy) (material pub : Bytes) : State :=
  let k := s.keys
  let x : Slot := { Slot.empty (h % 2 ^ 24) .live with parent := parent, pub := pub }
  let x := x.withKey k.vaultKey h k.freeRecord k.freeExtent k.vaultWrites p material
  { s with keys := { k with slots := k.slots.put (slotKey h) x, vaultWrites := k.vaultWrites + 2 } }

/-! ## Public keys -/

/-- The classical public key of a private value (R200, R207); RSA keeps it in the CRT set. -/
def classicPublic (p : Nat) (d : Bytes) : Bytes :=
  match curveOf p with
  | some c => fit (setRow p).pk (c.public [] d)
  | none => fit (setRow p).pk (d.drop (5 * (rsaLen p / 2)))

/-- The public key that belongs to the stored secret of a set (R126, R153, R173, R200). -/
def pubOf (p : Nat) (m : Bytes) : Bytes :=
  let lat := latticePart p
  match paramGroup p with
  | 0x10 => fit (setRow p).pk (Config.prim .mlkemPublic p [m])
  | 0x11 => fit (setRow p).pk (Config.prim .mldsaPublic p [m])
  | 0x12 => m.drop (2 * slhN p)
  | 0x15 => fit (setRow p).pk (Config.prim (if codeLow p < 0x10 then .mcePublic else .hqcPublic) p [m])
  | 0x18 =>
    let n := (setRow lat).secret
    let q := if paramGroup lat = 0x10 then Config.prim .mlkemPublic lat [m.take n]
             else Config.prim .mldsaPublic lat [m.take n]
    fit (setRow lat).pk q ++ classicPublic (classicPart p) (m.drop n)
  | 0x20 => classicPublic p m
  | _ => []

/-- The public key of a slot: the stored one for public-only and stateful keys (R171, R263). -/
def Slot.publicKey (x : Slot) (key : Bytes) : Bytes :=
  if x.policy.publicOnly || x.policy.stateful then x.pub else pubOf x.policy.param (x.material key)

/-- The encoded public key of a handle. -/
def State.publicOf (s : State) (h : Nat) : Bytes :=
  match s.keys.slots.find (slotKey h) with
  | some x => x.publicKey s.keys.vaultKey
  | none => []

/-- The stored secret of a handle's slot, unsealed from the vault (R261). -/
def State.secretOf (s : State) (h : Nat) : Bytes :=
  match s.keys.slots.find (slotKey h) with
  | some x => x.material s.keys.vaultKey
  | none => []

/-- The policy of a handle's slot. -/
def State.policyOfKey (s : State) (h : Nat) : Policy :=
  match s.keys.slots.find (slotKey h) with
  | some x => x.policy
  | none => policyOf []

/-- The set of a command: PARAM, or that of KEY_A (R142, R449). -/
def State.effParam (s : State) (param keyA : Nat) : Nat :=
  if param ≠ 0 then param
  else if keyA = 0 then 0
  else (s.policyOfKey keyA).param

/-! ## Validity and quotas (R56, R57, R59, R102) -/

/-- The window test over [L - U, L + U] (R56, R57). -/
def State.windowTest (s : State) (lo hi : Nat) : Option Nat :=
  if !s.trusted then some St.timeUntrusted
  else
    let l := s.datum.v
    let u := s.unc
    if lo + u ≤ l ∧ l + u < hi then none
    else if l + u < lo then some St.keyNotYet
    else if hi + u ≤ l then some St.keyExpired
    else some St.timeUntrusted

/-- Validity of a named key: a key with no window and no quota involves no test (R255, R57). -/
def State.validity (s : State) (h : Nat) : Option Nat :=
  let p := s.policyOfKey h
  if p.timeless then none else s.windowTest p.notBefore p.notAfter

/-- A charge of one operation to a key's quota: the status of a key that has no room, or the charged slot (R59, R266). -/
def State.chargeSlot (s : State) (x : Slot) : Except Nat Slot :=
  if x.policy.quotaWindow = 0 then .ok x
  else if !s.trusted then .error St.timeUntrusted
  else
    let i := s.datum.v / x.policy.quotaWindow
    let spent := match x.spentTo with | some e => decide (i ≤ e) | none => false
    let n := if x.quotaIdx = some i then x.quotaCharged else 0
    if spent || decide (x.policy.quotaOps ≤ n) then .error St.quota
    else .ok { x with quotaIdx := some i, quotaCharged := n + 1 }

/-- Charges a handle; 0 names no key. Commands of group 0x40 have no key quota (R262). -/
def State.chargeKey (s : State) (opcode h : Nat) : Except Nat State :=
  if h = 0 || opcode / 256 == 0x40 then .ok s
  else match s.keys.slots.find (slotKey h) with
    | none => .ok s
    | some x => match s.chargeSlot x with
      | .error e => .error e
      | .ok y => .ok (s.setSlot h fun _ => y)

/-- The commands that the slice quota does not count (R102, R262, R446). -/
def uncharged (opcode : Nat) : Bool :=
  opcode / 256 == 1 || opcode / 256 == 2 || [0x6003, 0x5002, 0x1A04, 0x400A].contains opcode

/-- Charges one operation to the slice quota (R102). -/
def State.chargeSlice (s : State) (opcode slice : Nat) : Except Nat State :=
  match s.slices.find slice with
  | none => .ok s
  | some y =>
    if y.opsPerWindow = 0 || uncharged opcode then .ok s
    else if !s.trusted then .error St.timeUntrusted
    else
      let i := s.datum.v / y.quotaWindow
      let n := if y.window = some i then y.charged else 0
      if y.opsPerWindow ≤ n then .error St.quota
      else .ok (s.setSlice slice fun y => { y with window := some i, charged := n + 1 })

/-- Steps 2 and 3 of R143: validity of KEY_A then KEY_B, quotas of KEY_A then KEY_B, then the slice quota. All of them
pass before any of them is charged. -/
def State.keyTests (s : State) (c : Ctx) : Except Nat State :=
  match (if c.keyA = 0 then none else s.validity c.keyA) with
  | some st => .error st
  | none =>
    match (if c.keyB = 0 then none else s.validity c.keyB) with
    | some st => .error st
    | none =>
      match s.chargeKey c.opcode c.keyA with
      | .error st => .error st
      | .ok s1 =>
        match s1.chargeKey c.opcode c.keyB with
        | .error st => .error st
        | .ok s2 => s2.chargeSlice c.opcode c.slice

/-! ## Step 7 of the parse: keys and policy (R142) -/

/-- The mode bits a signing or sealing header needs (R133, R205, R236). -/
def modeBits (op : Nat) (b : Bytes) : List Nat :=
  if op = 0x1102 ∨ op = 0x1202 then
    (if uAt b 0 1 = 1 then [Use.prehash] else []) ++ (if uAt b 0 1 = 2 then [Use.externalMu] else []) ++
    (if uAt b 3 1 = 1 then [Use.deterministic] else [])
  else if op = 0x2002 ∨ op = 0x2012 then
    (if uAt b 0 1 = 1 then [Use.prehash] else []) ++ (if uAt b 3 1 = 1 then [Use.deterministic] else [])
  else if op = 0x3201 then (if uAt b 0x10 1 = 1 then [Use.hostIv] else [])
  else []

/-- The key of KEY_A belongs to the command's scheme, and PARAM is zero or its own set (R142 rule 3, R182). -/
def schemeOk (op param : Nat) (p : Policy) : Bool :=
  if op = 0x1A01 then p.param == 0x00110003 || p.param == 0x00180013
  else if op / 256 = 0x40 then true
  else paramFor op p.param && (param == 0 || param == p.param)

/-- The same for every opcode: a key of a pack's command belongs to the row's PARAM_GROUP (R351). -/
def State.schemeFits (s : State) (op param : Nat) (p : Policy) : Bool :=
  match s.packRow? op with
  | some r => (uAt r 0x18 2 == 0 || paramGroup p.param == uAt r 0x18 2) && (param == 0 || param == p.param)
  | none => schemeOk op param p

/-- A keyed set's key has a legal length; HKDF's PRK is at least as long as the hash (R142, R229, R233). -/
def keyLenFits (op : Nat) (p : Policy) (b : Bytes) : Bool :=
  if op / 256 = 0x31 then
    macKeyOk p.param p.materialLen && (op != 0x3111 || uAt b 6 1 == 0 || decide (macLen p.param ≤ p.materialLen))
  else if op / 256 = 0x32 then p.materialLen == 32
  else true

/-- What KEY_A's policy must allow beyond its usage bits (R238, R258, R262, R263, R264, R268). -/
def flagsFit (op : Nat) (p : Policy) : Bool :=
  match op with
  | 0x3203 => !p.shared
  | 0x4005 => p.persistable
  | 0x4008 => p.exportable && !p.stateful
  | _ => true

/-- The check of KEY_A (R142 rules 1 to 3). The key of a later packet was live at the first: it has been bumped since
(R242). -/
def State.checkKeyA (s : State) (slice : Nat) (h : Hdr) (b : Bytes) (first : Bool) : Option Nat :=
  if h.keyA = 0 then none
  else match s.findKey slice h.keyA with
    | .unknown => some (if first then St.keyUnknown else St.keyOrphaned)
    | .orphaned => some St.keyOrphaned
    | .live x =>
      let p := x.policy
      let need := usageOf h.opcode
      if !(need.isEmpty || need.any p.may) || !s.schemeFits h.opcode h.param p || !flagsFit h.opcode p then
        some St.usageDenied
      else if first && (!(modeBits h.opcode b).all p.may || !keyLenFits h.opcode p b) then some St.usageDenied
      else none

/-- The check of KEY_B: a parent needs DERIVE_PARENT, a key to wrap must allow it (R142 rules 1, 2 and 4, R238, R264). -/
def State.checkKeyB (s : State) (slice : Nat) (f : Format) (h : Hdr) : Option Nat :=
  if h.keyB = 0 then none
  else match s.findKey slice h.keyB with
    | .unknown => some St.keyUnknown
    | .orphaned => some St.keyOrphaned
    | .live x =>
      if f.parent && !x.policy.may Use.deriveParent then some St.usageDenied
      else if h.opcode = 0x3203 && (!x.policy.may Use.wrappable || x.policy.stateful) then some St.usageDenied
      else none

/-- The rules of the parent in KEY_B for the key a command makes (R256, R257, R268). -/
def State.checkParent (s : State) (h : Hdr) (p : Nat) (b : Bytes) : Option Nat :=
  let q := s.policyOfKey h.keyB
  if createsKey h.opcode then
    if h.keyB = 0 || q.parentAllows (s.policyAt b) then none else some St.usageDenied
  else match depositLen h.opcode p b with
    | some n => if decide (q.depth + 1 ≤ 8) && keyLenOk q.childParam n then none else some St.usageDenied
    | none =>
      if s.packOp h.opcode && h.keyB != 0 && decide (8 ≤ q.depth) then some St.usageDenied else
      if (h.opcode = 0x3204 || h.opcode = 0x4007) && decide (8 ≤ q.depth) then some St.usageDenied else none

/-- The usage bits that KEY_LOAD_PUBLIC allows (R263). -/
def publicUsage : Nat := 2 ^ Use.verify + 2 ^ Use.encaps + 2 ^ Use.encrypt + 2 ^ Use.prehash + 2 ^ Use.externalMu

/-- The shape of a stateful key block (R157): LEVELS, typecodes, one hash and n per level, heights of 60 at most. -/
def lmsHeight (t : Nat) : Nat := [0, 0, 0, 0, 0, 5, 10, 15, 20, 0, 5, 10, 15, 20, 0, 5, 10, 15, 20, 0, 5, 10, 15, 20].getD t 0

/-- The hash group of an LMS typecode: 1 SHA256_M32, 2 SHA256_M24, 3 SHAKE_M32, 4 SHAKE_M24; 0 unsupported. -/
def lmsGroup (t : Nat) : Nat :=
  if 0x05 ≤ t ∧ t ≤ 0x08 then 1 else if 0x0A ≤ t ∧ t ≤ 0x0D then 2 else if 0x0F ≤ t ∧ t ≤ 0x12 then 3
  else if 0x14 ≤ t ∧ t ≤ 0x17 then 4 else 0

/-- The hash group of an LM-OTS typecode. -/
def otsGroup (t : Nat) : Nat := if 1 ≤ t ∧ t ≤ 16 then (t - 1) / 4 + 1 else 0

/-- The width index of an LM-OTS typecode: 0 W1, 1 W2, 2 W4, 3 W8. -/
def otsWidth (t : Nat) : Nat := (t - 1) % 4

/-- The typecodes of level `i` of a stateful key block. -/
def blockLms (k : Bytes) (i : Nat) : Nat := uAt k (8 + 2 * i) 1
def blockOts (k : Bytes) (i : Nat) : Nat := uAt k (9 + 2 * i) 1

/-- A level's typecodes are supported and agree. -/
def levelOk (lms ots : Nat) : Bool := lmsGroup lms != 0 && lmsGroup lms == otsGroup ots

/-- An LMS/HSS key block within R157. -/
def lmsBlockOk (k : Bytes) : Bool :=
  let l := uAt k 0 1
  decide (1 ≤ l ∧ l ≤ 8) && (List.range l).all (fun i => levelOk (blockLms k i) (blockOts k i)) &&
  zeroAt k (8 + 2 * l) (16 - 2 * l) &&
  decide (((List.range l).map fun i => lmsHeight (blockLms k i)).sum ≤ 60)

/-- The stateful key generation's own checks at step 7 (R157, R161). -/
def State.checkStateful (s : State) (slice : Nat) (h : Hdr) (b : Bytes) : Option Nat :=
  if h.opcode ≠ 0x1301 ∧ h.opcode ≠ 0x1401 then none
  else match s.slices.find slice with
    | none => some St.usageDenied
    | some y =>
      if !bitOf y.flags 1 then some St.usageDenied
      else if 2048 ≤ (s.keys.slots.vals.filter fun x => decide (x.st = .live) && x.policy.stateful).length then some St.quota
      else if h.opcode = 0x1301 && (h.param != 0x00130001 || !lmsBlockOk (b.drop 64)) then some St.inputRejected
      else none

/-- PATH_LEN of a leaf (R186); `fuel` bounds the levels. -/
def pathLen : Nat → Nat → Nat → Nat
  | 0, _, _ => 0
  | f + 1, i, n =>
    if n ≤ 1 then 0
    else (if i % 2 = 1 ∨ i + 1 < n then 1 else 0) + pathLen f (i / 2) ((n + 1) / 2)

/-- path_len(i, n) for up to 65,536 leaves. -/
def pathLenOf (i n : Nat) : Nat := pathLen 17 i n

/-- The sum of PATH_LEN over the leaves of a batch (R184), level by level: at a level of n nodes, a carried last node
covers `n0 - (n - 1) * 2^k` leaves and contributes nothing. -/
def pathSum : Nat → Nat → Nat → Nat → Nat
  | 0, _, _, _ => 0
  | f + 1, n0, n, w =>
    if n ≤ 1 then 0
    else (if n % 2 = 0 then n0 else (n - 1) * w) + pathSum f n0 ((n + 1) / 2) (2 * w)

/-- OUT_TOTAL of a batch (R184). -/
def batchOut (keyParam leaves : Nat) : Nat :=
  (if keyParam = 0x00180013 then 4787 else 4691) + 16 * leaves + 32 * pathSum 17 leaves leaves 1

/-- The survey batch's own checks at step 7, on the head of its first packet: every packet is tested (R80, R184). -/
def State.checkSurvey (s : State) (q : Queue) (h : Hdr) (b : Bytes) : Option Nat :=
  if h.opcode ≠ 0x1A01 then none
  else if q.cqLog2 < 9 then some St.usageDenied
  else if h.outLimit < batchOut (s.policyOfKey h.keyA).param (uAt b 8 4) then some St.outLimit
  else none

/-- A slice's anchor under an identifier (R195). -/
def State.anchor (s : State) (slice : Nat) (id : Bytes) : Option Anchor :=
  s.keys.anchors.find? fun a => a.slice == slice && a.id == id && !a.dropped

/-- The anchor of an accepted VERIFY_BEARING: one dropped since still serves (R195). -/
def State.anchorHeld (s : State) (slice : Nat) (id : Bytes) : Option Anchor :=
  s.keys.anchors.find? fun a => a.slice == slice && a.id == id

/-- The other checks of owning chapters at step 7: anchors (R196), public key loads (R263), the IV count (R236). -/
def State.checkOwner (s : State) (slice : Nat) (h : Hdr) (b : Bytes) : Option Nat :=
  match h.opcode with
  | 0x1A03 => if (s.anchor slice (b.take 32)).isNone then some St.keyUnknown else none
  | 0x4002 =>
    let p := s.policyAt b
    if !usageIn p.usage publicUsage || (paramGroup p.param == 0x15 && decide (codeLow p.param < 0x10)) then
      some St.usageDenied
    else none
  | _ => none

/-- The queues of an opcode (R98, R445): 1 queue 0, 2 a slice's administration queue, 4 the others. -/
def Queue.kind (x : Queue) : Nat := if x.slice = 0 then 1 else if x.admin then 2 else 4

/-- Step 7 of R80 for a packet whose opcode has a base format. `first`: it begins its command. -/
def State.step7 (s : State) (x : Queue) (f : Format) (h : Hdr) (b : Bytes) (first : Bool) : Option Nat :=
  if f.queues &&& x.kind = 0 then some St.usageDenied
  else match s.checkKeyA x.slice h b first with
    | some st => some st
    | none => match s.checkKeyB x.slice f h with
      | some st => some st
      | none =>
        if !first then s.checkSurvey x h b
        else
          let p := s.effParam h.param h.keyA
          match s.checkParent h p b with
          | some st => some st
          | none => match s.checkStateful x.slice h b with
            | some st => some st
            | none => match s.checkOwner x.slice h b with
              | some st => some st
              | none => s.checkSurvey x h b

end Sys2Proof.Machine
end

