-- ==== Sys2Proof/Machine/Leaves.lean ====
section
/-! DEFINITION. The leaves and cached trees of a stateful key: what a signature waits for, and the assignment of a leaf
(R162, R164, R165, R167). -/

namespace Sys2Proof.Machine

open Sys2Proof

/-- The KEY_ID of a stateful key's slot (R255). -/
def State.keyIdOf (s : State) (h : Nat) : Nat := (s.policyOfKey h).counter

/-- The tree of a key at a level, if it has an entry. -/
def State.tree (s : State) (id level : Nat) : Option Tree :=
  s.stateful.trees.find? fun t => t.keyId == id && t.level == level

/-- Every tree of a key is cached (R162). -/
def State.treesCached (s : State) (id : Nat) : Bool :=
  match s.stateful.keys.find id with
  | some l => (List.range l.heights.length).all fun j =>
      match s.tree id j with | some t => t.left == 0 | none => false
  | none => false

/-- What the next signature of a stateful key meets at steps 4 to 6 of R167. -/
inductive LeafState where
  | exhausted
  | waits
  | ready (leaf : Nat)
  deriving DecidableEq, Repr

/-- Steps 4 to 6 of R167 for the key of a handle; a key with no valid record is exhausted (R170). -/
def State.leafState (s : State) (h : Nat) : LeafState :=
  match s.stateful.keys.find (s.keyIdOf h) with
  | none => .exhausted
  | some l =>
    if l.total ≤ l.next then .exhausted
    else if !s.treesCached (s.keyIdOf h) || decide (l.reservedEnd ≤ l.next) then .waits
    else .ready l.next

/-- The levels whose trees end with leaf `n - 1`: `n` is a multiple of the leaves below one tree of the level (R162). -/
def rolledLevels (heights : List Nat) (n : Nat) : List Nat :=
  (List.range heights.length).filter fun j => n % 2 ^ (heights.drop j).sum == 0

/-- The trees of a key after leaf `n - 1` has been issued: an ended tree leaves the cache, and the next bottom tree
takes the bottom place where it has an entry (R162). -/
def rollTrees (id : Nat) (l : Leaves) (n : Nat) (trees : List Tree) : List Tree :=
  if l.total ≤ n then trees
  else
    let rolled := rolledLevels l.heights n
    let kept := trees.filter fun t => t.keyId != id || !rolled.contains t.level
    if rolled.isEmpty then kept
    else kept.map fun t =>
      if t.keyId = id ∧ t.level = l.heights.length then { t with level := l.heights.length - 1 } else t

/-- The parts of a build that is under way go with its tree when it takes the bottom place. -/
def rollBuilds (id : Nat) (l : Leaves) (n : Nat) (builds : List Build) : List Build :=
  if l.total ≤ n ∨ (rolledLevels l.heights n).isEmpty then builds
  else builds.map fun b => if b.id = id ∧ b.level = l.heights.length then { b with level := l.heights.length - 1 } else b

/-- Assigns the next leaf of the key of a handle; its trees become the most recently used. -/
def State.assignLeaf (s : State) (h : Nat) : State :=
  let id := s.keyIdOf h
  match s.stateful.keys.find id with
  | none => s
  | some l =>
    let trees := rollTrees id l (l.next + 1) s.stateful.trees
    let trees := trees.filter (fun t => t.keyId != id) ++ trees.filter (fun t => t.keyId == id)
    { s with stateful := { s.stateful with
      keys := s.stateful.keys.put id { l with next := l.next + 1 }
      trees := trees
      builds := rollBuilds id l (l.next + 1) s.stateful.builds } }

end Sys2Proof.Machine
end

