-- ==== Sys2Proof/Machine/Hss.lean ====
section
/-! DEFINITION. The shapes of LMS/HSS and XMSS keys and signatures, as far as tick counts and rejections depend on
them (R157 to R159, R171; encodings of RFC 8554). -/

namespace Sys2Proof.Machine

open Sys2Proof

/-- The big-endian field of `n` octets at an offset. -/
def beAt (b : Bytes) (off n : Nat) : Nat := leNat (bytesAt b off n).reverse

/-- n of an LM-OTS typecode. -/
def otsN (t : Nat) : Nat := if otsGroup t = 2 ∨ otsGroup t = 4 then 24 else 32

/-- Chains of an LM-OTS typecode (RFC 8554, SP 800-208). -/
def otsChains (t : Nat) : Nat :=
  if otsN t = 32 then [265, 133, 67, 34].getD (otsWidth t) 0 else [200, 101, 51, 26].getD (otsWidth t) 0

/-- Octets of an LMS signature with the typecodes given. -/
def lmsSigLen (lms ots : Nat) : Nat := 4 + 4 + otsN ots * (1 + otsChains ots) + 4 + lmsHeight lms * lmsN lms

/-- One level of a parsed signature: leaf index, LM-OTS typecode, LMS typecode. -/
structure LmsLevel where
  q : Nat
  ots : Nat
  lms : Nat
  deriving DecidableEq, Repr

/-- Reads the level signature at an offset; none: a typecode that is not supported, or too few octets. -/
def lmsLevelAt (b : Bytes) (off : Nat) : Option LmsLevel :=
  let ots := beAt b (off + 4) 4
  if otsGroup ots = 0 ∨ b.length < off + 8 then none
  else
    let lo := off + 8 + otsN ots * (1 + otsChains ots)
    let lms := beAt b lo 4
    if b.length < lo + 4 ∨ !levelOk lms ots then none
    else some { q := beAt b off 4, ots, lms }

/-- The levels of an HSS signature from an offset: each is followed by the next level's public key. -/
def hssLevels (b : Bytes) : Nat → Nat → List (Option LmsLevel)
  | 0, _ => []
  | n + 1, off =>
    match lmsLevelAt b off with
    | none => List.replicate (n + 1) none
    | some l =>
      let off' := off + lmsSigLen l.lms l.ots
      let pk := lmsN (beAt b off' 4)
      some l :: hssLevels b n (off' + 24 + pk)

/-- Levels that an HSS public key declares; 8 where it declares none that is supported (R159). -/
def hssL (pk : Bytes) : Nat :=
  let l := beAt pk 0 4
  if 1 ≤ l ∧ l ≤ 8 then l else 8

/-- Verify ticks of an LM-OTS typecode (R171). -/
def lmsVerifyTicks (ots : Nat) : Nat := [16, 14, 21, 105].getD (otsWidth ots) 105

/-- The LM-OTS typecode that a signature declares for each level; 0: not readable. -/
def hssDeclared (b : Bytes) : Nat → Nat → List Nat
  | 0, _ => []
  | n + 1, off =>
    let ots := if off + 8 ≤ b.length then beAt b (off + 4) 4 else 0
    match lmsLevelAt b off with
    | none => (if otsGroup ots = 0 then 0 else ots) :: List.replicate n 0
    | some l =>
      let off' := off + lmsSigLen l.lms l.ots
      ots :: hssDeclared b n (off' + 24 + lmsN (beAt b off' 4))

/-- The verify count of an HSS signature: set by public data alone (R159). -/
def hssTicks (pk sig : Bytes) : Nat :=
  ((hssDeclared sig (hssL pk) 4).map fun t => if otsGroup t = 0 then 105 else lmsVerifyTicks t).sum

/-- The total length of an HSS signature with `n` levels from an offset, where every level can be read. -/
def hssSigLen (b : Bytes) : Nat → Nat → Option Nat
  | 0, off => some off
  | n + 1, off =>
    match lmsLevelAt b off with
    | none => none
    | some l =>
      let off' := off + lmsSigLen l.lms l.ots
      if n = 0 then some off' else hssSigLen b n (off' + 24 + lmsN (beAt b off' 4))

/-- The HSS public key is within R157: its level count, its top typecodes, its length. -/
def hssKeyShape (pk : Bytes) : Bool :=
  let l := beAt pk 0 4
  decide (1 ≤ l ∧ l ≤ 8) && levelOk (beAt pk 4 4) (beAt pk 8 4) && pk.length == 28 + lmsN (beAt pk 4 4)

/-- The HSS key and signature fit each other and their lengths (R157, R159). -/
def hssShape (pk sig : Bytes) : Bool :=
  let l := beAt pk 0 4
  hssKeyShape pk && beAt sig 0 4 + 1 == l &&
  (hssLevels sig l 4).all (fun x => match x with | some y => decide (y.q < 2 ^ lmsHeight y.lms) | none => false) &&
  decide (((hssLevels sig l 4).map fun x => match x with | some y => lmsHeight y.lms | none => 0).sum ≤ 60) &&
  hssSigLen sig l 4 == some sig.length

/-- n of an XMSS or XMSS^MT set (log 12): the public key is 4 + 2n octets. -/
def xmssN (p : Nat) : Nat := ((setRow p).pk - 4) / 2

/-- Octets of the leaf index in a signature: 4 for XMSS, ceil(h / 8) for XMSS^MT (RFC 8391). -/
def xmssIdxLen (p : Nat) : Nat := if fieldOf p 8 8 = 1 then ceilDiv (xmssHeight p) 8 else 4

/-- WOTS+ chains for w = 16. -/
def wotsLen (n : Nat) : Nat := if n = 24 then 51 else 67

/-- Octets of an XMSS or XMSS^MT signature. -/
def xmssSigLen (p : Nat) : Nat :=
  xmssIdxLen p + xmssN p + (xmssLayers p * wotsLen (xmssN p) + xmssHeight p) * xmssN p

/-- The XMSS public key carries the OID of its set (R158). -/
def xmssKeyShape (p : Nat) (pk : Bytes) : Bool := pk.length == (setRow p).pk && beAt pk 0 4 == p % 256

/-- The XMSS key and signature fit the set (R158, R159). -/
def xmssShape (p : Nat) (pk sig : Bytes) : Bool :=
  xmssKeyShape p pk && sig.length == xmssSigLen p && decide (beAt sig 0 (xmssIdxLen p) < 2 ^ xmssHeight p)

/-- The stateful key block's shape octets that a stateful key's slot keeps beside its seed (log 29). -/
def State.shapeOf (s : State) (h : Nat) : Bytes := (s.secretOf h).drop 32

/-- The number of levels of a stateful key. -/
def State.levelsOf (s : State) (h : Nat) : Nat :=
  let p := (s.policyOfKey h).param
  if paramGroup p = 0x14 then xmssLayers p else uAt (s.shapeOf h) 0 1

/-- The LM-OTS typecode of the bottom level of an LMS key. -/
def State.bottomOts (s : State) (h : Nat) : Nat :=
  let k := s.shapeOf h
  blockOts k (uAt k 0 1 - 1)

/-- Octets of a signature of a stateful key. -/
def State.statefulSigLen (s : State) (h : Nat) : Nat :=
  let p := (s.policyOfKey h).param
  if paramGroup p = 0x14 then xmssSigLen p
  else
    let k := s.shapeOf h
    let l := uAt k 0 1
    4 + ((List.range l).map fun i => lmsSigLen (blockLms k i) (blockOts k i)).sum +
      ((List.range (l - 1)).map fun i => 24 + lmsN (blockLms k (i + 1))).sum

end Sys2Proof.Machine
end

