-- ==== Sys2Proof/Machine/Journal.lean ====
section
/-! DEFINITION. The reservation journal of stateful keys (R166, R168, R169). -/

namespace Sys2Proof.Machine

open Sys2Proof

/-- FLAGS of a record: bit 0 EXHAUSTED, bit 1 HANDED_OVER. -/
def JRec.exhausted (r : JRec) : Bool := bitOf r.flags 0
def JRec.handedOver (r : JRec) : Bool := bitOf r.flags 1

/-- The 64 octets of a record (R168). -/
def JRec.bytes (r : JRec) : Bytes :=
  let b := le 2 1 ++ le 2 r.flags ++ le 4 0 ++ le 8 r.keyId ++ le 8 r.nextUnreserved ++ le 8 r.total ++ le 8 r.seq ++
    le 4 r.block ++ le 4 0 ++ le 8 r.handle ++ le 4 0
  b ++ le 4 (crc32c b)

/-- The fields of a word of the journal. -/
def jrecOf (b : Bytes) : JRec :=
  { flags := uAt b 2 2, keyId := uAt b 8 8, nextUnreserved := uAt b 0x10 8, total := uAt b 0x18 8, seq := uAt b 0x20 8
    block := uAt b 0x28 4, handle := uAt b 0x30 8, bad := uAt b 0 2 != 1 || uAt b 0x3C 4 != crc32c (b.take 0x3C) }

/-- The records of the words that have been written. -/
def Stateful.records (t : Stateful) : Tab JRec := t.journal.map fun p => (p.1, jrecOf p.2)

/-- The current record of a key: its valid record with the highest SEQUENCE (R169). -/
def currentRec (j : Tab JRec) (id : Nat) : Option JRec :=
  j.foldl (fun a p =>
    if p.2.bad || p.2.keyId != id then a
    else match a with
      | none => some p.2
      | some b => if b.seq < p.2.seq then some p.2 else some b) none

/-- The current record of a key of the device. -/
def State.recOf (s : State) (id : Nat) : Option JRec := currentRec s.stateful.records id

/-- A word that holds the current record of a key not marked EXHAUSTED: the pointer skips it (R169, rule 2). -/
def protectedWord (j : Tab JRec) (w : Nat) : Bool :=
  match j.find w with
  | none => false
  | some r => !r.bad && !r.exhausted && (match currentRec j r.keyId with | some c => c.seq == r.seq | none => false)

/-- The journal writes of the last second. -/
def Stateful.recent (t : Stateful) (now : Nat) : List Nat := t.writes.filter fun b => decide (now < b + 1000000)

/-- The write budget of R169, rule 5, has room, and no record waits for it. -/
def State.journalRoom (s : State) : Bool := decide ((s.stateful.recent s.now).length < 1024) && s.stateful.owed.isEmpty

/-- Puts a record into the journal: the next SEQUENCE, in the first open word from the pointer on (R169, rules 1 and 2). -/
def State.journalPut (s : State) (r : JRec) : State :=
  let t := s.stateful
  let words := (List.range 8192).map fun i => (t.ptr + i) % 8192
  match words.find? fun w => !protectedWord t.records w with
  | none => s
  | some w =>
    { s with stateful := { t with journal := t.journal.put w { r with seq := t.seqBase + 1 }.bytes, seqBase := t.seqBase + 1
                                  ptr := (w + 1) % 8192 } }

/-- A write that counts against the budget. -/
def State.journalNow (s : State) (r : JRec) : State :=
  let s := s.journalPut r
  { s with stateful := { s.stateful with writes := s.stateful.recent s.now ++ [s.now] } }

/-- Writes a record as soon as the budget allows: at once, or after those that wait (R169, rule 5). -/
def State.journalWrite (s : State) (keyId flags next total block handle : Nat) : State :=
  let r : JRec := { flags := flags, keyId := keyId, nextUnreserved := next, total := total, seq := 0, block := block
                    handle := handle, bad := false }
  if s.journalRoom then s.journalNow r
  else { s with stateful := { s.stateful with owed := s.stateful.owed ++ [r] } }

/-- The first record that waits is written once the budget has room. -/
def State.payJournal (s : State) : State :=
  match s.stateful.owed with
  | r :: l =>
    if (s.stateful.recent s.now).length < 1024 then
      ({ s with stateful := { s.stateful with owed := l } }).journalNow r
    else s
  | [] => s

/-- Marks a key exhausted in the journal, with HANDED_OVER for an export (R117, R166). -/
def State.exhaustRec (s : State) (keyId : Nat) (handedOver : Bool) : State :=
  match s.recOf keyId with
  | none => s
  | some r => s.journalWrite keyId (1 + 2 * b2n handedOver) r.total r.total r.block r.handle

/-- Removes a stateful key: its exhaustion record, its counters and its trees (R166). -/
def State.removeStateful (s : State) (keyId : Nat) : State :=
  let s := s.exhaustRec keyId false
  { s with stateful := { s.stateful with
      keys := s.stateful.keys.drop keyId
      trees := s.stateful.trees.filter fun t => t.keyId ≠ keyId
      builds := s.stateful.builds.filter fun b => b.id ≠ keyId } }

/-- The heights of the levels or layers of a stateful key (R157, R158). -/
def heightsOf (p : Nat) (material : Bytes) : List Nat :=
  if paramGroup p = 0x14 then List.replicate (xmssLayers p) (xmssHeight p / xmssLayers p)
  else (List.range (uAt material 32 1)).map fun i => lmsHeight (blockLms (material.drop 32) i)

/-- The leaves of a stateful key in all. -/
def totalLeaves (p : Nat) (material : Bytes) : Nat := 2 ^ (heightsOf p material).sum

/-- A stateful key resumes at the NEXT_UNRESERVED of its current record; with no valid record it stays exhausted
(R170, R266). -/
def State.resumeStateful (s : State) (keyId h p : Nat) (material : Bytes) : State :=
  match s.recOf keyId with
  | none => s
  | some r =>
    let l : Leaves := { next := r.nextUnreserved, reservedEnd := r.nextUnreserved, total := r.total, block := r.block,
                        heights := heightsOf p material, handle := h }
    { s with stateful := { s.stateful with keys := s.stateful.keys.put keyId l } }

/-- The public key of a stateful key, which its slot keeps from generation on (R171). -/
def statefulPub (p : Nat) (material : Bytes) : Bytes :=
  if paramGroup p = 0x14 then fit (setRow p).pk (Config.prim .xmssPublic p [material])
  else fit (28 + lmsN (blockLms (material.drop 32) 0)) (Config.prim .hssPublic p [material])

end Sys2Proof.Machine
end

