-- ==== Sys2Proof/Machine/Completion.lean ====
section
/-! DEFINITION. Collectors, the completion writer and completion entries (R82 to R90, R450). -/

namespace Sys2Proof.Machine

open Sys2Proof

/-! ## What a completion carries -/

/-- The part whose unit the completion names: the last that was launched, which stands first; of a hybrid, composite or
survey command the last on a sheet (R141, R188, R450). -/
def Ctx.unitPart (c : Ctx) : Option Part :=
  let any := c.parts.find? fun p => p.unit.isSome
  if c.opcode / 256 = 0x18 ∨ c.opcode / 256 = 0x1A then
    match c.parts.find? fun p => p.unit.isSome && p.kind == 0 with
    | some p => some p
    | none => any
  else any

/-- UNIT (R450); a command of the chief core names none, though a sheet verified its signature (R97, R408, R416). -/
def Ctx.unitField (c : Ctx) : Nat :=
  if chiefVerifies c.opcode then 0xFFFF
  else match c.unitPart with
  | some p => match p.unit with | some u => unitId u | none => 0xFFFF
  | none => 0xFFFF

/-- RETRY_COUNT: the largest of the parts' (R141, R360). -/
def Ctx.retryCount (c : Ctx) : Nat := (c.parts.map Part.retries).foldl max c.bearingTries

/-- HATCHED_SLOT (R53). -/
def Ctx.hatchedSlot (c : Ctx) : Bool := match c.unitPart with | some p => p.hatched | none => false

/-- The largest output of one entry of a ring of `n` cells (R83). -/
def entryRoom (n : Nat) : Nat := min 1024 (n / 4) * 64 - 32

/-- Splits an output into pieces of at most `m` octets; `fuel` bounds the pieces. -/
def splitOut (m : Nat) : Nat → Bytes → List Bytes
  | 0, b => [b]
  | f + 1, b => if b.length ≤ m then [b] else b.take m :: splitOut m f (b.drop m)

/-- The pieces of a completion's output: one of another status than ST_OK has none (R86). -/
def Result.pieces (r : Result) (n : Nat) : List Bytes :=
  if r.status ≠ St.ok then [[]]
  else if r.entries.isEmpty then splitOut (entryRoom n) (r.out.length / entryRoom n + 1) r.out
  else r.entries

/-- Marks the last entry of a chain. -/
def markLast : List Held → List Held
  | [] => []
  | [h] => [{ h with cont := false, last := true }]
  | h :: t => { h with cont := true, last := false } :: markLast t

/-- The entries of a context's completion (R82, R83, R86). -/
def Ctx.entries (c : Ctx) (i n : Nat) : List Held :=
  let r := c.result.getD (Result.bare St.unitFault)
  markLast ((r.pieces n).map fun out =>
    { ctx := some i, status := r.status, tag := c.tag, unit := c.unitField, launch := c.launchV, cont := false,
      retries := c.retryCount, hatched := c.hatchedSlot, out, last := false, notify := c.notify, staged := false })

/-! ## Writing an entry -/

/-- Cells of an entry (R82). -/
def Held.cells (h : Held) : Nat := ceilDiv (32 + h.out.length) 64

/-- Bytes 0x00 to 0x1B of an entry's header (R82, R84). -/
def Held.head (h : Held) (x : Queue) : Bytes :=
  le 1 (x.pass % 255 + 1) ++ le 1 (b2n h.cont + 2 * b2n (h.retries != 0) + 4 * b2n h.hatched) ++ le 2 h.status ++
  le 4 (if h.ctx.isNone then x.noticeTag.toNat else h.tag) ++ le 4 h.out.length ++ le 2 h.cells ++ le 2 h.unit ++
  le 8 h.launch ++ le 4 (if h.retries = 0 then x.h.toNat else h.retries)

/-- An entry's octets, padded to whole cells. -/
def Held.bytes (h : Held) (x : Queue) : Bytes :=
  fit (h.cells * 64) (h.head x ++ le 4 (crc32c (h.head x ++ h.out)) ++ h.out)

/-- Cells of a completion ring. -/
def Queue.cqCells (x : Queue) : Nat := 2 ^ x.cqLog2

/-- Cells of a submission ring. -/
def Queue.sqCells (x : Queue) : Nat := 2 ^ x.sqLog2

/-- Free cells of the completion ring (R85). -/
def Queue.cqFree (x : Queue) : Nat := x.cqCells - (x.p - x.c).toNat

/-- Writes an entry's cells into the ring, wrapping at its end (R73). -/
def ringWrite (space base n : Nat) : Nat → Nat → Bytes → Tab Byte → Tab Byte
  | 0, _, _, m => m
  | k + 1, slot, b, m =>
    ringWrite space base n k ((slot + 1) % n) (b.drop 64) (hostWrite space (base + slot * 64) (b.take 64) m)

/-- The address space of a queue's writes: its slice's PASID, or none for queue 0 (R95). -/
def State.queueSpace (s : State) (x : Queue) : Nat :=
  match s.slices.find x.slice with
  | some y => y.pasid + 1
  | none => 0

/-- The selective IDE stream that a queue's writes leave on: that of its slice's interface while it is locked or runs
(R121). -/
def State.boundStream (s : State) (x : Queue) : Option (BitVec 3) :=
  match s.slices.find x.slice with
  | some y => if y.tdi = .configLocked ∨ y.tdi = .run then y.ideStream else none
  | none => none

/-- A posted write of a queue's completions or head shadow (R85, R95, R121). -/
def State.postWrite (s : State) (x : Queue) (addr len : Nat) : State :=
  { s with bus := { s.bus with posted := some { space := s.queueSpace x, addr := addr, len := len, ide := s.boundStream x } } }

/-- A completion's last entry is written: the command is over, its context and pages are free (R27, R78, R372). -/
def State.retireCtx (s : State) (h : Held) : State :=
  match h.ctx with
  | none => s
  | some i =>
    match s.ctxs.find i with
    | none => s
    | some c =>
      let s := { s with ctxs := s.ctxs.drop i }
      let s := s.setSlice c.slice fun y => { y with completed := y.completed + 1, memUsed := y.memUsed - 64 * c.pages }
      { s with integ := { s.integ with
          retriesOne := satAdd 32 s.integ.retriesOne (b2n (h.retries == 1))
          retriesTwo := satAdd 32 s.integ.retriesTwo (b2n (h.retries == 2))
          unitFaults := satAdd 32 s.integ.unitFaults (b2n (h.status == St.unitFault)) } }

/-- A notice entry has been written: its count is recorded and begins anew (R77, R392). -/
def State.noticeWritten (s : State) (q : Nat) (x : Queue) : State :=
  let s := s.raise Ev.queDoorbellInvalid (Origin.queue q) x.slice x.noticeCount
  s.setQueue q fun x => { x with noticeCount := 0, noticeHeld := false }

/-- Writes one entry to its ring; the last entry of a completion posts the completion event (R84, R85, R374). -/
def State.writeEntry (s : State) (q : Nat) (x : Queue) (h : Held) : State :=
  let n := x.cqCells
  let slot := x.p.toNat % n
  let s := { s with host := ringWrite (s.queueSpace x) x.cqAddr n h.cells slot (h.bytes x) s.host }
  let s := s.postWrite x (x.cqAddr + 64 * slot) (64 * h.cells)
  let s := s.setQueue q fun x =>
    { x with p := x.p + BitVec.ofNat 32 h.cells, pass := x.pass + (slot + h.cells) / n, chainOpen := !h.last }
  if h.last then
    let s := if h.ctx.isNone then s.noticeWritten q x else s.retireCtx h
    s.postVector x.vector h.notify
  else s

/-- Writes the held entries of a queue in order while their cells fit (R90). -/
def State.flushList (q : Nat) : List Held → State → State
  | [], s => s.setQueue q fun x => { x with held := [] }
  | h :: t, s =>
    match s.queues.find q with
    | none => s
    | some x =>
      if h.cells ≤ x.cqFree then State.flushList q t (s.writeEntry q x h)
      else s.setQueue q fun x => { x with held := h :: t }

/-- Writes what a queue holds back, as far as its ring has room. -/
def State.flush (s : State) (q : Nat) : State :=
  match s.queues.find q with
  | some x => State.flushList q x.held s
  | none => s

/-- Octets of completion staging in use (R26). -/
def State.stagingUsed (s : State) : Nat :=
  (s.queues.vals.map fun x => (x.held.map fun h => if h.staged then 64 * h.cells else 0).sum).sum

/-- Held entries move into staging as far as its room goes; what does not fit stays in context and scratch pages (R90). -/
def stageHeld : Nat → List Held → List Held
  | _, [] => []
  | room, h :: t =>
    if h.staged then h :: stageHeld room t
    else if 64 * h.cells ≤ room then { h with staged := true } :: stageHeld (room - 64 * h.cells) t
    else h :: stageHeld room t

/-- Puts what a queue holds back into completion staging: 256 MiB (R26, R90). -/
def State.stage (s : State) (q : Nat) : State :=
  let room := 2 ^ 28 - s.stagingUsed
  s.setQueue q fun x => { x with held := stageHeld room x.held }

/-- Releases a decided command's entries for its ring (R83, R90). -/
def State.release (s : State) (i : Nat) : State :=
  match s.ctxs.find i with
  | none => s
  | some c =>
    match s.queues.find c.q with
    | none => { s with ctxs := s.ctxs.drop i }
    | some x =>
      let s := s.setCtx i fun c => { c with phase := .writing }
      (s.setQueue c.q fun y => { y with held := y.held ++ c.entries i x.cqCells }).flush c.q |>.stage c.q

/-! ## Collectors -/

/-- The admission key of a finished command (R89): units first, by region ordinal from the rotating start, then lane;
then what was decided without launch. -/
def Ctx.admitKey (c : Ctx) (start : Nat) : Nat :=
  match c.unitPart with
  | some p => match p.unit with
    | some u => ((unitOrd u + 26 - start) % 26) * 8 + p.lane
    | none => 1000
  | none => 1000

/-- Inserts by key, after equal keys. -/
def insertBy (x : Nat × Nat) : List (Nat × Nat) → List (Nat × Nat)
  | [] => [x]
  | y :: t => if x.1 < y.1 then x :: y :: t else y :: insertBy x t

/-- Sorts (key, context) pairs by key. -/
def sortBy (l : List (Nat × Nat)) : List (Nat × Nat) := l.foldl (fun a x => insertBy x a) []

/-- An earlier packet of the command's stream has not reached a collector: packets of a stream complete in ring order
(R66). -/
def State.streamBehind (s : State) (c : Ctx) : Bool :=
  c.stream != 0 && s.packets.any fun d =>
    d.q == c.q && d.stream == c.stream && decide (d.seq < c.seq) && decide (d.phase ≠ .collected) &&
    decide (d.phase ≠ .writing)

/-- The finished commands of a region in admission order. -/
def State.admission (s : State) (r : Nat) : List Nat :=
  let start := s.datum.v / 1000 % 26
  let l := s.ctxs.filter fun p => decide (p.2.phase = .finished) && !p.2.batch && p.2.region == r &&
    decide (p.2.finishedAt ≤ s.now) && !s.streamBehind p.2
  (sortBy (l.map fun p => (p.2.admitKey start, p.1))).map Prod.snd

/-- The collector of a region. -/
def State.collector (s : State) (r : Nat) : List Nat := s.collectors.getD r []

/-- A FINAL packet's completion reaches the collector: its STREAM_ID is free for a new stream, on the kept context
when it completed ST_OK with KEEP_CTX (R66, R70). -/
def State.endStream (s : State) (i : Nat) (c : Ctx) : State :=
  match s.stream c.q c.stream with
  | none => s
  | some e =>
    if e.finalCtx ≠ some i then s
    else if c.keep && decide (c.result.map Result.status = some St.ok) then
      (s.freeMem c.slice (64 * e.pages)).setStream c.q c.stream fun e =>
        { e with st := .kept, finalCtx := none, data := [], count := 0, pages := 0 }
    else s.dropStream c.q c.stream

/-- An export with DESTROY_SOURCE bumps its key at the next boundary once its result is released (R259, R268). -/
def State.destroySource (s : State) (c : Ctx) : State :=
  match c.result with
  | some r => if r.destroySource && r.status == St.ok then
      { s with keys := { s.keys with bumps := s.keys.bumps ++ [(c.keyA, s.now - 1)] } } else s
  | none => s

/-- One command enters its collector. -/
def State.enterCollector (s : State) (r i : Nat) : State :=
  match s.ctxs.find i with
  | none => s
  | some c =>
    let s := (s.endStream i c).destroySource c
    let s := s.setCtx i fun c => { c with phase := .collected, progress := s.now }
    { s with collectors := s.collectors.put r (s.collector r ++ [i]) }

/-- At a boundary the collector admits what has finished, as far as its 64 entries have room (R89). -/
def execCollectorAdmit (r : Nat) (s : State) : Out :=
  if 4 ≤ r then .fault .noSuchRegion
  else if s.unsettled then .next s
  else .next (((s.admission r).take (64 - (s.collector r).length)).foldl (fun t i => t.enterCollector r i) s)

/-- The first collector with an entry, from the writer's turn on; the entries of a region whose core is at fault are
held for their reruns (R357, R365). -/
def State.writerPick (s : State) : Option (Nat × Nat) :=
  (((List.range 4).map fun k => (s.writerNext + k) % 4).filter fun r => (s.integ.due.find r).isNone).findSome? fun r =>
    match s.collector r with
    | i :: _ => some (r, i)
    | [] => none

/-- The writer takes one collector entry, round-robin, and writes its completion or holds it (R85, R89, R90). -/
def execCompletionWrite (s : State) : Out :=
  match s.writerPick with
  | none => .next s
  | some (r, i) =>
    let s := { s with collectors := s.collectors.putD r (s.collector r).tail [], writerNext := (r + 1) % 4 }
    .next (s.release i)

end Sys2Proof.Machine
end

