-- ==== Sys2Proof/Machine/Rings.lean ====
section
/-! DEFINITION. Doorbells, notice entries, the queue window and the consumption of packets (R61 to R81, R107, R108,
R121, R371, R449). -/

namespace Sys2Proof.Machine

open Sys2Proof

/-! ## Doorbells -/

/-- Cells between the head and the tail (R72). -/
def Queue.fill (x : Queue) : Nat := (x.t - x.h).toNat

/-- An access to a locked slice's range that does not arrive on its bound stream (R121). -/
def State.offStream (s : State) (slice : Nat) (ide : Option (BitVec 3)) : Bool :=
  match s.slices.find slice with
  | some y => (decide (y.tdi = .configLocked) || decide (y.tdi = .run)) && decide (y.ideStream ≠ ide)
  | none => false

/-- Discards and counts such an access; the interface goes to ERROR (R120, R121, R392). -/
def State.ideDrop (s : State) (slice : Nat) : State :=
  match s.slices.find slice with
  | none => s
  | some y =>
    (s.setSlice slice fun y => { y with ideDrops := satAdd 32 y.ideDrops 1, tdi := .error }).raise Ev.slcIdeDrop
      (Origin.slice slice) (match y.ideStream with | some i => i.toNat | none => 0)

/-- Submission doorbells of a queue take effect (R96, R107, R108, R121). -/
def State.sqOpen (s : State) (x : Queue) : Bool :=
  s.ready && decide (x.st ≠ .shutting) &&
  match s.slices.find x.slice with
  | some y => (decide (y.st = .active) || decide (y.st = .frozen)) && decide (y.tdi ≠ .configLocked)
  | none => x.slice == 0

/-- Completion doorbells take effect as long as the queue writes completions (R108, R111). -/
def State.cqOpen (s : State) (x : Queue) : Bool :=
  s.ready &&
  match s.slices.find x.slice with
  | some y => decide (y.st ≠ .exported) && decide (y.tdi ≠ .configLocked)
  | none => x.slice == 0

/-- A discarded doorbell is counted and joins the queue's notice entry (R77). -/
def State.badDoorbell (s : State) (q : Nat) (v : BitVec 32) : State :=
  s.setQueue q fun x =>
    { x with invalid := satAdd 16 x.invalid 1, noticeCount := x.noticeCount + 1, noticeTag := v
             noticeSince := if x.noticeCount = 0 then s.now else x.noticeSince }

/-- SQ_DOORBELL (R75). -/
def State.sqDoorbell (s : State) (q : Nat) (v : BitVec 32) (ide : Option (BitVec 3)) : State :=
  match s.queues.find q with
  | none => s
  | some x =>
    if s.offStream x.slice ide then s.ideDrop x.slice
    else if !s.sqOpen x then s
    else if (v - x.t).toNat ≤ x.sqCells - x.fill then s.setQueue q fun x => { x with t := v }
    else s.badDoorbell q v

/-- CQ_DOORBELL (R76): released cells let held entries out (R90). -/
def State.cqDoorbell (s : State) (q : Nat) (v : BitVec 32) (ide : Option (BitVec 3)) : State :=
  match s.queues.find q with
  | none => s
  | some x =>
    if s.offStream x.slice ide then s.ideDrop x.slice
    else if !s.cqOpen x then s
    else if (v - x.c).toNat ≤ (x.p - x.c).toNat then (s.setQueue q fun x => { x with c := v }).flush q
    else if s.sqOpen x then s.badDoorbell q v
    else s

def execSqDoorbell (q : Nat) (v : BitVec 32) (ide : Option (BitVec 3)) (s : State) : Out := .next (s.sqDoorbell q v ide)

def execCqDoorbell (q : Nat) (v : BitVec 32) (ide : Option (BitVec 3)) (s : State) : Out := .next (s.cqDoorbell q v ide)

/-- The notice entry of a queue, released at the first boundary after its first discarded doorbell (R77). -/
def noticeHeldEntry (v : Nat) : Held :=
  { ctx := none, status := St.doorbellInvalid, tag := 0, unit := 0xFFFF, launch := v, cont := false, retries := 0,
    hatched := false, out := [], last := true, notify := false, staged := false }

def execNoticeEntry (q : Nat) (s : State) : Out :=
  match s.queues.find q with
  | none => .next s
  | some x =>
    if x.noticeCount = 0 || x.noticeHeld || decide (s.now ≤ x.noticeSince) || s.unsettled then .next s
    else
      .next ((s.setQueue q fun x =>
        { x with noticeHeld := true, held := x.held ++ [noticeHeldEntry s.datum.v] }).flush q)

/-! ## The queue window (R71, R94, R121) -/

/-- The doorbell page and ring that an offset of the window falls in: queue and offset from the page. -/
def State.windowQueue (s : State) (off : Nat) : Option (Nat × Nat) :=
  s.queues.findSome? fun p =>
    if p.2.sqBase ≤ off ∧ off < p.2.sqBase + 4096 + 64 * p.2.sqCells then some (p.1, off - p.2.sqBase) else none

/-- An offset lies in a doorbell page; queue 0's page stands whether the queue is enabled or not. -/
def State.inDoorbellPage (s : State) (off : Nat) : Bool :=
  decide (off < 4096) || match s.windowQueue off with | some (_, r) => decide (r < 4096) | none => false

/-- The slice whose window range holds an offset. -/
def State.windowSlice (s : State) (off : Nat) : Option Nat :=
  s.slices.findSome? fun p => if p.2.winBase ≤ off ∧ off < p.2.winBase + p.2.winSize then some p.1 else none

/-- Stores ring octets; octets of doorbell pages are ignored. -/
def State.windowStore (s : State) : Nat → Bytes → State
  | _, [] => s
  | off, b :: t =>
    let s' := if s.inDoorbellPage off || decide (2 ^ 32 ≤ off) then s
              else { s with window := s.window.putD off b 0 }
    State.windowStore s' (off + 1) t

/-- The cells of a queue's ring that its doorbells cover and that it has not consumed, as numbers of window cells. -/
def Queue.covered (x : Queue) : List Nat :=
  (List.range x.fill).map fun i => (x.sqBase + 4096 + (x.h.toNat + i) % 2 ^ x.sqLog2 * 64) / 64

/-- A host write of `len` octets rewrites cells that a doorbell covers: what a packet holds there is undefined from now on
(R74). -/
def State.rewrite (s : State) (off len : Nat) : State :=
  { s with queues := s.queues.mapVals fun _ x =>
      { x with undef := x.undef ++ x.covered.filter fun k =>
          decide (off < 64 * k + 64 ∧ 64 * k < off + len) && !x.undef.contains k } }

/-- Marks the cells of a write: a poisoned write marks every cell it touches, a clean one clears each cell it covers. -/
def markCells (poison : Bool) (off len : Nat) (m : Tab Nat) : Tab Nat :=
  (List.range ((off + len + 63) / 64 - off / 64)).foldl (fun m k =>
    let c := off / 64 + k
    if poison then m.put c 1
    else if off ≤ c * 64 ∧ (c + 1) * 64 ≤ off + len then m.drop c
    else m) m

/-- A host read or write of the queue window. Before READY it is not answered (R397); a naturally aligned 32-bit
write to a doorbell register rings it, and every read of a doorbell page returns zero. -/
def execQueueWindowAccess (isWrite : Bool) (off len : Nat) (data : Bytes) (ide : Option (BitVec 3)) (poison : Bool)
    (s : State) : Out :=
  if !s.ready then .next { s with bus := { s.bus with ur := !isWrite, bytes := [] } }
  else match (match s.windowSlice off with | some n => if s.offStream n ide then some n else none | none => none) with
    | some n => .next ({ s with bus := { s.bus with ur := !isWrite, bytes := [] } }.ideDrop n)
    | none =>
      if !isWrite then
        let b := (List.range (min len 4096)).map fun i =>
          if s.inDoorbellPage (off + i) then 0#8 else s.window.getD (off + i) 0
        .next { s with bus := { s.bus with ur := false, bytes := b } }
      else
        let s := { s with bus := { s.bus with ur := false } }
        match s.windowQueue off with
        | some (q, 0) =>
          if data.length = 4 && !poison then .next (s.sqDoorbell q (BitVec.ofNat 32 (leNat data)) ide) else
            .next (s.windowStore off data)
        | some (q, 4) =>
          if data.length = 4 && !poison then .next (s.cqDoorbell q (BitVec.ofNat 32 (leNat data)) ide) else
            .next (s.windowStore off data)
        | _ =>
          let s := (s.windowStore off data).rewrite off data.length
          .next { s with integ := { s.integ with poison := markCells poison off data.length s.integ.poison } }

/-! ## Consumption of a packet -/

/-- Window offset of the cell of a counter value. -/
def Queue.cellAt (x : Queue) (c : BitVec 32) : Nat := x.sqBase + 4096 + c.toNat % x.sqCells * 64

/-- The octets of a cell: those that the window holds, or free ones where the cell was rewritten after its doorbell (R74). -/
def State.cellOctets (s : State) (x : Queue) (c : BitVec 32) : Bytes :=
  let k := x.cellAt c / 64
  if x.undef.contains k then (List.range 64).map fun i => Config.freeByte s.free (64 * k + i)
  else (List.range 64).map fun i => s.window.getD (x.cellAt c + i) 0

/-- The octets of `n` cells from a counter value on. -/
def State.ringRead (s : State) (x : Queue) : Nat → BitVec 32 → Bytes
  | 0, _ => []
  | n + 1, c => s.cellOctets x c ++ State.ringRead s x n (c + 1)

/-- Some cell of a packet is marked. -/
def State.cellsMarked (s : State) (x : Queue) : Nat → BitVec 32 → Bool
  | 0, _ => false
  | n + 1, c => (s.integ.poison.find (x.cellAt c / 64)).isSome || State.cellsMarked s x n (c + 1)

/-- Steps 1 to 3 of R80: the failing status, if any, and the cells consumed. -/
def State.steps123 (s : State) (x : Queue) (h : Hdr) (head body : Bytes) : Option Nat × Nat :=
  let fits := decide (1 ≤ h.cells ∧ h.cells ≤ 1024 ∧ h.cells ≤ x.fill)
  let n := if fits then h.cells else 1
  if s.integ.poison.find (x.cellAt x.h / 64) = some 2 then (some St.hdrCheck, 1)
  else if crc32c (head.take 0x3C) ≠ h.check then (some St.hdrCheck, n)
  else if fits && decide (h.flags < 64) && decide (h.payLen + 64 ≤ h.cells * 64) && decide (h.fragCount ≤ 4096) &&
      decide (8 * h.fragCount ≤ h.payLen) && !s.cellsMarked x n x.h &&
      fragsInOrder h.payLen (8 * h.fragCount) (fragsOf h.fragCount body) then (none, n)
  else (some St.malformed, n)

/-- What decides a packet at its consumption. -/
inductive Verdict80 where
  | refused (status : Nat)
  | waits
  | accepted (first : Bool) (own operand : Nat)
  deriving DecidableEq, Repr

/-- The queue is being emptied: every packet completes ST_ABORTED (R107, R109, R110). -/
def State.emptied (s : State) (x : Queue) : Bool :=
  decide (x.st = .shutting) ||
  match s.slices.find x.slice with
  | some y => (y.squash && (decide (y.st = .resetting) || decide (y.st = .freezing))) || decide (y.st = .destroying)
  | none => false

/-- The slice is frozen or exported (R108). -/
def State.sliceFrozen (s : State) (x : Queue) : Bool :=
  match s.slices.find x.slice with
  | some y => decide (y.st = .frozen) || decide (y.st = .exported)
  | none => false

/-- An opcode whose format row is loaded: a base opcode by a base row, another by a pack's (R91, R351). -/
def State.opcodeLoaded (s : State) (op : Nat) : Bool := (s.formatRow? op).isSome

/-- The header values that shape a kept context (R234). -/
def keptValues (op : Nat) (b : Bytes) : Bytes :=
  if op = 0x3001 then bytesAt b 4 4 ++ bytesAt b 16 (uAt b 4 2 + uAt b 6 2)
  else if op = 0x3101 ∨ op = 0x3102 then bytesAt b 4 2 ++ bytesAt b 16 (uAt b 4 2)
  else []

/-- The first packet's checks of step 5 that its format makes (R80, R351, R449). -/
def State.firstOk (s : State) (h : Hdr) (b : Bytes) : Bool :=
  let r := s.packRow? h.opcode
  (match r with
   | some r => packLengths r b.length
   | none => layoutFixed h b && s.blockOk h b && statefulBlockOk h b && (h.param == 0 || layoutSet h.param h b)) &&
  (h.stream == 0 || declaredOk r h b)

/-- Step 5 of R80 for a packet, given its stream's entry: whether it is acceptable, and whether it is a first packet. -/
def State.step5 (s : State) (f : Format) (h : Hdr) (b : Bytes) (entry : Option Stream) : Bool × Bool :=
  let plain := fieldsOk f (s.packRow? h.opcode) h && s.paramOk f h
  match entry with
  | none => (plain && s.firstOk h b, true)
  | some e =>
    let same := e.opcode == h.opcode && e.keyA == h.keyA && e.keyB == h.keyB && e.param == h.param
    if e.st = .kept then (plain && same && s.firstOk h b && e.keptHead == keptValues h.opcode b, true)
    else (plain && same && h.declared == 0, false)

/-- The bytes that fix the output length of a command: its first packet's (R80 step 6). -/
def headBytes (entry : Option Stream) (b : Bytes) (first : Bool) : Bytes :=
  if first then b else match entry with | some e => e.head | none => b

/-- OUT_LIMIT is too small for the opcode's fixed output: step 6 of R80, which tests every packet. -/
def State.outShort (s : State) (h : Hdr) (p : Nat) (b : Bytes) : Bool :=
  match s.fixedOut h.opcode p b with
  | some n => decide (h.outLimit < n)
  | none => false

/-- Scratch pages that the owning chapters give a command, fixed by its first packet (R27, R155, R174, R193, R206, R237). -/
def State.chapterPages (s : State) (h : Hdr) (b : Bytes) : Nat :=
  let p := s.effParam h.param h.keyA
  let total := if h.stream = 0 then b.length - s.headLen h.opcode p h b else h.declared
  match h.opcode with
  | 0x3201 => ceilDiv (28 + total) 65536
  | 0x3202 => ceilDiv total 65536
  | 0x1202 => if total ≤ 4096 then 0 else ceilDiv total 65536
  | 0x2004 => if h.stream = 0 then 0 else ceilDiv total 65536
  | 0x1502 => if h.stream = 0 then 0 else ceilDiv total 65536
  | 0x1A01 =>
    let n := uAt b 8 4
    let kp := (s.policyOfKey h.keyA).param
    if kp = 0x00110003 ∨ kp = 0x00180013 then
      let cells := (if kp = 0x00110003 then 74 else 76) +
        ((List.range n).map fun i => ceilDiv (48 + 32 * pathLenOf i n) 64).sum
      ceilDiv (n * uAt b 0xC 1) 65536 + ceilDiv ((2 * n - 1) * 32) 65536 + ceilDiv (64 * cells) 65536
    else 0
  | _ => 0

/-- Octets of an operation context (R26). -/
def contextSize : Nat := 16384

/-- Scratch pages of a packet's operand that its context does not hold (R27); the operands of one packet share a page
(DESIGN CHOICE, log 11). A command whose own pages hold its message needs none beside them. -/
def operandPages (own : Nat) (b : Bytes) : Nat :=
  if own = 0 ∧ contextSize < b.length then ceilDiv b.length 65536 else 0

/-- Scratch pages that a command needs and its first packet fixes. -/
def State.pagesOf (s : State) (h : Hdr) (b : Bytes) (entry : Option Stream) (first : Bool) : Nat × Nat :=
  let own := if first then s.chapterPages h b else 0
  (own, operandPages (if first then own else match entry with | some e => e.pages | none => 0) b)

/-- Scratch pages in use on the device. -/
def State.pagesUsed (s : State) : Nat :=
  (s.ctxs.vals.map Ctx.pages).sum + ((s.queues.vals.map fun x => (x.streams.vals.map Stream.pages).sum).sum)

/-- Stream contexts in use on the device (R26). -/
def State.streamsUsed (s : State) : Nat :=
  (s.queues.vals.map fun x => (x.streams.vals.filter fun e => decide (e.st ≠ .aborted)).length).sum

/-- Room of a packet's pages, `own` of its command and `op` of its operand, and of a new stream context in the slice's
operand memory (R27, R68, R78): the packet is refused, waits, or takes them. Legal quotas add up to more than the 102,400
pages of the device (R26): a packet that the device has no pages for waits like one whose slice has none (DESIGN CHOICE,
log 110). -/
def State.room (s : State) (x : Queue) (own op : Nat) (opens : Bool) : Verdict80 :=
  let pages := own + op
  match s.slices.find x.slice with
  | none => .accepted true own op
  | some y =>
    if y.memQuota < 64 * pages then .refused St.quota
    else if y.memQuota < y.memUsed + 64 * pages || decide (102400 < s.pagesUsed + pages) then .waits
    else if opens && (decide (y.memQuota < y.memUsed + 64 * pages + 1) || decide (262144 ≤ s.streamsUsed)) then
      .refused St.busy
    else .accepted true own op

/-- A streamed stateful SIGN takes its leaf at consumption (R164, R167). -/
def State.leafRoom (s : State) (h : Hdr) : Verdict80 :=
  if (h.opcode = 0x1302 ∨ h.opcode = 0x1402) ∧ h.stream ≠ 0 then
    match s.leafState h.keyA with
    | .exhausted => .refused St.stateExhausted
    | .waits => .waits
    | .ready _ => .accepted true 0 0
  else .accepted true 0 0

/-- The checks that depend on a set which only the key gives: layout, then OUT_LIMIT (R449); and the length that KW
can wrap (R238). -/
def State.lateChecks (s : State) (h : Hdr) (b hb : Bytes) (first : Bool) : Option Nat :=
  let p := s.effParam h.param h.keyA
  if h.param = 0 ∧ first ∧ !s.packOp h.opcode ∧ !layoutSet p h b then some St.malformed
  else if h.param = 0 ∧ outBySet h.opcode ∧ s.outShort h p hb then some St.outLimit
  else if h.opcode = 0x3203 ∧ p = 0x00320002 ∧ (64 + (s.policyOfKey h.keyB).materialLen) % 8 ≠ 0 then some St.malformed
  else none

/-- The phases in which a completion has been released to its collector. -/
def Phase.released : Phase → Bool
  | .collected | .writing => true
  | _ => false

/-- A FINAL packet of the STREAM_ID, accepted or refused, has been consumed and its completion not yet released (R66,
R78). -/
def State.streamEnding (s : State) (q id : Nat) : Bool :=
  decide (1 ≤ id ∧ id ≤ 1024) && s.ctxs.vals.any fun c => c.q == q && c.stream == id && c.final && !c.phase.released

/-- The stream has been aborted (R69). -/
def entryAborted : Option Stream → Bool
  | some e => decide (e.st = .aborted)
  | none => false

/-- Steps 4 to 7 of R80 for a packet whose steps 1 to 3 have passed. The order of the statuses that R80 does not list is
the model's: the ST_QUOTA of R27 stands before step 7, the ST_BUSY of R68 after it and before the checks of R449 (DESIGN
CHOICE, log 110). -/
def State.steps4567 (s : State) (x : Queue) (h : Hdr) (b : Bytes) (entry : Option Stream) : Verdict80 :=
  match (if s.opcodeLoaded h.opcode then s.formatFor h.opcode else none) with
  | none => .refused St.opcodeUnknown
  | some f =>
    let (ok, first) := s.step5 f h b entry
    let hb := headBytes entry b first
    if !ok then .refused St.malformed
    else if (h.param ≠ 0 ∨ !outBySet h.opcode) && s.outShort h h.param hb then .refused St.outLimit
    else if f.queues &&& x.kind = 0 then .refused St.usageDenied
    else
      let (own, op) := s.pagesOf h b entry first
      match s.room x own op (h.stream != 0 && first && entry.isNone) with
      | .waits => .waits
      | .refused st =>
        if st = St.quota then .refused st
        else match s.step7 x f h hb first with
          | some e => .refused e
          | none => .refused st
      | .accepted _ _ _ =>
        match s.step7 x f h hb first with
        | some st => .refused st
        | none => match s.lateChecks h b hb first with
          | some st => .refused st
          | none => match (if first then s.leafRoom h else .accepted true 0 0) with
            | .accepted _ _ _ => .accepted first own op
            | v => v

/-- The verdict on the packet at the head. A packet that names an aborted entry completes ST_ABORTED with its payload
unread, whatever step 3 makes of its fragment table (R69). -/
def State.verdict80 (s : State) (q : Nat) (x : Queue) (h : Hdr) (b : Bytes) (early : Option Nat) : Verdict80 :=
  let entry := if h.stream = 0 then none else x.streams.find h.stream
  if early = some St.hdrCheck then .refused St.hdrCheck
  else if s.streamEnding q h.stream then .waits
  else match early with
  | some st => .refused (if entryAborted entry then St.aborted else st)
  | none =>
    if s.integ.safe then .refused St.integrityAlarm
    else if s.emptied x then .refused St.aborted
    else if s.sliceFrozen x then .refused St.sliceFrozen
    else if entryAborted entry then .refused St.aborted
    else s.steps4567 x h b entry

/-- The context of a packet just consumed. -/
def newCtx (s : State) (x : Queue) (q : Nat) (h : Hdr) : Ctx :=
  { q, slice := x.slice, seq := x.nextSeq, opcode := h.opcode, flags := h.flags, tag := h.tag, keyA := h.keyA,
    keyB := h.keyB, stream := h.stream, param := h.param, declared := h.declared, deadline := h.deadline,
    outLimit := h.outLimit, frags := [], payload := [], slab := 0, pos := 0, firstSlab := false, region := x.home,
    phase := .waiting, parts := [], launchV := s.datum.v, launchTick := s.now, result := none, shares := [], reserved := none,
    waitFrom := none, progress := s.now, pages := 0, leaf := none, drop := false, orphaned := false,
    bearingEnd := none, bearingOk := false, bearingTries := 0, batch := false, mem := [], startUnc := 0, startSt := s.datum.st, accepted := s.now, finishedAt := 0 }

/-- H advances past a consumed packet; the head shadow follows it at 64 cells and at the tail (R78, R79). -/
def State.advanceHead (s : State) (q cells : Nat) : State :=
  let s := s.setQueue q fun x =>
    let gone := (List.range cells).map fun i => x.cellAt (x.h + BitVec.ofNat 32 i) / 64
    { x with h := x.h + BitVec.ofNat 32 cells, nextSeq := x.nextSeq + 1, undef := x.undef.filter fun k => !gone.contains k }
  match s.queues.find q with
  | none => s
  | some x =>
    let s := s.setSlice x.slice fun y => { y with accepted := y.accepted + 1 }
    if 64 ≤ (x.h - x.shadow).toNat ∨ x.h = x.t then
      let s := { s with host := hostWrite (s.queueSpace x) x.shadowAddr (le 4 x.h.toNat ++ le 4 0) s.host }
      (s.postWrite x x.shadowAddr 8).setQueue q fun x => { x with shadow := x.h }
    else s

/-- A first packet that fails leaves its stream aborted, or idle where it was the whole stream (R68, R69). A kept context
goes with it, whatever the status: R70 says so of ST_MALFORMED, the model of every other too (DESIGN CHOICE, log 110). -/
def State.failFirst (s : State) (q : Nat) (c : Ctx) : State :=
  if c.stream = 0 ∨ 1024 < c.stream then s
  else match s.stream q c.stream with
    | some e => if e.st = .kept then
        (if c.final then s.dropStream q c.stream else
          (s.abortStream q c.stream).setStream q c.stream fun e => { e with first := c.seq })
      else s
    | none =>
      let e : Stream :=
        { st := .aborted, opcode := c.opcode, keyA := c.keyA, keyB := c.keyB, param := c.param,
          declared := c.declared, undeclared := false, count := 0, head := [], data := [], charged := false,
          finalCtx := none, pages := 0, keptHead := [], fromKept := false, leaf := none, startUnc := 0,
          first := c.seq, region := none, saved := none }
      if c.cont && !c.final then s.setQueue q fun x => { x with streams := x.streams.put c.stream e } else s

/-- Opens a stream on its first packet (R66, R68, R70). -/
def State.openStream (s : State) (q : Nat) (x : Queue) (h : Hdr) (b : Bytes) (seq pages : Nat) (leaf : Option Nat) :
    State :=
  let p := s.effParam h.param h.keyA
  let kept := (x.streams.find h.stream).isSome
  let e : Stream :=
    { st := .opened, opcode := h.opcode, keyA := h.keyA, keyB := h.keyB, param := h.param, declared := h.declared,
      undeclared := h.declared == 0, count := 0, head := b.take (s.headLen h.opcode p h b), data := [], charged := false,
      finalCtx := none, pages := pages, keptHead := keptValues h.opcode b, fromKept := kept, leaf := leaf,
      startUnc := 0, first := seq, region := none, saved := none }
  let s := s.setSlice x.slice fun y => { y with memUsed := y.memUsed + 64 * pages + b2n (!kept) }
  s.setQueue q fun x => { x with streams := x.streams.put h.stream e }

/-- The status that a packet's stream bytes earn against DECLARED_LEN (R68). -/
def lengthStatus (e : Stream) (count : Nat) (final : Bool) : Option Nat :=
  let ceiling := if e.undeclared then 2 ^ 61 else e.declared
  if ceiling < count then some St.lengthOver
  else if final && !e.undeclared && decide (count < e.declared) then some St.lengthShort
  else none

/-- The messages that a digest pipe absorbs packet by packet before the unit launches (R135, R155, R206): `head` is the
header part, `total` the message length. -/
def pipesMessage (op : Nat) (head : Bytes) (total : Nat) : Bool :=
  let mode0 := uAt head 0 1 == 0
  if op = 0x1102 ∨ op = 0x1103 ∨ op = 0x1203 then mode0 && decide (4096 < total)
  else if op = 0x1812 ∨ op = 0x1813 then decide (4096 < total)
  else if [0x2002, 0x2003, 0x2012, 0x2013].contains op then mode0
  else op == 0x2005

/-- The stream pipes' own commands that run as slabs (R221). -/
def slabCommand (op : Nat) : Bool :=
  [0x3001, 0x3002, 0x3101, 0x3102, 0x3111, 0x3112, 0x3113, 0x3201, 0x3202].contains op

/-! ## Survey streams (R190) -/

/-- The place of the batch of a survey stream that still arrives, beside the 65,536 contexts of packets: its sections launch
before the packet that carries its chain is there. -/
def batchKey (q id : Nat) : Nat := 65536 + 2048 * q + id

/-- A survey stream opens: its batch stands from now on, with the flags of its first packet that concern a launch. -/
def State.openBatch (s : State) (c : Ctx) : State :=
  let d := { c with batch := true, flags := c.flags &&& 0x14, pages := 0, payload := [] }
  { s with ctxs := s.ctxs.put (batchKey c.q c.stream) d }

/-- Renames the operation of a unit. -/
def Job.rename (i j : Nat) : Job → Job
  | .op k => .op (if k = i then j else k)
  | .check k => .check (if k = i then j else k)
  | x => x

/-- The FINAL packet has come: its context takes over what the batch has launched, or the outcome that it has met. -/
def State.takeBatch (s : State) (i : Nat) (c : Ctx) : State :=
  let k := batchKey c.q c.stream
  match s.ctxs.find k with
  | none => s
  | some d =>
    let s := { s with ctxs := s.ctxs.drop k, units := s.units.mapVals fun _ x => { x with job := x.job.rename k i } }
    let s := s.setCtx i fun c =>
      { c with parts := d.parts, phase := if d.phase = .waiting then .waiting else .running, region := d.region
               launchV := d.launchV, launchTick := d.launchTick, startUnc := d.startUnc, startSt := d.startSt
               shares := d.shares, waitFrom := d.waitFrom, progress := s.now }
    match d.result with
    | some r => s.conclude i r
    | none => s

/-- A packet ends a survey stream short or over: it names the sheet of the last part launched (R188, R192). -/
def State.failBatch (s : State) (i : Nat) (c : Ctx) (st : Nat) : State :=
  match s.ctxs.find (batchKey c.q c.stream) with
  | some d =>
    if c.opcode = 0x1A01 ∧ !d.parts.isEmpty then
      (s.setCtx i fun c => { c with parts := d.parts, launchV := d.launchV, launchTick := d.launchTick }).failWith i st
    else s.refuse i st
  | none => s.refuse i st

/-- An accepted packet of a stream: its bytes are counted and gathered; a packet whose bytes no pipe absorbs and which
is not FINAL completes at its consumption (R66, R68). The packets of a CONFIG_COMMIT are executed one by one (R408). -/
def State.takeStream (s : State) (i : Nat) (c : Ctx) (b : Bytes) (op : Nat) : State :=
  match s.stream c.q c.stream with
  | none => s
  | some e =>
    let first := decide (e.first = c.seq)
    let own := if first then b.drop e.head.length else b
    let count := e.count + own.length
    match lengthStatus e count c.final with
    | some st => s.failBatch i c st
    | none =>
      let s := if first && c.opcode == 0x1A01 && !c.final then s.openBatch c else s
      let s := s.setStream c.q c.stream fun e =>
        { e with count := count, data := e.data ++ own
                 finalCtx := if c.final then some i else none
                 pages := if c.final then 0 else e.pages }
      let s := s.setSlice c.slice fun y => { y with memUsed := y.memUsed + 64 * op }
      let piped := slabCommand c.opcode || pipesMessage c.opcode e.head e.declared
      let chief := c.opcode == 0x0141
      let s := s.setCtx i fun c =>
        { c with payload := if c.final || chief then e.head ++ e.data ++ own else if first then b else []
                 slab := if piped then own.length else 0
                 pos := e.count
                 firstSlab := first
                 pages := op + (if c.final then e.pages else 0)
                 leaf := e.leaf }
      if c.cont && !piped && !chief then s.answer i []
      else if c.opcode = 0x1A01 ∧ c.final then s.takeBatch i c
      else s

/-- An accepted single packet. -/
def State.takeSingle (s : State) (i : Nat) (c : Ctx) (h : Hdr) (b : Bytes) (pages : Nat) : State :=
  let p := s.effParam h.param h.keyA
  let n := b.length - s.headLen h.opcode p h b
  let piped := slabCommand c.opcode || pipesMessage c.opcode b n
  let s := s.setSlice c.slice fun y => { y with memUsed := y.memUsed + 64 * pages }
  s.setCtx i fun c => { c with payload := b, frags := fragsOf h.fragCount b, slab := if piped then n else 0
                               firstSlab := true, pages := pages }

/-- Takes an accepted packet into its context and its stream. -/
def State.take (s : State) (q i : Nat) (x : Queue) (h : Hdr) (c : Ctx) (b : Bytes) (first : Bool)
    (own op : Nat) : State :=
  if h.stream = 0 then s.takeSingle i c h b (own + op)
  else if first then
    let signs := h.opcode = 0x1302 ∨ h.opcode = 0x1402
    let leaf := if signs then (match s.leafState h.keyA with | .ready n => some n | _ => none) else none
    let s := if signs then s.assignLeaf h.keyA else s
    (s.openStream q x h b c.seq own leaf).takeStream i c b op
  else s.takeStream i c b op

/-- Consumes the packet at the head into context `i`, or leaves it where its verdict is to wait. -/
def State.consume (s : State) (q i : Nat) (x : Queue) : State :=
  let head := s.ringRead x 1 x.h
  let h := s.hdrAt head
  let n := if h.cells ≤ 1024 ∧ h.cells ≤ x.fill then h.cells else 1
  let body := (s.ringRead x (n - 1) (x.h + 1)).take h.payLen
  let (early, cells) := s.steps123 x h head body
  match s.verdict80 q x h body early with
  | .waits => s
  | v =>
    let lost := decide (s.integ.poison.find (x.cellAt x.h / 64) = some 2)
    let h := if early = some St.hdrCheck then { h with stream := 0, flags := 0, deadline := 0 } else h
    let h := if lost then { h with tag := (Config.freeWord s.free).toNat % 2 ^ 32 } else h
    let s := if lost || !x.undef.isEmpty then { s with free := s.free + 1 } else s
    let c := newCtx s x q h
    let s := { s with ctxs := s.ctxs.put i c }
    let s := s.advanceHead q cells
    match v with
    | .refused st => (s.failFirst q c).refuse i st
    | .accepted first own op => s.take q i x h c body first own op
    | .waits => s

/-- Operations of a slice that are in flight. -/
def State.inflight (s : State) (slice : Nat) : Nat := (s.packets.filter fun c => c.slice == slice).length

/-- The device's and the slice's in-flight limits leave room (R78). -/
def State.mayConsume (s : State) (x : Queue) : Bool :=
  s.ready && decide (0 < x.fill) && decide (s.packets.length < 65536) &&
  match s.slices.find x.slice with
  | some y => decide (s.inflight x.slice < y.inflightLimit)
  | none => true

/-- The home region core consumes the packet at the head of a queue (R78, R80). -/
def execPacketConsume (q : Nat) (s : State) : Out :=
  match s.queues.find q with
  | none => .next s
  | some x =>
    if !s.mayConsume x || s.unsettled then .next s
    else match s.ctxs.firstFree 0 65536 with
      | some i => .next (s.consume q i x)
      | none => .next s

end Sys2Proof.Machine
end

