-- ==== Sys2Proof/Machine/Plans.lean ====
section
/-! DEFINITION. What each command runs on units: its parts with their ticks, checks and draws (R141, R145, R146, R151,
R171, R177, R179 to R181, R190, R194, R196, R215 to R217, R239, R270), and the legs of a part (R49, R148, R215). -/

namespace Sys2Proof.Machine

open Sys2Proof

/-! ## The parts of a command's payload -/

/-- The bytes that begin a command: its first packet's header part on a stream, its payload otherwise. -/
def State.headOf (s : State) (c : Ctx) : Bytes :=
  if c.stream = 0 then c.payload
  else match s.stream c.q c.stream with
    | some e => if e.first ≤ c.seq then e.head else c.payload
    | none => c.payload

/-- The set of a command (R142, R449). -/
def State.setOf (s : State) (c : Ctx) : Nat := s.effParam c.param c.keyA

/-- The header fields that lay a command's payload out. -/
def Ctx.hdr (c : Ctx) : Hdr :=
  { opcode := c.opcode, flags := c.flags, tag := c.tag, payLen := c.payload.length, cells := 0, fragCount := 0,
    keyA := c.keyA, keyB := c.keyB, stream := c.stream, param := c.param, declared := c.declared,
    deadline := c.deadline, outLimit := c.outLimit, check := 0 }

/-- Octets before the message of a command. -/
def State.headLenOf (s : State) (c : Ctx) : Nat := s.headLen c.opcode (s.setOf c) c.hdr (s.headOf c)

/-- The message of a single packet, or of a FINAL packet's whole stream. -/
def State.messageOf (s : State) (c : Ctx) : Bytes := c.payload.drop (s.headLenOf c)

/-- The length of a command's whole message: DECLARED_LEN on a stream. -/
def State.totalOf (s : State) (c : Ctx) : Nat :=
  if c.stream = 0 then c.payload.length - s.headLenOf c
  else match s.stream c.q c.stream with
    | some e => if e.undeclared then e.count else e.declared
    | none => 0

/-- The policy of KEY_A. -/
def State.polA (s : State) (c : Ctx) : Policy := s.policyOfKey c.keyA

/-- A digest pipe absorbs this command's message packet by packet before the unit launches (R135, R155, R206). -/
def State.pipesFirst (s : State) (c : Ctx) : Bool := pipesMessage c.opcode (s.headOf c) (s.totalOf c)

/-- The held message of a signature that a digest pipe reads whole before the unit launches, and how often: SLH-DSA
twice, EdDSA once (R155, R206). -/
def State.heldPasses (s : State) (c : Ctx) : Nat :=
  if c.opcode = 0x1202 then (if uAt (s.headOf c) 0 1 = 0 ∧ 4096 < s.totalOf c then 2 else 0)
  else if c.opcode = 0x2004 then 1
  else 0

/-! ## Parts -/

/-- A part before its launch. -/
def mkPart (kind stage fam ticks check draws checkDraws : Nat) : Part :=
  { kind, stage, fam, ticks, iter := 0, legs := [], check, draws, checkDraws, slab := false, phase := .waiting,
    unit := none, lane := 0, checkUnit := none, checkLane := 0, ends := 0, left := [], retries := 0, hatched := false,
    draw := 0, cands := [], finishing := false }

/-- Seed octets that generating a key of a set draws (R151, R181, R217). -/
def seedLen (p : Nat) : Nat :=
  match paramGroup p with
  | 0x10 => 64
  | 0x11 => 32
  | 0x12 => 3 * slhN p
  | 0x15 => if p % 2 ^ 16 < 0x10 then 32 else 80
  | 0x20 =>
    match p with
    | 0x00200001 => 40
    | 0x00200002 => 56
    | 0x00200003 => 74
    | 0x00200011 => 32
    | 0x00200012 => 56
    | 0x00200021 => 32
    | 0x00200022 => 57
    | _ => rsaLen p / 2
  | _ => 0

/-- Key generation of one set, and the recomputation of a public key with the same count. -/
def keygenPart (stage p : Nat) : Part :=
  let r := setRow p
  mkPart r.kind stage p r.keygen r.keygen (seedLen p + 32) 32
def publicPart (p : Nat) : Part :=
  let r := setRow p
  mkPart r.kind 0 p r.keygen r.keygen 32 32

/-- Verification: prepared key by handle, or key in the payload. -/
def verifyPart (stage p : Nat) (inPayload : Bool) : Part :=
  let r := setRow p
  let n := if r.verify ≠ 0 then r.verify else if inPayload then r.payload else r.prepared
  mkPart r.kind stage p n n 0 0

/-- An ML-DSA signature: a rejection loop, checked by a verification with the prepared key. -/
def mldsaSignPart (stage p : Nat) (hedged : Bool) : Part :=
  let r := setRow p
  { mkPart 0 stage p r.sign r.prepared (if hedged then 64 else 32) 0 with iter := r.iter }

/-- A classical signature of a composite or of the group's own commands. -/
def ecSignPart (stage p : Nat) (hedged : Bool) : Part :=
  let r := setRow p
  mkPart 1 stage p r.sign r.verify (if hedged && curveForm p == 1 then 64 else 32) 0

/-- The two parts of a composite signature or verification. -/
def compositeSign (stage p : Nat) : List Part :=
  [mldsaSignPart stage (latticePart p) true, ecSignPart stage (classicPart p) true]
def compositeVerify (stage p : Nat) (inPayload : Bool) : List Part :=
  [verifyPart stage (latticePart p) inPayload, verifyPart stage (classicPart p) inPayload]

/-- Encapsulation to a lattice set. -/
def mlkemEncapsPart (stage p : Nat) (inPayload publicOnly : Bool) : Part :=
  let r := setRow p
  let n := if inPayload then r.payload else r.prepared
  mkPart 0 stage p n (if inPayload || publicOnly then n else r.dec) 64 32
def mlkemDecapsPart (stage p : Nat) : Part :=
  let r := setRow p
  mkPart 0 stage p r.dec r.decCheck 32 32

/-- Sign ticks of an LMS key by its bottom LM-OTS type (R171). -/
def lmsSignTicks (ots : Nat) : Nat := [16, 14, 21, 105].getD (otsWidth ots) 105

/-- A stateful signature (R171, R181). -/
def State.statefulSignPart (s : State) (c : Ctx) : Part :=
  let p := (s.polA c).param
  let up := if 1 < s.levelsOf c.keyA then 1 else 0
  if paramGroup p = 0x14 then mkPart 0 0 p 32 (31 + up) 32 32
  else
    let n := lmsSignTicks (s.bottomOts c.keyA)
    mkPart 0 0 p n (n + up) 32 32

/-- The public key and signature of a stateful verification (R159). -/
def State.statefulVerifyKey (s : State) (c : Ctx) : Bytes :=
  if c.keyA = 0 then bytesAt (s.headOf c) 16 (uAt (s.headOf c) 0 4) else s.publicOf c.keyA
def State.statefulVerifySig (s : State) (c : Ctx) : Bytes :=
  bytesAt (s.headOf c) (16 + uAt (s.headOf c) 0 4) (uAt (s.headOf c) 4 4)

/-- A stateful verification: its count is set by public data (R159). -/
def State.statefulVerifyPart (s : State) (c : Ctx) : Part :=
  let p := s.setOf c
  let n := if paramGroup p = 0x14 then 31 * xmssLayers p
           else hssTicks (s.statefulVerifyKey c) (s.statefulVerifySig c)
  mkPart 0 0 p n n 0 0

/-- The sections of a batch whose leaves have all arrived: of a stream that still arrives, by its bytes so far (R190). -/
def State.sectionsIn (s : State) (c : Ctx) : Nat :=
  let n := uAt (s.headOf c) 8 4
  let d := uAt (s.headOf c) 0xC 1
  match (if c.batch then s.stream c.q c.stream else none) with
  | some e => if n * d ≤ e.count then ceilDiv n 4096 else e.count / (4096 * d)
  | none => ceilDiv n 4096

/-- The sections of a survey batch, the join, and the signing (R190). Sections stand last first, so that they launch
in order; while the stream arrives there are only those whose leaves are there. -/
def State.surveyParts (s : State) (c : Ctx) : List Part :=
  let n := uAt (s.headOf c) 8 4
  let m := s.sectionsIn c
  let per := if c.param = 0x001A0001 then 16 else 32
  let kp := (s.polA c).param
  let sections := (List.range m).map fun i =>
    let k := min 4096 (n - 4096 * i)
    let t := ceilDiv (2 * k - 1) per
    mkPart 0 0 c.param t t 0 0
  let sign := if kp = 0x00180013 then compositeSign 2 kp
              else [mldsaSignPart 2 kp true]
  if c.batch then sections.reverse else sign ++ [mkPart 0 1 c.param 1 1 0 0] ++ sections.reverse

/-- The parts of a launched survey batch that have become due since: `surveyParts` ends with those it has. -/
def State.moreParts (s : State) (c : Ctx) : List Part :=
  if c.opcode ≠ 0x1A01 then [] else let l := s.surveyParts c; l.take (l.length - c.parts.length)

/-- n of R239: 64-bit semiblocks after padding and the integrity value. -/
def wrapTicks (inner : Nat) : Nat := max 1 (ceilDiv (84 * (ceilDiv inner 8 + 1)) 1600)

/-- KEY_PERSIST and KEY_RESTORE (R270). -/
def sealTicks (body : Nat) : Nat := max 1 (ceilDiv (ceilDiv body 16 + 3) 200)

/-- One certificate of a chain (R270). -/
def certParts (stage : Nat) : List Part :=
  [verifyPart stage 0x00110003 true, verifyPart stage 0x00200002 true]

/-- KEY_LOAD_PUBLIC of one set (R270). -/
def loadPart (p : Nat) : Part :=
  let r := setRow p
  mkPart r.kind 0 p r.prep r.prep 0 0

/-- A key-store operation on a sealing pipe. -/
def sealingPart (ticks draws : Nat) : Part := mkPart 3 0 0x00320001 ticks ticks draws 0

/-- A part that draws a mask on both of its units (R270). -/
def Part.masked (p : Part) : Part := { p with draws := 32, checkDraws := 32 }

/-- The command of an opcode that a pack adds: one part, as the rows of its set and of its opcode say. Which of the TICKS
figures its parser entry takes, and the 32 octets of a row with DRAWS, the spec does not say (log 107). -/
def packPart (r : Bytes) (p op : Nat) : Part :=
  let t := if carriesRows p then uAt (rowOfSet p) (0x18 + 4 * (Config.loopCount .packResult op [] % 8)) 4 else 1
  mkPart (setRow p).kind 0 p (max 1 t) (max 1 t) (if bitOf (uAt r 2 2) 5 then 32 else 0) 0

/-- The length of a generated symmetric key (R262). -/
def generatedLen (p : Nat) : Nat :=
  if paramGroup p = 0x31 ∧ p % 2 ^ 16 < 0x20 then macLen p else 32

/-- The signature of this command of the chief core is verified on a sheet, with the key in the payload: the first packet of
a commit, a whole request, a certificate (R408, R416, R422). -/
def State.verifiesFirst (s : State) (c : Ctx) : Bool :=
  chiefVerifies c.opcode && c.parts.isEmpty &&
  (if c.opcode = 0x0141 then (match s.stream c.q c.stream with | some e => e.first == c.seq | none => false) else !c.cont)

/-- The parts of a command on units, in the order in which UNIT prefers them; none for a command that takes no unit or
runs only as slabs. -/
def State.plan (s : State) (c : Ctx) : List Part :=
  let p := s.setOf c
  let r := setRow p
  let b := s.headOf c
  let own := c.keyA == 0
  let hedged := uAt b 3 1 == 0
  let po := (s.polA c).publicOnly
  match c.opcode with
  | 0x0141 => if s.verifiesFirst c then [verifyPart 0 0x00110003 true] else []
  | 0x0150 => if s.verifiesFirst c then [verifyPart 0 0x00110003 true] else []
  | 0x0151 => if s.verifiesFirst c then [verifyPart 0 0x00110003 true] else []
  | 0x1001 => [keygenPart 0 p]
  | 0x1002 => [mlkemEncapsPart 0 p own po]
  | 0x1003 => [mlkemDecapsPart 0 p]
  | 0x1004 => [publicPart p]
  | 0x1101 => [keygenPart 0 p]
  | 0x1102 => [mldsaSignPart 0 p hedged]
  | 0x1103 => [verifyPart 0 p own]
  | 0x1104 => [publicPart p]
  | 0x1201 => [keygenPart 0 p]
  | 0x1202 => [mkPart 0 0 p r.sign r.verify (if hedged then slhN p + 32 else 32) 0]
  | 0x1203 => [verifyPart 0 p own]
  | 0x1204 => [publicPart p]
  | 0x1302 => [s.statefulSignPart c]
  | 0x1303 => [s.statefulVerifyPart c]
  | 0x1402 => [s.statefulSignPart c]
  | 0x1403 => [s.statefulVerifyPart c]
  | 0x1501 => [{ mkPart 0 0 p 0 r.keygen 64 32 with iter := r.keygen }]
  | 0x1502 => [mkPart 0 0 p r.prepared (if own || po then r.prepared else r.dec) 64 32]
  | 0x1503 => [mkPart 0 0 p r.dec r.decCheck 32 32]
  | 0x1504 => [publicPart p]
  | 0x1511 => [keygenPart 0 p]
  | 0x1512 => [mkPart 0 0 p r.prepared (if own || po then r.prepared else r.dec)
                (8 * (p % 16) + 8 + 48) 32]
  | 0x1513 => [mkPart 0 0 p r.dec r.decCheck 32 32]
  | 0x1514 => [publicPart p]
  | 0x1801 => [keygenPart 0 (latticePart p), keygenPart 0 (classicPart p)]
  | 0x1802 =>
    let q := setRow (classicPart p)
    [mlkemEncapsPart 0 (latticePart p) own po,
     mkPart 1 0 (classicPart p) (q.keygen + q.agree) (q.keygen + q.agree) (seedLen (classicPart p) + 32) 32]
  | 0x1803 =>
    let q := setRow (classicPart p)
    [mlkemDecapsPart 0 (latticePart p), mkPart 1 0 (classicPart p) q.agree q.agree 32 32]
  | 0x1811 => [keygenPart 0 (latticePart p), keygenPart 0 (classicPart p)]
  | 0x1812 => compositeSign 0 p
  | 0x1813 => compositeVerify 0 p own
  | 0x1A01 => s.surveyParts c
  | 0x1A02 => if p = 0x00180013 then compositeVerify 0 p own else [verifyPart 0 p own]
  | 0x1A03 =>
    match s.anchorHeld c.slice (c.payload.take 32) with
    | some a =>
      let n := if a.treeHash = 1 then 2 else 1
      [mkPart 0 0 (if a.treeHash = 1 then 0x001A0001 else 0x001A0002) n n 0 0]
    | none => [mkPart 0 0 0x001A0001 2 2 0 0]
  | 0x2001 => [keygenPart 0 p]
  | 0x2002 => [ecSignPart 0 p hedged]
  | 0x2003 => [verifyPart 0 p own]
  | 0x2004 => [{ ecSignPart 0 p false with ticks := r.sign + ceilDiv (s.totalOf c - 4096) 4096 }]
  | 0x2005 => [verifyPart 0 p own]
  | 0x2006 => [mkPart 1 0 p r.agree r.agree 32 32]
  | 0x2007 => [publicPart p]
  | 0x2011 => [{ mkPart 1 0 p r.keygen (r.sign + r.verify) (seedLen p + 32) 32 with iter := r.cand }]
  | 0x2012 => [{ mkPart 1 0 p r.sign r.verify (32 + uAt b 5 1) 0 with
                 legs := if p = 0x00200103 then [813, 813] else [] }]
  | 0x2013 => [verifyPart 0 p own]
  | 0x2014 => [{ mkPart 1 0 p r.sign r.verify 32 0 with legs := if p = 0x00200103 then [813, 813] else [] }]
  | 0x2015 => [mkPart 1 0 p r.verify r.verify (hashLen (uAt b 0 1)) 0]
  | 0x2016 => [mkPart 1 0 p 1 1 0 0]
  | 0x3203 => [sealingPart (wrapTicks (64 + (s.policyOfKey c.keyB).materialLen)) 0]
  | 0x3204 => [sealingPart (max 1 (ceilDiv (84 * ((c.payload.length - 16) / 8)) 1600)) 0]
  | 0x4001 => [sealingPart 1 (generatedLen (s.policyAt b).param + 32)]
  | 0x4002 =>
    let q := (s.policyAt b).param
    if paramGroup q = 0x18 then [loadPart (latticePart q), loadPart (classicPart q)] else [loadPart q]
  | 0x4005 => [sealingPart (sealTicks (64 + (s.polA c).materialLen)) 32]
  | 0x4006 => [sealingPart (sealTicks (uAt b 0x0C 4)) 32]
  | 0x4007 => keygenPart 0 0x00100003 :: compositeSign 1 0x00180013
  | 0x4008 =>
    certParts 0 ++ certParts 0 ++ certParts 0 ++ [mlkemEncapsPart 1 0x00100003 true true] ++
    [{ mkPart 2 2 0x00310022 1 0 0 0 with slab := true },
     { mkPart 3 3 0x00320001 (sealTicks (64 + (s.polA c).materialLen)) 0 12 0 with slab := true }] ++
    compositeSign 4 0x00180013
  | 0x4009 =>
    mlkemDecapsPart 0 0x00100003 :: (compositeVerify 0 0x00180013 true).map Part.masked ++
    [{ mkPart 3 1 0x00320001 (sealTicks (uAt c.payload 0x18 8)) 0 32 0 with slab := true }]
  | 0x400B => certParts 0 ++ certParts 0 ++ certParts 0
  | 0x6010 => compositeSign 0 0x00180013
  | op => match s.packRow? op with
    | some r => [packPart r p op]
    | none => []

/-! ## Legs -/

/-- The default division of `t` ticks (R49). -/
def defaultLegs (t : Nat) : List Nat :=
  List.replicate (t / 1000) 1000 ++ (if t % 1000 = 0 then (if t = 0 then [0] else []) else [t % 1000])

/-- A rejection loop of the ML-DSA signature, whose legs end at iteration boundaries (R148). -/
def Part.mergeable (p : Part) : Bool := p.iter != 0 && famOf p.fam == 2

/-- The pieces of a part with `n` iterations, in order: a leg ends only at the end of a piece. RSA key generation takes
its candidates one by one (R209). -/
def Part.pieces (p : Part) (n : Nat) : List Nat :=
  if p.iter = 0 then (if p.legs.isEmpty then defaultLegs p.ticks else p.legs)
  else if p.mergeable then (p.ticks + p.iter) :: List.replicate (n - 1) p.iter
  else if p.kind = 1 then [p.iter]
  else (List.replicate n (defaultLegs p.iter)).flatten

/-- The next leg of a list of pieces and what is left: further pieces join while the leg stays within 1,000 ticks and
the room before the benchmark is due. -/
def takeLeg (room : Nat) : Nat → List Nat → Nat × List Nat
  | acc, [] => (acc, [])
  | acc, t :: l => if acc + t ≤ 1000 ∧ acc + t ≤ room then takeLeg room (acc + t) l else (acc, t :: l)

/-- The next leg of a part. -/
def Part.nextLeg (p : Part) (room : Nat) : List Nat → Nat × List Nat
  | [] => (0, [])
  | t :: l => if p.mergeable then takeLeg room t l else (t, l)

end Sys2Proof.Machine
end

