-- ==== Sys2Proof/Machine/Effects.lean ====
section
/-! DEFINITION. What the release of a result changes beside its completion: anchors (R194, R195), peers and sessions
(R113, R268), restored keys (R266). -/

namespace Sys2Proof.Machine

open Sys2Proof

/-! ## Draws of a command's parts -/

/-- The octets that the part of a set has drawn. -/
def Ctx.drawn (c : Ctx) (fam : Nat) : Bytes :=
  match c.parts.find? fun p => p.fam == fam && p.draws != 0 && !p.slab with
  | some p => drawBytes p.draw p.draws
  | none => []

/-! ## Anchors (R194, R195) -/

/-- The 64-byte statement of a SURVEY_ANCHOR, and its public key. -/
def Ctx.statement (c : Ctx) : Bytes := bytesAt c.payload 16 64
def State.anchorKey (s : State) (c : Ctx) : Bytes :=
  if c.keyA = 0 then bytesAt c.payload 80 (setRow (s.setOf c)).pk else s.publicOf c.keyA

/-- ANCHOR: SHA3-256 over the string, the statement and the encoded public key. -/
def State.anchorId (s : State) (c : Ctx) : Bytes := sha3x256 (ascii "MAELARN-ANCHOR" ++ c.statement ++ s.anchorKey c)

/-- An anchor's window: LIFE_S from the statement's LAUNCH, cut to the key's window. -/
def State.anchorWindow (s : State) (c : Ctx) : Nat × Nat :=
  let life := if uAt c.payload 0 4 = 0 then 86400 else uAt c.payload 0 4
  let lo := uAt c.statement 0x18 8
  let hi := lo + life * 1000000000
  let q := s.polA c
  if c.keyA = 0 then (lo, hi) else (max lo q.notBefore, min hi q.notAfter)

/-- An anchor is pinned while an accepted VERIFY_BEARING that names it has not completed. -/
def State.pinned (s : State) (a : Anchor) : Bool :=
  s.ctxs.vals.any fun d =>
    d.opcode == 0x1A03 && d.slice == a.slice && d.payload.take 32 == a.id && decide (d.phase ≠ .writing)

/-- An anchor takes an entry: it has not been dropped, or bearings accepted before still name it. -/
def State.takesEntry (s : State) (a : Anchor) : Bool := !a.dropped || s.pinned a

/-- Entries of the anchor cache that are taken: anchors, and the reservations of launched SURVEY_ANCHORs; one that replaces
an anchor of its slice takes none. -/
def State.anchorsTaken (s : State) : Nat :=
  (s.keys.anchors.filter s.takesEntry).length +
  (s.ctxs.vals.filter fun d => d.opcode == 0x1A02 && decide (d.phase = .running) &&
    (s.anchor d.slice (s.anchorId d)).isNone).length

/-- A SURVEY_ANCHOR needs a new entry and the cache is full. -/
def State.anchorFull (s : State) (c : Ctx) : Bool :=
  c.opcode == 0x1A02 && (s.anchor c.slice (s.anchorId c)).isNone && decide (32768 ≤ s.anchorsTaken)

/-- A SURVEY_ANCHOR waits while the cache is full of pinned anchors. -/
def State.anchorWaits (s : State) (c : Ctx) : Bool := s.anchorFull c && (s.keys.anchors.filter s.takesEntry).all s.pinned

/-- Reserves an entry at launch: the least recently used unpinned anchor of a full cache goes. -/
def State.anchorReserve (s : State) (c : Ctx) : State :=
  if s.anchorFull c then
    match s.keys.anchors.find? fun a => s.takesEntry a && !s.pinned a with
    | some a => { s with keys := { s.keys with anchors := s.keys.anchors.erase a } }
    | none => s
  else s

/-- Caches the anchor of a verified statement; one that the slice holds is replaced. -/
def State.cacheAnchor (s : State) (c : Ctx) (id : Bytes) : State :=
  let t := c.statement
  let a : Anchor :=
    { slice := c.slice, id := id, root := bytesAt t 0x20 32, batchId := uAt t 8 8, leafCount := uAt t 0x10 4,
      treeHash := uAt t 4 1, digestLen := uAt t 5 1, start := (s.anchorWindow c).1
      stop := (s.anchorWindow c).2
      dropped := false }
  let others := s.keys.anchors.filter fun x =>
    !(x.slice == c.slice && x.id == id) && (!x.dropped || s.pinned x)
  { s with keys := { s.keys with anchors := others ++ [a] } }

/-- ANCHOR_DROP: the anchor goes; bearings accepted before still complete against it. -/
def State.dropAnchor (s : State) (slice : Nat) (id : Bytes) : State :=
  { s with keys := { s.keys with anchors := (s.keys.anchors.filter fun x =>
      !(x.slice == slice && x.id == id) || s.pinned x).map fun x =>
        if x.slice = slice ∧ x.id = id then { x with dropped := true } else x } }

/-- An anchor that is used becomes the most recently used. -/
def State.touchAnchor (s : State) (slice : Nat) (id : Bytes) : State :=
  let mine := fun (x : Anchor) => x.slice == slice && x.id == id
  { s with keys := { s.keys with anchors := s.keys.anchors.filter (fun x => !mine x) ++ s.keys.anchors.filter mine } }

/-! ## Chains and peers (R250, R251, R268) -/

/-- Caches a peer's two identity keys by serial in the cache of a slice, or of queue 0: 16 peers, the least recently
used replaced. -/
def State.cachePeer (s : State) (slice serial : Nat) (keys : Bytes) : State :=
  let l := (s.keys.peers.getD slice []).filter fun p => p.1 ≠ serial
  let l := if 16 ≤ l.length then l.tail else l
  { s with keys := { s.keys with peers := s.keys.peers.put slice (l ++ [(serial, keys)]) } }

/-- A peer whose keys are used becomes the most recently used. -/
def State.touchPeer (s : State) (slice serial : Nat) : State :=
  match (s.keys.peers.getD slice []).find? fun p => p.1 == serial with
  | some p => s.cachePeer slice serial p.2
  | none => s

/-! ## Sessions (R113, R268) -/

/-- Opens a session in a list of at most four; a fifth closes the oldest. -/
def openSession (l : List Session) (x : Session) : List Session := (if 4 ≤ l.length then l.tail else l) ++ [x]

/-- Opens a receive session of a slice, bound to the parent in KEY_B. -/
def State.openReceive (s : State) (c : Ctx) (number : Nat) : State :=
  let x : Session := { id := number, slice := c.slice, parent := c.keyB, opened := s.now
                       seed := (c.drawn 0x00100003).take 64 }
  let mine := s.keys.receives.filter fun y => y.slice == c.slice
  { s with keys := { s.keys with
      receives := s.keys.receives.filter (fun y => y.slice != c.slice) ++ openSession mine x } }

/-! ## KEY_RESTORE (R266) -/

/-- The material or KEY_ID of a blob is already live. -/
def State.statefulLive (s : State) (id : Nat) : Bool :=
  s.keys.slots.vals.any fun x => decide (x.st = .live) && x.policy.stateful && x.policy.counter == id

/-- Checks 2 to 5 of R266 and the return of the key at its recorded handle. -/
def State.restoreKey (s : State) (c : Ctx) (r : Result) : Except Nat State :=
  let h := uAt c.payload 0x18 8
  let parent := uAt c.payload 0x20 8
  let index := uAt c.payload 0x28 8
  let p := s.policyAt r.depositPolicy
  let m := match r.deposit with | some x => x.open | none => []
  let old := s.keys.slots.find (slotKey h)
  let held := match old with | some x => decide (x.st = .live) || decide (x.st = .reserved) | none => false
  let past := match old with | some x => decide (h % 2 ^ 24 < x.gen) | none => false
  if held && !past then .error St.usageDenied
  else if past && (match old with | some x => decide (x.st = .live) | none => false) then .error St.usageDenied
  else if past then .error St.keyOrphaned
  else if parent ≠ 0 ∧ s.liveKey parent = none then .error St.keyUnknown
  else if p.stateful ∧ s.statefulLive p.counter then .error St.usageDenied
  else
    let pub := if p.stateful then statefulPub p.param m else if p.publicOnly then m else []
    let s := s.deposit h parent p m pub
    let s := s.setSlot h fun x => { x with spentTo := if index = maxOf 64 then none else some index }
    .ok (if p.stateful then s.resumeStateful p.counter h p.param m else s)

/-- The result of a restored key: its recorded handle. -/
def Result.restored (c : Ctx) : Result := { Result.bare St.ok with out := bytesAt c.payload 0x18 8 }

/-! ## Effects of a release -/

/-- What a successful result changes as it is released. -/
def State.releaseEffects (s : State) (c : Ctx) (r : Result) : State :=
  match c.opcode with
  | 0x1A02 => s.cacheAnchor c r.out
  | 0x400B => s.cachePeer c.slice (chainSerial c.payload) (chainKeys c.payload)
  | 0x5001 => { s with rng := { s.rng with hostBytes := s.rng.hostBytes + r.out.length } }
  | 0x4007 => s.openReceive c (uAt r.out 0 4)
  | 0x4009 => { s with keys := { s.keys with receives := s.keys.receives.filter fun x => x.id ≠ uAt c.payload 4 4 } }
  | _ => s

end Sys2Proof.Machine
end

