-- ==== Sys2Proof/Machine/Rsa.lean ====
section
/-! DEFINITION. RSA as the big-number engines compute it: the CRT private operation with its blinding, the encodings of
RFC 8017, and the generation of probable primes (FIPS 186-5 A.1.3) from drawn candidates (R200, R205, R208, R209, R210,
R214). -/

namespace Sys2Proof.Machine

open Sys2Proof

/-! ## Numbers -/

/-- One step of the extended Euclidean algorithm, over `fuel` steps: the coefficient of the first number. -/
def euclid : Nat → Nat → Nat → Int → Int → Int
  | 0, _, _, x, _ => x
  | f + 1, a, b, x, y => if b = 0 then x else euclid f b (a % b) y (x - (a / b : Nat) * y)

/-- The inverse of `a` modulo `m`, where they share no factor. -/
def invAny (m a : Nat) : Nat := ((euclid (2 * bitLen m + 2) (a % m) m 1 0) % m).toNat

/-- One Miller–Rabin round of an odd number with a base. -/
def millerRabin (n a : Nat) : Bool :=
  let (d, s) := oddPart (bitLen n) (n - 1) 0
  let x := expMod n a d
  x == 1 || x == n - 1 ||
  ((List.range (s - 1)).foldl (fun (y : Nat × Bool) _ => let v := y.1 * y.1 % n; (v, y.2 || v == n - 1)) (x, false)).2

/-- A base in [2, n - 2] from the mask generator. -/
def mrBase (seed : Bytes) (i n : Nat) : Nat := 2 + leNat (maskExpand seed i 264) % (n - 3)

/-! ## Keys (R200) -/

/-- A CRT set. -/
structure RsaKey where
  p : Nat
  q : Nat
  dp : Nat
  dq : Nat
  qinv : Nat
  n : Nat
  e : Nat
  deriving DecidableEq, Repr

/-- Reads a stored CRT set of a modulus of `len` octets: p, q, d mod (p - 1), d mod (q - 1), q⁻¹ mod p, N and e. -/
def rsaKeyOf (len : Nat) (m : Bytes) : RsaKey :=
  let h := len / 2
  let at' := fun i => beNat (bytesAt m (h * i) h)
  { p := at' 0, q := at' 1, dp := at' 2, dq := at' 3, qinv := at' 4, n := beNat (bytesAt m (5 * h) len), e := beNat (bytesAt m (5 * h + len) 32) }

/-- The octets of a CRT set. -/
def RsaKey.bytes (k : RsaKey) (len : Nat) : Bytes :=
  let h := len / 2
  be h k.p ++ be h k.q ++ be h k.dp ++ be h k.dq ++ be h k.qinv ++ be len k.n ++ be 32 k.e

/-! ## Operations (R214) -/

/-- The public operation. -/
def rsaPublicOp (n e x : Nat) : Nat := expMod n x e

/-- The private operation: the base blinded with r^e, each exponent with a multiple of p - 1 or q - 1, recombination by
Garner's formula, and the multiplication by r⁻¹. -/
def rsaPrivateOp (k : RsaKey) (seed : Bytes) (c : Nat) : Nat :=
  let r := 2 + leNat (maskExpand seed 2 520) % (k.n - 3)
  let c' := c * expMod k.n r k.e % k.n
  let mp := expMod k.p c' (k.dp + maskRho seed 0 * (k.p - 1))
  let mq := expMod k.q c' (k.dq + maskRho seed 1 * (k.q - 1))
  let h := k.qinv * subMod k.p mp mq % k.p
  (mq + h * k.q) % k.n * invAny k.n r % k.n

/-! ## Encodings (RFC 8017) -/

/-- The last octet of the algorithm identifier of a HASH code (R204). -/
def hashOid (h : Nat) : Nat := [0, 1, 2, 3, 8, 9, 10].getD h 0

/-- DigestInfo of a digest. -/
def digestInfo (h : Nat) (dig : Bytes) : Bytes :=
  [0x30#8, BitVec.ofNat 8 (0x11 + dig.length), 0x30#8, 0x0D#8, 0x06#8, 0x09#8, 0x60#8, 0x86#8, 0x48#8, 0x01#8, 0x65#8,
   0x03#8, 0x04#8, 0x02#8, BitVec.ofNat 8 (hashOid h), 0x05#8, 0x00#8, 0x04#8, BitVec.ofNat 8 dig.length] ++ dig

/-- EMSA-PKCS1-v1_5. -/
def pkcs1Encode (h len : Nat) (dig : Bytes) : Bytes :=
  let t := digestInfo h dig
  [0#8, 1#8] ++ List.replicate (len - t.length - 3) 0xFF#8 ++ [0#8] ++ t

/-- EMSA-PSS with MGF1 of the same hash, for a modulus of exactly 8 · `len` bits. -/
def pssEncode (sel len : Nat) (dig salt : Bytes) : Bytes :=
  let h := digest sel (List.replicate 8 0#8 ++ dig ++ salt)
  let db := List.replicate (len - dig.length - salt.length - 2) 0#8 ++ [1#8] ++ salt
  let m := xorBytes db (mgf1 sel (len - dig.length - 1) h)
  (match m with | [] => [] | x :: t => (x &&& 0x7F#8) :: t) ++ h ++ [0xBC#8]

/-- EMSA-PSS verification. -/
def pssOk (sel len saltLen : Nat) (dig em : Bytes) : Bool :=
  let dbLen := len - dig.length - 1
  let h := bytesAt em dbLen dig.length
  let db0 := xorBytes (em.take dbLen) (mgf1 sel dbLen h)
  let db := match db0 with | [] => [] | x :: t => (x &&& 0x7F#8) :: t
  let ps := dbLen - saltLen - 1
  decide (em.length = len) && decide (saltLen + 1 ≤ dbLen) && em.drop (len - 1) == [0xBC#8] && decide (beNat (em.take 1) < 128) &&
  (db.take ps).all (· == 0) && bytesAt db ps 1 == [1#8] &&
  digest sel (List.replicate 8 0#8 ++ dig ++ db.drop (ps + 1)) == h

/-- EME-OAEP of a message with a seed of a digest's length. -/
def oaepEncode (sel len : Nat) (label m seed : Bytes) : Bytes :=
  let hl := hashSize sel
  let db := digest sel label ++ List.replicate (len - m.length - 2 * hl - 2) 0#8 ++ [1#8] ++ m
  let db' := xorBytes db (mgf1 sel (len - hl - 1) seed)
  0#8 :: (xorBytes seed (mgf1 sel hl db') ++ db')

/-- EME-OAEP decoding; none is a decoding failure. -/
def oaepDecode (sel len : Nat) (label em : Bytes) : Option Bytes :=
  let hl := hashSize sel
  let db' := em.drop (hl + 1)
  let seed := xorBytes (bytesAt em 1 hl) (mgf1 sel hl db')
  let db := xorBytes db' (mgf1 sel (len - hl - 1) seed)
  let rest := (db.drop hl).dropWhile (· == 0)
  if em.length = len ∧ em.take 1 = [0#8] ∧ db.take hl = digest sel label ∧ rest.take 1 = [1#8] then some (rest.drop 1) else none

/-- The padding that a classical header selects: PKCS#1 v1.5 or PSS with its salt (R204). -/
def rsaEncode (pad h sel len : Nat) (dig salt : Bytes) : Bytes :=
  if pad = 2 then pssEncode sel len dig salt else pkcs1Encode h len dig

/-- An RSA signature of a digest. -/
def rsaSignature (k : RsaKey) (seed : Bytes) (pad h sel len : Nat) (dig salt : Bytes) : Bytes :=
  be len (rsaPrivateOp k seed (beNat (rsaEncode pad h sel len dig salt)))

/-- An RSA signature of a digest verifies. -/
def rsaSignatureOk (n e pad h sel len saltLen : Nat) (dig sig : Bytes) : Bool :=
  let em := be len (rsaPublicOp n e (beNat sig))
  if pad = 2 then pssOk sel len saltLen dig em else em == pkcs1Encode h len dig

/-! ## Key generation (R209) -/

/-- The candidate that half a modulus of drawn octets gives: made odd. -/
def rsaCandidate (b : Bytes) : Nat := let v := beNat b; if v % 2 = 0 then v + 1 else v

/-- A candidate stays: at least √2 · 2^(bits - 1), p - 1 prime to e, and one Miller–Rabin round passed. -/
def rsaAccepts (e : Nat) (seed : Bytes) (i : Nat) (b : Bytes) : Bool :=
  let v := rsaCandidate b
  decide (2 ^ (16 * b.length - 1) ≤ v * v) && Nat.gcd (v - 1) e == 1 && millerRabin v (mrBase seed (16 + i) v)

/-- The candidates that stay, of those drawn. -/
def rsaAccepted (e : Nat) (seed : Bytes) (cands : List Bytes) : List Nat :=
  (cands.zipIdx.filter fun x => rsaAccepts e seed x.2 x.1).map fun x => rsaCandidate x.1

/-- The finish of a key: four further Miller–Rabin rounds on each prime, the tests on |p - q| and on d, and the CRT set
with p the larger; none: a test has failed. -/
def rsaFinish (len e : Nat) (seed : Bytes) (primes : List Nat) : Option RsaKey :=
  match primes with
  | [a, b] =>
    let p := max a b
    let q := min a b
    let l := Nat.lcm (p - 1) (q - 1)
    let d := invAny l e
    let rounds := fun n => (List.range 4).all fun i => millerRabin n (mrBase seed (4 + i) n)
    if rounds p && rounds q && decide (2 ^ (4 * len - 100) < p - q) && decide (2 ^ (4 * len) < d) then
      some { p, q, dp := d % (p - 1), dq := d % (q - 1), qinv := invAny p q, n := p * q, e }
    else none
  | _ => none

end Sys2Proof.Machine
end

