-- ==== Sys2Proof/Machine/Engines.lean ====
section
/-! DEFINITION. The storage of a big-number engine while an operation of the device runs on it: public values and masked
intermediates in OPS, masks in MSK, secrets and key shares in KPS (R30, R198, R199, R206, R212 to R214, R218). -/

namespace Sys2Proof.Machine

open Sys2Proof

/-! ## Key shares of a command (R30, R31, R144) -/

/-- The secret of a key that a command names: from the shares it has held since its launch, otherwise from the vault. -/
def State.secretIn (s : State) (c : Ctx) (h : Nat) : Bytes :=
  match c.shares.find? fun y => y.handle == h with
  | some y => y.value
  | none => s.secretOf h

/-- The shares that a launch in a region takes: the residencies of the keys that the command names. -/
def State.takeShares (s : State) (c : Ctx) (r : Nat) : List Residency :=
  let now := [c.keyA, c.keyB].filterMap fun h => if h = 0 then none else s.residency r h
  now ++ c.shares.filter fun y => !now.any fun z => z.handle == y.handle

/-! ## Digests (R204, R205) -/

/-- A digest by HASH code. -/
def hashByCode (h : Nat) (m : Bytes) : Bytes := hashOf (hashSel h) (hashLen h) m

/-- What is signed: the digest of the message, or in MODE 1 the digest supplied. -/
def digestInput (h m : Bytes) : Bytes := if uAt h 0 1 = 1 then m else hashByCode (uAt h 1 1) m

/-- The hash of the classical part of a composite: SHA-256 for P-256, SHA-384 for P-384 (R140). -/
def classicHash (q : Nat) : Nat := if q = 0x00200001 then 1 else 2

/-- The message representative of a composite signature (R140). -/
def compositeRep (p : Nat) (ctx m : Bytes) : Bytes :=
  ascii "MAELARN-COMPOSITE" ++ le 4 (codeOf p) ++ le 1 ctx.length ++ ctx ++ sha512 m

/-! ## RSA key generation (R209) -/

/-- A part that draws RSA candidates one by one. -/
def Part.rsaLoop (p : Part) : Bool := p.iter != 0 && p.kind == 1

/-- The candidates that a part has drawn, each half a modulus, and its mask seed. -/
def Part.rsaCands (p : Part) : List Bytes := p.cands.map fun d => drawBytes d (rsaLen p.fam / 2)
def Part.rsaSeed (p : Part) : Bytes := (drawBytes p.draw p.draws).drop (rsaLen p.fam / 2)

/-- The key of accepted candidates, taken in pairs: a pair that fails the finishing tests is discarded (log 112). -/
def rsaSearch (len e : Nat) (seed : Bytes) : List Nat → Option RsaKey
  | a :: b :: t => match rsaFinish len e seed [a, b] with
    | some k => some k
    | none => rsaSearch len e seed t
  | _ => none

/-- The key that the candidates drawn so far make. -/
def Part.rsaKey (p : Part) (e : Nat) : Option RsaKey :=
  rsaSearch (rsaLen p.fam) e p.rsaSeed (rsaAccepted e p.rsaSeed p.rsaCands)

/-! ## Operand memory (R198, R218) -/

/-- The engine of a unit. -/
def engineOf (u : Nat) : Nat := 4 * unitRegion u + unitIndex u

/-- A slot of operand memory. -/
def opSlot (v : Nat) : Bytes := le 576 v

/-- What stands in OPS[0] to OPS[6]: the curve's constants, or N and e; and the Montgomery constants of the class. -/
def publicSlots (set n e : Nat) : List Nat :=
  match curveOf set with
  | some c => [c.p, c.a, c.b, c.n, c.gx, c.gy, 2 ^ (2 * classSlotBits c.cls) % c.p]
  | none =>
    let w := classSlotBits (setClass set)
    [n, e, 2 ^ w % n, 2 ^ (2 * w) % n]

/-- A masked intermediate of slot `i`: what an operation has there is its own, a function of its inputs and mask seed; the
mask is taken modulo P or N, or 64 bits longer than an RSA prime. -/
def maskedSlot (m i : Nat) (inputs : List Bytes) (seed : Bytes) : Bytes :=
  let v := leNat (fit 576 (Config.prim .enginePart (128 + i) (seed :: inputs)))
  let mu := leNat (maskExpand seed (512 + i) 576)
  if m = 0 then opSlot (v + mu) else opSlot ((v % m + mu) % m)

/-- OPS during an operation of a set: public values in 0 to 6, its inputs in 7 to 9, masked intermediates above; the curve
operations leave 32 to 63 as they are. -/
def opsOf (set n e : Nat) (inputs : List Nat) (seed : Bytes) (old : Tab Bytes) : Tab Bytes :=
  let m := match curveOf set with | some c => c.p | none => 0
  let own := (publicSlots set n e).zipIdx.map fun x => (x.2, opSlot x.1)
  let ins := inputs.zipIdx.map fun x => (7 + x.2, opSlot x.1)
  let top := if (curveOf set).isSome then 32 else 64
  let inter := ((List.range top).drop 10).map fun i => (i, maskedSlot m i (inputs.map opSlot) seed)
  (own ++ ins ++ inter).foldl (fun t x => t.put x.1 x.2) old

/-- MSK[0] to MSK[7]. -/
def maskWords (seed : Bytes) : Tab Bytes := (List.range 8).map fun i => (i, maskExpand seed (256 + i) 576)

/-- KPS of four values. -/
def kpsOf (l : List Bytes) : Tab Bytes := l.zipIdx.map fun x => (x.2, fit 576 x.1)

/-! ## What an operation takes into KPS (R206, R212 to R214) -/

/-- The classical part of a named key's shares. -/
def State.engineShares (s : State) (c : Ctx) : Option Residency :=
  let set := (s.policyOfKey c.keyA).param
  let n := if paramGroup set = 0x18 then (setRow (latticePart set)).secret else 0
  (c.shares.find? fun y => y.handle == c.keyA).map fun y =>
    { y with share0 := y.share0.drop n, share1 := y.share1.drop n }

/-- The key shares of a curve operation, and what it blinds: the two shares of d, and for a signature k in two shares, for
a FORM 2 ladder the two shares of the clamped scalar, otherwise the blinded scalar. -/
def curveKps (k : Curve) (y : Residency) (seed : Bytes) (nonce : Option Nat) : Tab Bytes :=
  let d := y.value
  match nonce with
  | some n =>
    let m := maskExpand seed 3 k.scalarLen
    kpsOf [y.share0, y.share1, m, xorBytes (le k.scalarLen n) m]
  | none =>
    if k.form = 2 then
      let share := leNat (maskExpand seed 0 72) % 2 ^ k.fieldBits
      kpsOf [le k.len share, le k.len (Nat.xor share (k.clamp (leNat d)))]
    else
      let a := if k.form = 3 then (k.edSecret d).1 % k.n else beNat d
      kpsOf [y.share0, y.share1, opSlot (k.blind seed a)]

/-- The shares of an RSA private operation: p, q, the inverse, and the blinded exponent of the first CRT half. -/
def rsaKps (k : RsaKey) (seed : Bytes) : Tab Bytes :=
  kpsOf [opSlot k.p, opSlot k.q, opSlot k.qinv, opSlot (k.dp + maskRho seed 0 * (k.p - 1))]

/-- The context and the message of an EdDSA signature: the command's own, or those of a composite (R140, R205). -/
def State.edInput (s : State) (c : Ctx) : Bytes × Bytes :=
  let h := s.headOf c
  if c.opcode = 0x1812 then ([], compositeRep (s.setOf c) (bytesAt h 16 (uAt h 0 1)) (s.messageOf c))
  else (bytesAt h 16 (uAt h 2 1), s.messageOf c)

/-- The nonce of a signature that a command's classical part makes: by RFC 6979, hedged with 32 drawn octets, or the hash
over the secret prefix and M (R206, R213). -/
def State.engineNonce (s : State) (c : Ctx) (k : Curve) (set : Nat) (d draw : Bytes) : Option Nat :=
  let h := s.headOf c
  match c.opcode with
  | 0x2002 =>
    some (k.nonce (hashSel (uAt h 1 1)) (beNat d) (digestInput h (s.messageOf c)) (if uAt h 3 1 = 0 then draw.take 32 else []) 0)
  | 0x2004 => some (k.edNonce d (s.edInput c).1 (s.edInput c).2)
  | 0x1812 =>
    let rep := (s.edInput c).2
    if k.form = 3 then some (k.edNonce d [] rep)
    else some (k.nonce (hashSel (classicHash set)) (beNat d) (hashByCode (classicHash set) rep) (draw.take 32) 0)
  | _ => none

/-- The public inputs that an operation brings into OPS[7] to OPS[9]. -/
def State.engineInputs (s : State) (c : Ctx) (set : Nat) : List Nat :=
  match c.opcode with
  | 0x2006 => (match curveOf set with
    | some k => if k.form = 2 then [k.decodeU c.payload] else [k.pointX c.payload, k.pointY c.payload]
    | none => [])
  | 0x2014 => [beNat (c.payload.drop (16 + uAt c.payload 2 2))]
  | op => if [0x2002, 0x2003, 0x2012, 0x2013].contains op then
      (match curveOf set with
       | some k => [k.truncate (digestInput (s.headOf c) (s.messageOf c))]
       | none => [beNat (digestInput (s.headOf c) (s.messageOf c))])
    else []

/-- An engine takes an operation of a command: its operand memory, its masks, and the shares of its key through the
control store's key-port words. `draw` are the octets drawn for the part. -/
def State.loadEngine (s : State) (c : Ctx) (u : Nat) (set : Nat) (draw : Bytes) (secret : Bool) : State :=
  if unitKind u ≠ 1 then s
  else
    let e := engineOf u
    let x := s.engine e
    let seed := draw.drop (draw.length - 32)
    let key := s.engineShares c
    let d := match key with | some y => y.value | none => []
    let rsa := rsaKeyOf (rsaLen set) d
    let kps : Tab Bytes := if !secret then [] else match key, curveOf set with
      | some y, some k => curveKps k y seed (s.engineNonce c k set d draw)
      | some _, none => rsaKps rsa seed
      | none, _ => []
    { s with engines := s.engines.put e { x with
        ops := opsOf set rsa.n rsa.e (s.engineInputs c set) seed x.ops
        msk := if draw = [] then [] else maskWords seed
        kps := kps } }

/-- MSK and KPS are cleared at the end of an operation; OPS stays (R198). -/
def State.clearEngine (s : State) (u : Nat) : State :=
  if unitKind u ≠ 1 then s
  else { s with engines := s.engines.put (engineOf u) { s.engine (engineOf u) with msk := [], kps := [] } }

end Sys2Proof.Machine
end

