-- ==== Sys2Proof/Machine/Units.lean ====
section
/-! DEFINITION. Units: their benchmarks, transients, the launch of a part and the tests before a first launch (R17 to
R20, R31, R49 to R55, R127, R143, R148, R167, R184, R195, R196, R358 to R362, R366). -/

namespace Sys2Proof.Machine

open Sys2Proof

/-! ## Benchmarks (R52, R54, R55, R359) -/

/-- The set that a unit benchmarks: that of its most recent real operation (R52, R147). -/
def UnitSt.currentSet (x : UnitSt) (u : Nat) : Nat := if x.fam = 0 then firstSet (unitKind u) else x.fam

/-- A benchmark of a family was launched within the preceding 2,000 ticks (R55). -/
def UnitSt.benchedLately (x : UnitSt) (now fam : Nat) : Bool :=
  match x.benched.find fam with
  | some b => decide (now ≤ b + 2000)
  | none => false

/-- The set of a unit's most recent real operation in a family (R147); the one at hand where it has run none. -/
def UnitSt.setIn (x : UnitSt) (fam p : Nat) : Nat := (x.famSets.find fam).getD p

/-- A unit takes real work of a set (R52, R147). -/
def UnitSt.takes (x : UnitSt) (job : Job) (ends p : Nat) : UnitSt :=
  { x with job := job, ends := ends, fam := p, famSets := x.famSets.put (famOf p) p, scrub := false }

/-- The benchmark that a unit must run before work of set `p` and a leg of `l` ticks, if any. -/
def State.benchFirst (s : State) (u l p : Nat) : Option Nat :=
  let x := s.unitSt u
  let cur := x.currentSet u
  if x.needBench then some cur
  else if famOf p ≠ famOf cur && !x.benchedLately s.now (famOf p) then some (x.setIn (famOf p) p)
  else if x.lastBench + 2000 < s.now + l then some cur
  else none

/-- The HATCH instance of a unit's region runs: hatching and benchmarks need it, and it has no limit (R278, R285). -/
def State.hatchSeeded (s : State) (u : Nat) : Bool :=
  match s.rng.drbgs.find (9 + unitRegion u) with | some x => x.seeded | none => false

/-- A sheet's random port takes the octets of a draw: the last 32 seed the mask generator, those before them fill the draw
buffer (R126, R335, R339). -/
def Core.takesDraw (k : Core) (b : Bytes) : Core :=
  let n := b.length - 32
  { k with su := { k.su with maskSeed := some (b.drop n), rpCtr := 0, drawBuf := (b.take n).take 128 } }

/-- Draws `n` octets from an instance for the work that unit `u` begins. -/
def State.drawFor (s : State) (d u n : Nat) : State :=
  if n = 0 then s
  else
    let (b, s) := s.drawFrom d n
    if unitKind u = 0 then { s with cores := s.cores.modify (sheetCore u) fun k => k.takesDraw b } else s

/-- Launches a benchmark of a set on a unit. Its masks come from the region's HATCH instance: 32 octets, a figure that the
spec does not give (R277, R285; log 111). -/
def State.startBench (s : State) (u p : Nat) (confirm : Bool) : State :=
  if !s.hatchSeeded u then s
  else (s.drawFor (9 + unitRegion u) u 32).setUnit u fun x =>
    { x with job := .bench p confirm, ends := s.now + (setRow p).bench, lastBench := s.now
             benched := x.benched.put (famOf p) s.now }

/-! ## Transients (R358, R362) -/

/-- The transients of a unit that lie in its window. -/
def UnitSt.inWindow (x : UnitSt) (now : Nat) : List Nat := x.charges.filter fun b => decide (now < b + 10000000)

/-- Charges a unit with a transient of a row of the transients table. -/
def State.charge (s : State) (u row : Nat) : State :=
  let l := (s.unitSt u).inWindow s.now ++ [s.now]
  let s := s.setUnit u fun x =>
    { x with charges := l, mode := if x.mode = .inService then .suspect else x.mode, needBench := true }
  let s := { s with integ := { s.integ with transients := satAdd 32 s.integ.transients 1 } }
  s.raise Ev.intTransient (Origin.unit u) row l.length

/-! ## Free units -/

/-- The part needs a digest lane beside its engine: an EdDSA signature, alone or in a composite (R206). -/
def Ctx.laneFor (c : Ctx) (p : Part) : Bool :=
  (c.opcode == 0x2004 || c.opcode == 0x1812) && p.kind == 1 && curveForm p.fam == 3

/-- An engine operation holds its reserved lane until it ends (R206). -/
def State.holdsLane (s : State) (i : Nat) : Bool :=
  match s.ctxs.find i with
  | none => false
  | some c => decide (c.phase = .running) && c.parts.any fun p =>
      c.laneFor p && p.checkUnit.isNone && (decide (p.phase = .running) || decide (p.phase = .between))

/-- A lane is free at this boundary: it does not hatch in the tick that begins here (R17, R53), and its slab or its engine
operation has ended. -/
def State.laneFree (s : State) (l : Lane) : Bool :=
  l.hatchedAt != some s.now &&
  match l.busy with
  | none => true
  | some i => if l.reserved then !s.holdsLane i else decide (l.ends ≤ s.now)

/-- Every lane of a unit is free. -/
def State.lanesFree (s : State) (u : Nat) : Bool := (s.unitSt u).lanes.all fun p => s.laneFree p.2

/-- An undecided command has a part on this unit. -/
def State.jobAlive (s : State) (u i : Nat) : Bool :=
  match s.ctxs.find i with
  | none => false
  | some c => !c.phase.decided && c.parts.any fun p =>
      (p.unit == some u && (decide (p.phase = .running) || decide (p.phase = .between))) ||
      (p.checkUnit == some u && (decide (p.phase = .checking) || decide (p.phase = .between)))

/-- An engine that its region core has launched is free again at the boundary after BNCLEAR (R318). -/
def State.engineFree (s : State) (u : Nat) : Bool :=
  decide (unitKind u ≠ 1) ||
  (let x := s.engine (engineOf u)
   !x.busy && !x.done && decide (x.freeAt ≤ s.now))

/-- The unit runs nothing: it is idle, its hatching tick is over, or the command whose work it had has been decided. -/
def State.jobFree (s : State) (u : Nat) : Bool :=
  match (s.unitSt u).job with
  | .idle => s.engineFree u
  | .hatch => decide ((s.unitSt u).ends ≤ s.now)
  | .op i => decide ((s.unitSt u).ends ≤ s.now) && !s.jobAlive u i
  | .check i => decide ((s.unitSt u).ends ≤ s.now) && !s.jobAlive u i
  | .prepare _ _ => decide ((s.unitSt u).ends ≤ s.now)
  | .treeBatch _ _ => decide ((s.unitSt u).ends ≤ s.now)
  | _ => false

/-- The sheet that a build runs on now. -/
def Build.sheet (b : Build) : Nat := b.check.getD b.unit

/-- A part, or the join of a tree, waits between two legs on this unit (R49, R163). -/
def State.heldBetween (s : State) (u : Nat) : Bool :=
  s.stateful.builds.any (fun b => b.sheet == u && !b.left.isEmpty) ||
  s.ctxs.vals.any fun c => !c.phase.decided && c.parts.any fun p =>
    decide (p.phase = .between) && (match p.checkUnit with | some v => v == u | none => p.unit == some u)

/-- The unit's state lets it launch: working, in service or suspect, short of a third transient (R362, R363). -/
def State.mayLaunch (s : State) (u : Nat) : Bool :=
  s.working u && (decide ((s.unitSt u).mode = .inService) || decide ((s.unitSt u).mode = .suspect)) &&
  decide (((s.unitSt u).inWindow s.now).length < 3) && s.start.grat && (s.integ.due.find (unitRegion u)).isNone

/-- The unit is free for an operation at this boundary (R17). -/
def State.unitFree (s : State) (u : Nat) : Bool :=
  s.mayLaunch u && s.jobFree u && !s.heldBetween u && (decide (unitKind u < 2) || s.lanesFree u)

/-- A partner with two transients in its window is passed over while another free unit of its kind stands by (R359). -/
def State.passedOver (s : State) (u other : Nat) : Bool :=
  decide (2 ≤ ((s.unitSt u).inWindow s.now).length) &&
  (kindUnits (unitRegion u) (unitKind u)).any fun v =>
    v != u && v != other && s.unitFree v && decide (((s.unitSt v).inWindow s.now).length < 2)

/-! ## Residency and preparation (R31, R127, R174) -/

/-- The handles that a command names. -/
def Ctx.names (c : Ctx) : List Nat := [c.keyA, c.keyB].filter (· ≠ 0)

/-- A handle is resident in a region. -/
def State.residentIn (s : State) (r h : Nat) : Bool := (s.residency r h).isSome

/-- A set with a lattice part: its keys are prepared (R127). -/
def latticeSet (p : Nat) : Bool := [0x10, 0x11, 0x18].contains (paramGroup p)

/-- A Classic McEliece set (R174). -/
def mceSet (p : Nat) : Bool := paramGroup p == 0x15 && decide (p % 2 ^ 16 < 0x10)

/-- A key is ready: prepared, and its McEliece public key cached where an encapsulation names it. -/
def State.keyReady (s : State) (c : Ctx) (h : Nat) : Bool :=
  let p := (s.policyOfKey h).param
  (!latticeSet p || s.keys.prepared.contains h) &&
  (!(mceSet p && c.opcode == 0x1502 && h == c.keyA) || s.keys.mceCache.contains h)

/-- Every key of a command is resident in a region and prepared; a launched command holds the shares of a key bumped
since (R144). -/
def State.keysReady (s : State) (c : Ctx) (r : Nat) : Bool :=
  c.names.all fun h => (s.liveKey h).isNone || (s.residentIn r h && s.keyReady c h)

/-! ## Rejection loops (R50, R137, R176, R209) -/

/-- The iterations that the loop of a part takes with the draw given; RSA candidates are drawn one by one. -/
def State.loopsOf (s : State) (c : Ctx) (p : Part) (d : Nat) : Nat :=
  let inputs := [s.secretIn c c.keyA, c.payload, drawBytes d p.draws]
  if p.iter = 0 then 0
  else if p.mergeable then max 1 (Config.loopCount .mldsaSign p.fam inputs)
  else if p.rsaLoop then 1
  else max 1 (Config.loopCount .mcePublic p.fam inputs)

/-- The public seed ρ of an encoded lattice key: the last 32 octets of ML-KEM's, the first of ML-DSA's. -/
def rhoOf (set : Nat) (pk : Bytes) : Bytes :=
  if paramGroup set = 0x10 then pk.drop (pk.length - 32) else pk.take 32

/-- The ticks that the expansion of a lattice set's matrix adds: one for each batch of 7 blocks beyond a polynomial's budget.
The count depends on ρ alone (R129). -/
def expandTicks (set : Nat) (rho : Bytes) : Nat := Config.loopCount .expandA set [rho]

/-- A part of a lattice set expands the matrix: key generation, a key in the payload, or a preparation (R129, R145). -/
def Part.expands (p : Part) : Bool :=
  let r := setRow p.fam
  (paramGroup p.fam == 0x10 || paramGroup p.fam == 0x11) && p.iter == 0 &&
  (p.ticks == r.keygen || p.ticks == r.payload || p.ticks == r.prep)

/-- The encoded lattice key whose matrix a part expands: the one that a key generation makes of its draw, or the one in the
payload. -/
def State.expandedKey (s : State) (c : Ctx) (p : Part) (d : Nat) : Bytes :=
  let r := setRow p.fam
  if p.ticks = r.keygen then pubOf p.fam (drawBytes d (seedLen p.fam))
  else match c.opcode with
    | 0x1002 => c.payload
    | 0x1802 => c.payload.take r.pk
    | 0x1103 => bytesAt (s.headOf c) 16 r.pk
    | 0x1813 => bytesAt (s.headOf c) 16 r.pk
    | 0x1A02 => bytesAt c.payload 80 r.pk
    | _ => c.payload

/-- Ticks that samplers beyond their budget add to a part: a matrix expansion (R129), or 2 for each further batch of the
fixed-weight sampling of McEliece encapsulation and of HQC (R176). -/
def State.furtherTicks (s : State) (c : Ctx) (p : Part) (d : Nat) : Nat :=
  if p.expands then expandTicks p.fam (rhoOf p.fam (s.expandedKey c p d))
  else if c.opcode = 0x1502 ∨ famOf p.fam = 6 then
    2 * Config.loopCount .fixedWeight p.fam [s.secretIn c c.keyA, c.payload, drawBytes d p.draws]
  else 0

/-! ## Stream contexts on lanes (R222, R223) -/

/-- The stream that a context's slab belongs to: its STREAM_ID's, or its own. -/
def Ctx.laneKey (c : Ctx) (i : Nat) : Nat := if c.stream = 0 then 2 ^ 32 + i else c.q * 2048 + c.stream

/-- A context is resident under this key: its stream is open or kept and has run, or its single packet runs. -/
def State.liveLaneKey (s : State) (k : Nat) : Bool :=
  if 2 ^ 32 ≤ k then
    match s.ctxs.find (k - 2 ^ 32) with
    | some c => decide (c.phase = .running)
    | none => false
  else match s.stream (k / 2048) (k % 2048) with
    | some e => decide (e.st = .kept) || (decide (e.st = .opened) && (e.charged || e.fromKept))
    | none => false

/-- The context resident on a lane. -/
def State.residentKey (s : State) (y : Lane) : Option Nat :=
  match y.resident with
  | some k => if s.liveLaneKey k then some k else none
  | none => none

/-! ## The lane that an EdDSA signature reserves (R206, R241) -/

/-- The pipe may take slabs: it runs neither a benchmark nor hatching that has not ended. -/
def State.pipeOpen (s : State) (u : Nat) : Bool :=
  s.mayLaunch u && match (s.unitSt u).job with
    | .bench _ _ => false
    | .hatch => decide ((s.unitSt u).ends ≤ s.now)
    | _ => true

/-- The work lanes of a region's digest pipes that are free. -/
def State.freeWorkLanes (s : State) (r : Nat) : List (Nat × Nat) :=
  ((kindUnits r 2).filter fun u => s.pipeOpen u).flatMap fun u =>
    ((List.range 4).filter fun l => s.laneFree ((s.unitSt u).lane l)).map fun l => (u, l)

/-- The lane to reserve: one without a context, otherwise the least recently used (DESIGN CHOICE, log 40). -/
def State.laneToReserve (s : State) (r : Nat) : Option (Nat × Nat) :=
  let l := s.freeWorkLanes r
  match l.find? fun p => ((s.unitSt p.1).lane p.2).resident.isNone with
  | some p => some p
  | none => l.foldl (fun a p => match a with
      | none => some p
      | some b => if ((s.unitSt p.1).lane p.2).used < ((s.unitSt b.1).lane b.2).used then some p else a) none

/-- Saves the context of a lane whose stream has to leave: a keyed one sealed under the context key, with queue number,
STREAM_ID and save counter as associated data, an unkeyed one in clear. The counter is the nonce too (R223; log 115). -/
def State.saveLane (s : State) (u l : Nat) : State :=
  let y := (s.unitSt u).lane l
  match y.resident with
  | none => s
  | some k =>
    let n := s.keys.ctxSaves + 1
    let iv := le 12 n
    let keyed := !y.key.isEmpty
    let body := if keyed then gcmCrypt s.keys.ctxKey iv y.chain else y.chain
    let tag := if keyed then gcmTag s.keys.ctxKey iv (ctxAad (k / 2048) (k % 2048) n) body else []
    let s := { s with keys := { s.keys with ctxSaves := n } }
    let s := s.setStream (k / 2048) (k % 2048) fun e => { e with saved := some { keyed, counter := n, body, tag } }
    s.setLane u l fun y => { y with resident := none, key := [], chain := [] }

/-- What the reserved lane of an EdDSA signature returns to its engine: H(R ‖ A ‖ M) (R206). -/
def State.laneHash (s : State) (c : Ctx) (set : Nat) (draw : Bytes) : Bytes :=
  match curveOf set, s.engineShares c with
  | some k, some y =>
    let seed := draw.drop (draw.length - 32)
    let (ctx, m) := s.edInput c
    let r := k.encodeE (k.secretMul seed (k.edNonce y.value ctx m) k.base)
    k.edHashOf ctx (r ++ k.edPublic seed y.value ++ m)
  | _, _ => []

/-- Reserves a lane for the operation of a context; its resident context is saved. -/
def State.reserveLane (s : State) (i r : Nat) (hash : Bytes) : State :=
  match s.laneToReserve r with
  | none => s
  | some (u, l) => (s.saveLane u l).setLane u l fun y =>
      { y with resident := none, busy := some i, ends := s.now, absorbed := 0, used := s.now, reserved := true
               key := [], chain := hash }

/-! ## Launching a part -/

/-- A use of a command's keys makes their prepared and McEliece entries the most recently used (R128, R174). -/
def State.touchKeys (s : State) (c : Ctx) : State :=
  let used := fun (l : List Nat) => l.filter (fun h => !c.names.contains h) ++ l.filter c.names.contains
  { s with keys := { s.keys with prepared := used s.keys.prepared, mceCache := used s.keys.mceCache } }

/-- Part `k` of a command goes to unit `u` at this boundary; it becomes the first of the list, whose unit a completion
names (R450). The command takes its keys' shares (R31, R144), an engine its operand memory. -/
def State.startPart (s : State) (i k u : Nat) (p : Part) (retries : Nat) : State :=
  match s.ctxs.find i with
  | none => s
  | some c =>
    let r := unitRegion u
    let d := s.free
    let s := s.drawFor r u p.draws
    let x := s.unitSt u
    let c := { c with shares := s.takeShares c r }
    let n := min 256 (s.loopsOf c p d)
    let n := if p.mergeable then n else s.loopsOf c p d
    let longer := { p with ticks := p.ticks + s.furtherTicks c p d }
    let (leg, left) := p.nextLeg (x.lastBench + 2000 - s.now) (longer.pieces n)
    let q := { p with
      phase := .running
      unit := some u
      checkUnit := none
      ends := s.now + leg
      left := left
      retries := retries
      hatched := x.hatchedAt == some (s.now - 1) && decide (0 < s.now)
      draw := d
      cands := if p.rsaLoop then [d] else []
      finishing := false }
    let s := if c.laneFor p then s.reserveLane i r (s.laneHash c p.fam (drawBytes d p.draws)) else s
    let s := s.loadEngine c u p.fam (drawBytes d p.draws) (p.draws != 0)
    let s := (s.touchKeys c).setUnit u fun x => x.takes (.op i) (s.now + leg) p.fam
    s.setCtx i fun c =>
      { c with parts := q :: c.parts.eraseIdx k, phase := .running, region := r, progress := s.now, result := none,
               waitFrom := none, shares := s.takeShares c r }

/-! ## The tests before a first launch (R143, R167) -/

/-- The tests of the survey commands at launch: the datum of a batch (R192), the window of an anchor (R194, R196). -/
def State.anchorTest (s : State) (c : Ctx) : Option Nat :=
  if c.opcode = 0x1A01 then (if s.trusted then none else some St.timeUntrusted)
  else if c.opcode = 0x1A03 then
    match s.anchorHeld c.slice (c.payload.take 32) with
    | some a => s.windowTest a.start a.stop
    | none => some St.keyUnknown
  else if c.opcode = 0x1A02 then s.windowTest (s.anchorWindow c).1 (s.anchorWindow c).2
  else none

/-- Octets of a stored RSA CRT set (R200). -/
def rsaMaterialLen (p : Nat) : Nat := 5 * (rsaLen p / 2) + rsaLen p + 32

/-- Octets of the material of a set's generated key. -/
def materialLenOf (p : Nat) : Nat :=
  if paramGroup p = 0x20 ∧ curveForm p = 0 then rsaMaterialLen p else (setRow p).secret

/-- Octets of an entering key that are stored: of a lattice key that comes expanded the seed alone (R269). The lengths of
expanded keys with their seeds are those of no other material. -/
def enteringLen (n : Nat) : Nat := if [1696, 2464, 3232].contains n then 64 else if [2592, 4064, 4928].contains n then 32 else n

/-- Octets that a depositing command will store, as far as they decide on an extent (R261). -/
def State.depositSize (s : State) (c : Ctx) : Nat :=
  match c.opcode with
  | 0x4002 => c.payload.length - 64
  | 0x3204 => enteringLen (uAt c.payload 8 4 - 64)
  | 0x4006 => uAt c.payload 0x0C 4 - 64
  | 0x4009 => enteringLen (uAt c.payload 0x18 8 - 64)
  | _ => if createsKey c.opcode then materialLenOf (s.setOf c) else 0

/-- A launched command has taken an extent that it has not filled yet. -/
def State.extentTaken (s : State) (c : Ctx) : Bool :=
  decide (c.phase = .running) && (c.reserved.isSome || c.opcode == 0x4006) && decide (896 < s.depositSize c)

/-- An extent is free for a command where its key needs one (R261). -/
def State.extentFits (s : State) (c : Ctx) (slots : Nat) : Bool :=
  let taken := s.ctxs.vals.filter s.extentTaken
  decide (s.depositSize c ≤ 896) ||
  s.extentFree c.slice slots (taken.filter fun d => d.slice == c.slice).length taken.length

/-- Step 4 of R143: a free slot, and an extent where the key needs one (R261). KEY_RESTORE takes the slot of its blob. -/
def State.reserveFor (s : State) (i : Nat) (c : Ctx) : Option State :=
  if !s.deposits c.opcode && c.opcode != 0x4006 then some s
  else match s.slices.find c.slice with
    | none => none
    | some y =>
      if !s.extentFits c y.keySlots then none
      else if c.opcode = 0x4006 then (if s.slotsUsed c.slice < y.keySlots then some s else none)
      else match s.reserve c.slice y.keySlots with
        | none => none
        | some (h, s) => some (s.setCtx i fun c => { c with reserved := some h })

/-- What the tests of R143 and R167 make of a waiting command at this boundary. -/
inductive Gate where
  | refused (status : Nat)
  | waits
  | passed (s : State)

/-- The tests of a command at its first launch, in order; they charge the quotas and reserve the slot. -/
def State.gate (s : State) (i : Nat) (c : Ctx) : Gate :=
  match s.keyTests c with
  | .error st => .refused st
  | .ok s1 =>
    match s.anchorTest c with
    | some st => .refused st
    | none =>
      let signs := c.opcode = 0x1302 ∨ c.opcode = 0x1402
      match (if signs ∧ c.stream = 0 then s.leafState c.keyA else .ready 0) with
      | .exhausted => .refused St.stateExhausted
      | .waits => .waits
      | .ready n =>
        let s1 := if signs ∧ c.stream = 0 then
                    (s1.setCtx i fun c => { c with leaf := some n }).assignLeaf c.keyA else s1
        match s1.reserveFor i c with
        | none => .refused St.quota
        | some s2 => .passed s2

/-- A waiting command that may launch at this boundary, as far as its queue goes. -/
def State.ripeAny (s : State) (c : Ctx) : Bool :=
  s.serving && !s.unsettled && decide (c.phase = .waiting) && decide (c.accepted < s.now) && !s.blocked c

/-- The slabs that a command's message needs before its unit launches have passed. -/
def State.slabsDone (s : State) (c : Ctx) : Bool :=
  let n := (c.parts.filter fun p => p.slab && decide (p.phase = .passed)).length
  decide ((if s.pipesFirst c then 1 else s.heldPasses c) ≤ n)

/-- Marks the first launch of a command (R56, R187). Where slabs of its message ran before, LAUNCH is that of its own unit,
not of the slabs: R82 says "first launch" of neither (DESIGN CHOICE, log 110). -/
def State.markLaunch (s : State) (i : Nat) : State :=
  s.setCtx i fun c => { c with launchV := s.datum.v, launchTick := s.now, startUnc := s.unc, startSt := s.datum.st, progress := s.now }

/-- The lowest stage with a part that has not passed. -/
def stageOf (parts : List Part) : Nat :=
  (parts.filter fun p => decide (p.phase ≠ .passed)).foldl (fun a p => min a p.stage) 1000

/-- The position of the last part of a list that meets a test. -/
def lastIdx (f : Part → Bool) (parts : List Part) : Option Nat :=
  ((List.range parts.length).reverse).find? fun k => match parts[k]? with | some p => f p | none => false

/-- The position of the first part that meets a test. -/
def firstIdx (f : Part → Bool) (parts : List Part) : Option Nat :=
  (List.range parts.length).find? fun k => match parts[k]? with | some p => f p | none => false

/-- The next part that a unit of kind `k` may take: unlaunched, of the current stage. -/
def nextPart (slab : Bool) (k : Nat) (parts : List Part) : Option Nat :=
  lastIdx (fun p => decide (p.phase = .waiting) && p.slab == slab && p.kind == k && p.stage == stageOf parts) parts

/-- Ticks of the first piece of a part: what the test of R54 counts. -/
def Part.firstPiece (p : Part) : Nat := match p.pieces 1 with | t :: _ => t | [] => 0

/-! ## The end of a command -/

/-- What a command that a pack adds answers: its firmware is the pack's own, so output and deposit are free values of the
command's inputs, as long as its rows say (R87, R351; log 107). -/
def State.packResultOf (s : State) (c : Ctx) : Result :=
  let r := setRow (s.setOf c)
  let value := fun k n => fit n (Config.prim .packResult (4 * c.opcode + k) [c.payload, s.secretIn c c.keyA, c.parts.flatMap fun p => drawBytes p.draw p.draws])
  let n := (s.fixedOut c.opcode (s.setOf c) c.payload).getD r.out
  if !s.deposits c.opcode then { Result.bare St.ok with out := value 0 n }
  else
    let len := if r.shared ≠ 0 then r.shared else r.secret
    let own := c.keyB = 0 ∨ s.creationOk (c.payload.take 64)
    let pol := if own then { s.policyAt c.payload with materialLen := len, depth := if c.keyB = 0 then 1 else (s.policyOfKey c.keyB).depth + 1 }
               else (s.policyOfKey c.keyB).child len true
    { Result.bare St.ok with
      out := value 0 (n - 8), deposit := some (Masked.of (maskDraw c.seq len) (value 1 len)), depositPolicy := pol.bytes }

/-- Releases a settled result (R81, R87, R130, R143, R144). -/
def State.releaseResult (s : State) (i : Nat) (c : Ctx) (r : Result) : State :=
  if c.drop then s.failWith i St.aborted
  else if r.status ≠ St.ok then s.conclude i r
  else
    let deposited := r.deposit.isSome
    let n := if r.entries.isEmpty then r.out.length + (if deposited then 8 else 0)
             else (r.entries.map List.length).sum
    if c.outLimit < n then s.failWith i St.outLimit
    else if c.opcode = 0x4006 then
      match s.restoreKey c r with
      | .error st => s.failWith i st
      | .ok s => s.conclude i (Result.restored c)
    else match r.deposit, c.reserved with
      | some m, some h =>
        if c.orphaned then s.failWith i St.keyOrphaned
        else
          let s := (s.deposit h c.keyB (s.policyAt r.depositPolicy) m.open r.depositPub).releaseEffects c r
          let s := s.setCtx i fun c => { c with reserved := none }
          s.conclude i { r with out := le 8 h ++ r.out, deposit := none, depositPolicy := [], depositPub := [] }
      | _, _ => (s.releaseEffects c r).conclude i r

/-- A part is over: it has passed, or its command is dropped and it launches no more (R107, R192). -/
def Ctx.partOver (c : Ctx) (p : Part) : Bool :=
  decide (p.phase = .passed) || (c.drop && (decide (p.phase = .waiting) || decide (p.phase = .withheld)))

/-- Decides a command all of whose parts have passed their checks. A CONT packet has no result; a command whose message
slabs alone have passed goes on to its unit; the batch of a stream that still arrives goes on; RANDOM_BYTES takes no unit; the
chief core goes on with a command whose signature has been verified. -/
def State.settle (s : State) (i : Nat) : State :=
  match s.ctxs.find i with
  | none => s
  | some c =>
    if c.phase ≠ .running || !c.parts.all c.partOver then s
    else if c.batch then (if c.drop then s.failWith i St.aborted else s)
    else if (match c.bearingEnd with | some b => decide (s.now < b) | none => false) then s
    else if c.drop then s.failWith i St.aborted
    else if chiefVerifies c.opcode then s.setCtx i fun c => { c with phase := .waiting }
    else if c.cont then s.conclude i (Result.bare St.ok)
    else if !slabCommand c.opcode && !c.parts.isEmpty && c.parts.all Part.slab then s.setCtx i fun c => { c with phase := .waiting }
    else match c.result with
      | none => if s.packOp c.opcode then s.releaseResult i c (s.packResultOf c) else s
      | some r => if c.opcode = 0x1A01 && decide (r.status = St.ok) && !c.bearingOk then s else s.releaseResult i c r

/-- Every part of a command has launched: its draws are known, so its result is (DESIGN CHOICE, log 21). -/
def Ctx.allLaunched (c : Ctx) : Bool :=
  decide (c.phase = .running) && !c.cont && !c.batch && c.parts.all (fun p => p.unit.isSome) &&
  (c.opcode != 0x1A01 || c.parts.any fun p => p.stage == 2) &&
  (slabCommand c.opcode || c.parts.any fun p => !p.slab)

/-- Gives a launched command of an opcode its result and decides it where its checks have passed. -/
def State.compute (s : State) (i opcode : Nat) (f : Ctx → State → Result) : State :=
  match s.ctxs.find i with
  | none => s
  | some c =>
    if c.opcode = opcode ∧ c.allLaunched ∧ c.result = none then
      (s.setCtx i fun c' => { c' with result := some (f c s) }).settle i
    else s

/-- A part's result is withheld: a rerun is due, or the third withholding ends the command (R224, R360). -/
def State.withhold (s : State) (i k : Nat) : State :=
  match s.ctxs.find i with
  | none => s
  | some c =>
    match c.parts[k]? with
    | none => s
    | some p =>
      if c.drop then s.failWith i St.aborted
      else if 2 ≤ p.retries then s.failWith i St.unitFault
      else s.setCtx i fun c => { c with parts := c.parts.set k { p with phase := .withheld, left := [] }, result := none }

/-- Frees a unit at the end of a leg. -/
def State.freeUnit (s : State) (u : Nat) : State := s.setUnit u fun x => { x with job := .idle, scrub := true }

/-- Frees a unit at the end of its operation; a sheet clears itself (R341). -/
def State.endUnit (s : State) (u : Nat) : State := (s.freeUnit u).clearSheet u

end Sys2Proof.Machine
end

