-- ==== Sys2Proof/Machine/Schemes.lean ====
section
/-! DEFINITION. The signatures, agreements and key checks that several commands share (R131 to R133, R140, R205 to R214,
R263, R269). A mask seed decides the randomisers of a private operation and no value of its result. -/

namespace Sys2Proof.Machine

open Sys2Proof

/-! ## Draws of a classical part (R217) -/

/-- The mask seed of a draw: its last 32 octets. -/
def maskSeed (draw : Bytes) : Bytes := draw.drop (draw.length - 32)

/-- The nonce input that a hedged ECDSA signature draws before its mask. -/
def nonceInput (draw : Bytes) : Bytes := if 64 ≤ draw.length then draw.take 32 else []

/-! ## Signatures of one scheme -/

/-- An ML-DSA signature over a signed string with `rnd` (R132, R133). -/
def mldsaSig (p : Nat) (xi m' rnd : Bytes) : Bytes := fit (setRow p).out (Config.prim .mldsaSign p [xi, m', rnd])

/-- An ECDSA signature of a digest with the draws of its part; without a nonce input it is deterministic (R205, R213). -/
def ecdsaSig (p hash : Nat) (d dig draw : Bytes) : Bytes :=
  match curveOf p with
  | some k => fit (setRow p).out (k.ecdsaSign (hashSel hash) (maskSeed draw) d dig (nonceInput draw))
  | none => []

/-- An ECDSA signature of a digest verifies (R210). -/
def ecdsaOk (p : Nat) (pk dig sig : Bytes) : Bool := match curveOf p with | some k => k.ecdsaVerify pk dig sig | none => false

/-- An EdDSA signature (RFC 8032). -/
def eddsaSig (p : Nat) (d ctx m draw : Bytes) : Bytes :=
  match curveOf p with
  | some k => fit (setRow p).out (k.edSign (maskSeed draw) d ctx m)
  | none => []

/-- An EdDSA signature verifies (R210). -/
def eddsaOk (p : Nat) (pk ctx m sig : Bytes) : Bool := match curveOf p with | some k => k.edVerify pk ctx m sig | none => false

/-! ## Composite signatures (R140) -/

/-- The classical part of a composite signature. -/
def classicSig (q : Nat) (d rep draw : Bytes) : Bytes :=
  if curveForm q = 3 then eddsaSig q d [] rep draw else ecdsaSig q (classicHash q) d (hashByCode (classicHash q) rep) draw

/-- The classical part verifies. -/
def classicOk (q : Nat) (pk rep sig : Bytes) : Bool :=
  if curveForm q = 3 then eddsaOk q pk [] rep sig else ecdsaOk q pk (hashByCode (classicHash q) rep) sig

/-- A composite signature with a stored key: the ML-DSA seed, then the classical secret. -/
def compositeSig (p : Nat) (key ctx m rnd draw : Bytes) : Bytes :=
  let rep := compositeRep p ctx m
  let n := (setRow (latticePart p)).secret
  mldsaSig (latticePart p) (key.take n) (pureMsg [] rep) rnd ++ classicSig (classicPart p) (key.drop n) rep draw

/-- A composite signature verifies: both parts do. -/
def compositeOk (p : Nat) (pk ctx m sig : Bytes) : Bool :=
  let rep := compositeRep p ctx m
  let lat := latticePart p
  Config.verdict .mldsaVerify lat [pk.take (setRow lat).pk, pureMsg [] rep, sig.take (setRow lat).out] &&
  classicOk (classicPart p) (pk.drop (setRow lat).pk) rep (sig.drop (setRow lat).out)

/-! ## Curves: secrets and agreement (R138, R139, R207, R210, R211, R217) -/

/-- The classical secret that a draw gives: a scalar for FORM 1, the octets themselves otherwise. -/
def classicSecret (p : Nat) (draw : Bytes) : Bytes :=
  let n := (setRow p).secret
  match curveOf p with
  | some k => if k.form = 1 then be n (k.scalarOf (draw.take (seedLen p))) else fit n (draw.take n)
  | none => []

/-- A classical public value passes the checks of its form: a FORM 2 value is not tested, a FORM 3 one decodes. -/
def pointOk (q : Nat) (pk : Bytes) : Bool :=
  match curveOf q with
  | some k => if k.form = 1 then k.pointOk pk else k.form == 2 || (k.decodeE pk).isSome
  | none => false

/-- The shared value of an agreement. -/
def agreed (q : Nat) (d pk draw : Bytes) : Bytes :=
  match curveOf q with
  | some k => if k.form = 2 then k.xAgree (maskSeed draw) d pk else k.ecdh (maskSeed draw) d pk
  | none => []

/-- The peer's value is on the curve, or gives a FORM 2 output that is not all zero. -/
def agreeOk (q : Nat) (d pk draw : Bytes) : Bool := pointOk q pk && (curveForm q != 2 || !(agreed q d pk draw).all (· == 0))

/-! ## RSA (R208 to R210, R214) -/

/-- N of an RSA public key, and e. -/
def rsaN (p : Nat) (pk : Bytes) : Nat := beNat (pk.take (rsaLen p))
def rsaExp (p : Nat) (pk : Bytes) : Nat := beNat (pk.drop (rsaLen p))

/-- An RSA public key that R210 accepts. -/
def rsaPubOk (p : Nat) (pk : Bytes) : Bool :=
  rsaN p pk % 2 == 1 && decide (2 ^ (8 * rsaLen p - 1) ≤ rsaN p pk) && rsaExp p pk % 2 == 1 && decide (65537 ≤ rsaExp p pk)

/-- A ciphertext or signature representative that R210 accepts. -/
def representativeOk (p : Nat) (pk b : Bytes) : Bool := decide (2 ≤ beNat b) && decide (beNat b < rsaN p pk - 1)

/-- The rejection secret of an RSA key. How it derives from the key the spec does not say (log 112). -/
def oaepReject (p : Nat) (key : Bytes) : Bytes := fit 32 (Config.prim .oaepReject p [key])

/-- The key that RSA_DECRYPT deposits: the recovered message where it decodes to `len` octets, otherwise octets of KMAC256
under the key's rejection secret (R208). -/
def oaepSecret (p len hash : Nat) (key seed label ct : Bytes) : Bytes :=
  let m := oaepDecode (hashSel hash) (rsaLen p) label (be (rsaLen p) (rsaPrivateOp (rsaKeyOf (rsaLen p) key) seed (beNat ct)))
  if (m.map List.length) = some len then m.getD []
  else kmac256 len (oaepReject p key) (ct ++ label) "MAELARN-OAEP-REJ"

/-- The pairwise consistency test of a CRT set: the private and the public operation on a fixed value; which value, the
spec does not say (R216; log 112). -/
def rsaPairwise (p : Nat) (key : Bytes) : Bool :=
  let k := rsaKeyOf (rsaLen p) key
  decide (2 < k.n) && rsaPublicOp k.n k.e (rsaPrivateOp k [] 2) == 2

/-! ## Public keys (R131, R156 to R158, R175, R210, R263) -/

/-- The modulus check of FIPS 203: every 12-bit coefficient of the packed vector lies below 3,329. -/
def modulusOk (p : Nat) (pk : Bytes) : Bool :=
  (List.range (((setRow p).pk - 32) / 3)).all fun i =>
    let v := uAt pk (3 * i) 3
    decide (v % 4096 < 3329) && decide (v / 4096 < 3329)

/-- A classical public key passes the checks of its form. -/
def classicPubOk (p : Nat) (pk : Bytes) : Bool := if curveForm p = 0 then rsaPubOk p pk else pointOk p pk

/-- A public key passes the checks of the payload form of its family (R263). -/
def publicOk (p : Nat) (pk : Bytes) : Bool :=
  match paramGroup p with
  | 0x10 => modulusOk p pk
  | 0x13 => hssKeyShape pk
  | 0x14 => xmssKeyShape p pk
  | 0x15 => Config.verdict .hqcKeyOk p [pk]
  | 0x18 =>
    let lat := latticePart p
    let n := (setRow lat).pk
    (paramGroup lat != 0x10 || modulusOk lat (pk.take n)) && classicPubOk (classicPart p) (pk.drop n)
  | 0x20 => classicPubOk p pk
  | _ => true

/-! ## Entering material (R269) -/

/-- Octets of the FIPS 203 expanded decapsulation key and the FIPS 204 expanded signing key of a set. -/
def expandedLen (p : Nat) : Nat :=
  match p with
  | 0x00100001 => 1632
  | 0x00100002 => 2400
  | 0x00100003 => 3168
  | 0x00110001 => 2560
  | 0x00110002 => 4032
  | 0x00110003 => 4896
  | _ => 0

/-- The expanded key that a seed regenerates (FIPS 203, FIPS 204). -/
def expandedKey (p : Nat) (seed : Bytes) : Bytes :=
  fit (expandedLen p) (Config.prim (if paramGroup p = 0x10 then .mlkemSecret else .mldsaSecret) p [seed])

/-- The hash check of FIPS 203 section 7.3: 32 octets before the last 32 are SHA3-256 of the encapsulation key inside. -/
def dkHashOk (dk : Bytes) : Bool :=
  let k := (dk.length - 96) / 768
  bytesAt dk (768 * k + 32) 32 == sha3x256 (bytesAt dk (384 * k) (384 * k + 32))

/-- The classical private key passes: an elliptic-curve d lies in [1, n - 1], an RSA CRT set is consistent. -/
def classicKeyOk (p : Nat) (m : Bytes) : Bool :=
  match curveOf p with
  | some k => k.form != 1 || decide (1 ≤ beNat m ∧ beNat m < k.n)
  | none => rsaPairwise p m

/-- Entering material passes the checks of its family. -/
def materialOk (q : Policy) (m : Bytes) : Bool :=
  let p := q.param
  let n := (setRow p).secret
  let x := m.drop n
  q.materialLen == m.length &&
  (if q.publicOnly then pkLenOk p m.length && publicOk p m
   else match paramGroup p with
    | 0x10 => m.length == n || (m.length == n + expandedLen p && dkHashOk x && x == expandedKey p (m.take n))
    | 0x11 => m.length == n || (m.length == n + expandedLen p && x == expandedKey p (m.take n))
    | 0x20 => m.length == materialLenOf p && classicKeyOk p m
    | 0x18 => m.length == n && classicKeyOk (classicPart p) (m.drop (setRow (latticePart p)).secret)
    | 0x31 => keyLenOk p m.length
    | 0x32 => keyLenOk p m.length
    | _ => m.length == n)

/-- What of entering material is stored: the seed alone for a lattice key. -/
def storedMaterial (q : Policy) (m : Bytes) : Bytes :=
  if (paramGroup q.param = 0x10 ∨ paramGroup q.param = 0x11) ∧ !q.publicOnly then m.take (setRow q.param).secret else m

end Sys2Proof.Machine
end

