-- ==== Sys2Proof/Machine/Seals.lean ====
section
/-! DEFINITION. Keys that enter from outside: the narrowing of an envelope's policy (R268) and the checks of their
material by family (R269), shared by UNWRAP and KEY_IMPORT. -/

namespace Sys2Proof.Machine

open Sys2Proof

/-- The policy of a key from an envelope under a parent: usage, window, EXPORTABLE and DEPTH narrowed, IMPORTED set;
every other field is the envelope's (R257, R268). -/
def Policy.narrow (env parent : Policy) (sharedKek : Bool) (len : Nat) : Policy :=
  { env with
    usage := env.usage &&& parent.childUsage
    notBefore := max env.notBefore parent.notBefore
    notAfter := min env.notAfter parent.notAfter
    materialLen := len
    flags := b2n (env.exportable && parent.childExportable) + 2 * b2n env.childExportable + 4 * b2n env.persistable +
             8 * b2n (env.shared || sharedKek) + 16 * b2n env.stateful + 32 + 64 * b2n env.publicOnly
    depth := parent.depth + 1 }

/-- The deposit of an entering key with inner plaintext (policy block, then material) under a parent; none: rejected. -/
def enteringKey (s : State) (inner : Bytes) (parent : Policy) (sharedKek : Bool) : Option (Policy × Bytes × Bytes) :=
  let q := s.policyAt (inner.take 64)
  let m := inner.drop 64
  if !s.policyWf (inner.take 64) || !materialOk q m then none
  else
    let kept := storedMaterial q m
    let pub := if q.publicOnly then kept else []
    some (q.narrow parent sharedKek kept.length, kept, pub)

/-- A successful result that deposits a key and answers `out` after its handle; the key stands under a mask of the operation
(R28). -/
def Result.deposits (mask : Nat) (p : Policy) (m pub out : Bytes) : Result :=
  { Result.bare St.ok with out := out, deposit := some (Masked.of (maskDraw mask m.length) m), depositPolicy := p.bytes, depositPub := pub }

/-- The draw whose octets mask what a command deposits: its first part's. -/
def Ctx.maskOf (c : Ctx) : Nat := match c.parts with | p :: _ => p.draw | [] => c.seq

/-- A deposit without a creation block under KEY_B (R257, R258). -/
def State.childResult (s : State) (c : Ctx) (secret : Bytes) (shared : Bool) (out : Bytes) : Result :=
  Result.deposits c.maskOf ((s.policyOfKey c.keyB).child secret.length shared) secret [] out

/-- A deposit with the creation block of the payload (R255, R256): depth, length and device flags are the device's. -/
def State.createdResult (s : State) (c : Ctx) (material pub out : Bytes) (devFlags counter : Nat) : Result :=
  let q := s.policyAt c.payload
  let depth := if c.keyB = 0 then 1 else (s.policyOfKey c.keyB).depth + 1
  Result.deposits c.maskOf { q with materialLen := material.length, flags := q.flags + devFlags, depth := depth, counter := counter }
    material pub out

/-- A verdict as a result: ST_OK without output, or ST_INPUT_REJECTED. -/
def Result.verdict (ok : Bool) : Result := Result.bare (if ok then St.ok else St.inputRejected)

/-- A result with output. -/
def Result.output (out : Bytes) : Result := { Result.bare St.ok with out := out }

end Sys2Proof.Machine
end

