-- ==== Sys2Proof/Machine/Identity.lean ====
section
/-! DEFINITION. Composite signatures (R140), the device identity (R249) and certificate chains (R250, R251), shared by
the commands that sign with the identity or judge a peer. -/

namespace Sys2Proof.Machine

open Sys2Proof

/-! ## The device identity (R249) -/

/-- The identity's secret halves: ξ, then the P-384 scalar. -/
def State.identityKey (s : State) : Bytes :=
  s.keys.identity.take 32 ++ be 48 (curveP384.scalarOf (bytesAt s.keys.identity 32 56))

/-- A composite signature of the identity with the context given. -/
def State.identitySig (s : State) (ctx : String) (m rnd draw : Bytes) : Bytes :=
  compositeSig 0x00180013 s.identityKey (ascii ctx) m rnd draw

/-- The identity's signature as part of a command, with the parts' draws. -/
def State.identitySigBy (s : State) (c : Ctx) (ctx : String) (m : Bytes) : Bytes :=
  s.identitySig ctx m ((c.drawn 0x00110003).take 32) (c.drawn 0x00200002)

/-! ## Chains (R250, R251) -/

/-- The two cached identity keys of a peer for a slice (R268). -/
def State.peerKeys (s : State) (slice serial : Nat) : Option Bytes :=
  ((s.keys.peers.getD slice []).find? fun p => p.1 == serial).map Prod.snd

/-- The signed part of an IMPORT_PREPARE or KEY_RECEIVE_PREPARE output (R113). -/
def prepareHead (session serial : Nat) (ek : Bytes) : Bytes := le 4 session ++ le 4 0 ++ le 8 serial ++ ek

/-- Steps 2 and 3 of R114 for a prepare output and a chain. -/
def prepareOk (ctx : String) (out chain : Bytes) : Bool :=
  chainOk chain && compositeOk 0x00180013 (chainKeys chain) (ascii ctx) (out.take 0x630) (out.drop 0x630) &&
  uAt out 8 8 == chainSerial chain

/-- The head of an export blob or envelope: everything before the body (R115). -/
def blobHead (format session source target bodyLen v : Nat) (ct nonce : Bytes) : Bytes :=
  le 4 format ++ le 4 session ++ le 8 source ++ le 8 target ++ le 8 bodyLen ++ le 8 v ++ ct ++ nonce

/-- The blob key: KMAC256 keyed with the shared secret over bytes 0x00 to 0x27 (R115). -/
def blobKey (label : String) (shared head : Bytes) : Bytes :=
  kmac256 32 shared (head.take 0x28) label

/-- Seals a body: ciphertext, then tag. -/
def sealBody (key nonce aad body : Bytes) : Bytes := gcmSeal key nonce aad body

/-- The blob or envelope of a body, signed by the source's identity (R115). -/
def State.blobOf (s : State) (format : Nat) (label : String) (session target v : Nat) (ek m nonce body rnd draw : Bytes) :
    Bytes :=
  let ct := fit 1568 (Config.prim .mlkemEncapsCt 0x00100003 [ek, m])
  let shared := fit 32 (Config.prim .mlkemEncapsKey 0x00100003 [ek, m])
  let head := blobHead format session s.keys.serial target body.length v ct nonce
  let whole := head ++ sealBody (blobKey label shared head) nonce head body
  whole ++ s.identitySig label whole rnd draw

/-- The body of a blob that a session's seed opens; none: a check of R118 or R268 fails. -/
def State.openBlob (s : State) (format : Nat) (label : String) (sess : Session) (peer : Option Bytes) (blob : Bytes) :
    Option Bytes :=
  let n := uAt blob 0x18 8
  let head := blob.take 0x654
  let ct := bytesAt blob 0x28 1568
  let shared := fit 32 (Config.prim .mlkemDecaps 0x00100003 [sess.seed, ct])
  let key := blobKey label shared head
  let nonce := bytesAt blob 0x648 12
  let signed := match peer with
    | some pk => compositeOk 0x00180013 pk (ascii label) (blob.take (0x664 + n)) (blob.drop (0x664 + n))
    | none => false
  if uAt blob 0 4 == format && blob.length == 0x664 + n + 4723 && uAt blob 4 4 == sess.id &&
     uAt blob 0x10 8 == s.keys.serial && signed then
    gcmOpen key nonce head (bytesAt blob 0x654 n) (bytesAt blob (0x654 + n) 16)
  else none

/-! ## Sessions (R113) -/

/-- A session closes 600 s of reference time after it was opened. -/
def Session.expired (x : Session) (now : Nat) : Bool := decide (x.opened + 600000000 ≤ now)

end Sys2Proof.Machine
end

