-- ==== Sys2Proof/Machine/Lattice.lean ====
section
/-! DEFINITION. Residency and preparation of keys (R31, R127 to R129, R174), and the results of the lattice, hybrid and
composite commands (R126, R130 to R141). Each command's row computes its result once its parts have launched, and the
result is released when their checks have passed. -/

namespace Sys2Proof.Machine

open Sys2Proof

/-! ## KEY_RESIDENCY (R31) -/

/-- An unreleased operation names a handle. -/
def State.named (s : State) (h : Nat) : Bool := s.ctxs.vals.any fun c => c.names.contains h

/-- An operation that has not been decided names a handle. -/
def State.awaited (s : State) (h : Nat) : Bool := s.ctxs.vals.any fun c => c.names.contains h && !c.phase.decided

/-- Makes room in a list of at most `n` entries of handles, least recently used first: the first that no unreleased
operation names goes. -/
def State.makeRoom {α : Type} (s : State) (handle : α → Nat) (n : Nat) (l : List α) : Option (List α) :=
  if l.length < n then some l
  else if l.any fun x => !s.named (handle x) then some (l.eraseP fun x => !s.named (handle x))
  else none

/-- Where random service has halted, a key that is resident nowhere can no longer be split: the commands that wait for it
fail (R285; log 113). -/
def State.failUnsplit (s : State) (h : Nat) : State :=
  if (List.range 4).any fun r => s.residentIn r h then s
  else s.ctxs.foldl (fun t p =>
    if decide (p.2.phase = .waiting) && p.2.names.contains h then t.refuse p.1 St.entropyFailed else t) s

/-- The alarm of a key whose vault record or extent does not open (R261, R369). -/
def State.vaultAlarm (s : State) (h : Nat) : Option Nat := (s.keys.slots.find (slotKey h)).bind fun x => x.badVault s.keys.vaultKey

/-- The key store controller unseals a key from the vault, splits it under a mask from the region's DRBG and makes the two
shares resident for an operation that names it. While the instance does not serve, the key waits (log 113). A record whose
tag fails raises the alarm KEYSTORE. -/
def execKeyResidency (handle r : Nat) (s : State) : Out :=
  if 4 ≤ r then .fault .noSuchRegion
  else if (s.liveKey handle).isNone || !s.serving || s.regionRetired r || s.residentIn r handle || !s.awaited handle then
    .next s
  else match s.drawState r, s.makeRoom Residency.handle 4096 (s.keys.resident.getD r []) with
    | .serves, some l =>
      match s.vaultAlarm handle with
      | some code => .next (s.alarm 4 code)
      | none =>
        let m := s.secretOf handle
        let (mask, s) := s.drawFrom r m.length
        .next { s with keys := { s.keys with resident := s.keys.resident.put r (l ++ [Residency.split handle mask m]) } }
    | .failed, _ => .next (s.failUnsplit handle)
    | _, _ => .next s

/-! ## KEY_PREPARATION (R127, R128, R174) -/

/-- The set whose preparation a key needs: the lattice part of its set. -/
def State.prepSet (s : State) (h : Nat) : Nat := latticePart (s.policyOfKey h).param

/-- Cache entries that a McEliece public key takes. -/
def mceEntries (p : Nat) : Nat := if p = 0x00150005 then 2 else 1

/-- Entries of the McEliece cache in use. -/
def State.mceUsed (s : State) (l : List Nat) : Nat := (l.map fun h => mceEntries (s.policyOfKey h).param).sum

/-- Evicts unnamed entries, oldest first, until `need` fit into 1,024; `fuel` bounds the evictions. -/
def State.mceRoom (s : State) (need : Nat) : Nat → List Nat → Option (List Nat)
  | 0, _ => none
  | f + 1, l =>
    if s.mceUsed l + need ≤ 1024 then some l
    else match l.find? fun h => !s.named h with
      | some h => State.mceRoom s need f (l.erase h)
      | none => none

/-- Loads a McEliece public key into its cache before an encapsulation that names it. -/
def State.loadMce (s : State) (h : Nat) : State :=
  match s.mceRoom (mceEntries (s.policyOfKey h).param) 1025 s.keys.mceCache with
  | some l => { s with keys := { s.keys with mceCache := l ++ [h] } }
  | none => s

/-- Changes the preparations under way. -/
def State.setPreps (s : State) (f : List Build → List Build) : State :=
  { s with keys := { s.keys with preps := f s.keys.preps } }

/-- Frees a unit that still runs the job given. -/
def State.freeJob (s : State) (u : Nat) (j : Job) : State :=
  if (s.unitSt u).job = j then s.endUnit u else s

/-- Starts an internal job on a unit. -/
def State.startJob (s : State) (u : Nat) (j : Job) (ticks set : Nat) : State :=
  s.setUnit u fun x => x.takes j (s.now + ticks) set

/-- Ticks of a key's preparation: the table's, and what the expansion of its matrix adds (R127, R129). The material of a
public-only key is its public key. -/
def State.prepTicks (s : State) (h : Nat) : Nat :=
  let set := s.prepSet h
  let pk := (s.publicOf h).take (setRow set).pk
  (setRow set).prep + expandTicks set (rhoOf set pk)

/-- A preparation begins on a free sheet of a region in which the key is resident, when the cache has room: its 32,768
entries but 64 for anchors. Preparations under way have their entries (R26, R128). -/
def State.beginPrep (s : State) (h u : Nat) : State :=
  let set := s.prepSet h
  let t := s.prepTicks h
  let r := unitRegion u
  if unitKind u ≠ 0 ∨ !s.unitFree u ∨ !s.meetsR19 r 0 ∨ !s.residentIn r h then s
  else match s.makeRoom id (32704 - s.keys.preps.length) s.keys.prepared with
    | none => s
    | some l =>
      match s.benchFirst u t set with
      | some b => s.startBench u b false
      | none =>
        let s := { s with keys := { s.keys with prepared := l } }
        (s.startJob u (.prepare h false) t set).setPreps fun ps =>
          ps ++ [{ id := h, level := 0, unit := u, check := none, ends := s.now + t, left := [] }]

/-- The partner of a finished preparation recomputes the entry. -/
def State.checkPrep (s : State) (u : Nat) (b : Build) : State :=
  let set := s.prepSet b.id
  let t := s.prepTicks b.id
  if !s.meetsR19 (unitRegion b.unit) 0 then (s.freeJob b.unit (.prepare b.id false)).setPreps (·.filter (·.id ≠ b.id))
  else if unitRegion u ≠ unitRegion b.unit ∨ unitKind u ≠ 0 ∨ u = b.unit ∨ !s.unitFree u ∨ s.passedOver u b.unit then s
  else match s.benchFirst u t set with
    | some m => s.startBench u m false
    | none =>
      ((s.freeJob b.unit (.prepare b.id false)).startJob u (.prepare b.id true) t set).setPreps fun ps =>
        ps.map fun x => if x.id = b.id then { x with check := some u, ends := s.now + t } else x

/-- The check of a preparation ends: the entry is in the cache, or both sheets are charged and it starts anew. -/
def State.endPrep (s : State) (u : Nat) (b : Build) (ok : Bool) : State :=
  let s := (s.freeJob u (.prepare b.id true)).setPreps (·.filter (·.id ≠ b.id))
  if ok then (if s.keys.prepared.length < 32704 then { s with keys := { s.keys with prepared := s.keys.prepared ++ [b.id] } } else s)
  else (s.charge b.unit 1).charge u 1

/-- The next thing that the preparation of key `handle`, for which command `i` waits, needs on sheet `u`. `ok` is the verdict
of the partner where its check ends. -/
def State.prepOn (s : State) (handle i u : Nat) (ok : Bool) : State :=
  match s.ctxs.find i with
  | none => s
  | some c =>
    if !s.serving || s.unsettled || c.phase.decided || !c.names.contains handle || (s.liveKey handle).isNone then s
    else if mceSet (s.policyOfKey handle).param then
      (if s.keyReady c handle then s else s.loadMce handle)
    else if !latticeSet (s.policyOfKey handle).param || s.keys.prepared.contains handle then s
    else match s.keys.preps.find? (·.id == handle) with
      | none => s.beginPrep handle u
      | some b =>
        if s.now < b.ends then s
        else match b.check with
          | none => s.checkPrep u b
          | some v => s.endPrep v b ok

def execKeyPreparation (handle ctx u : Nat) (ok : Bool) (s : State) : Out :=
  if 104 ≤ u then .fault .noSuchUnit else .next (s.prepOn handle ctx u ok)

/-! ## ML-KEM (R126, R130, R131) -/

/-- The public key that a command names: in the payload, or by handle. -/
def State.pkOf (s : State) (c : Ctx) (off p : Nat) : Bytes :=
  if c.keyA = 0 then bytesAt (s.headOf c) off (setRow p).pk else s.publicOf c.keyA

/-- Key generation of a set whose material is the start of its draw. -/
def State.seedKey (s : State) (c : Ctx) : Result :=
  let p := s.setOf c
  let m := (c.drawn p).take (setRow p).secret
  s.createdResult c m [] (pubOf p m) 0 0

def execMlkemKeygen (ctx : Nat) (s : State) : Out := .next (s.compute ctx 0x1001 fun c s => s.seedKey c)

def execMlkemEncaps (ctx : Nat) (s : State) : Out :=
  .next (s.compute ctx 0x1002 fun c s =>
    let p := s.setOf c
    let pk := s.pkOf c 0 p
    let m := (c.drawn p).take 32
    if c.keyA = 0 ∧ !modulusOk p pk then Result.bare St.inputRejected
    else s.childResult c (fit 32 (Config.prim .mlkemEncapsKey p [pk, m])) true
      (fit (setRow p).out (Config.prim .mlkemEncapsCt p [pk, m])))

def execMlkemDecaps (ctx : Nat) (s : State) : Out :=
  .next (s.compute ctx 0x1003 fun c s =>
    s.childResult c (fit 32 (Config.prim .mlkemDecaps (s.setOf c) [s.secretIn c c.keyA, c.payload])) true [])

/-- A PUBLIC command answers the key's public key (R263). -/
def State.publicResult (s : State) (c : Ctx) : Result := Result.output (s.publicOf c.keyA)

def execMlkemPublic (ctx : Nat) (s : State) : Out := .next (s.compute ctx 0x1004 fun c s => s.publicResult c)

/-! ## ML-DSA (R132 to R137) -/

/-- The DER-encoded OID of a pre-hash function: 1 SHA-512, 2 SHAKE256. -/
def phOid (ph : Nat) : Bytes :=
  [0x06#8, 0x09#8, 0x60#8, 0x86#8, 0x48#8, 0x01#8, 0x65#8, 0x03#8, 0x04#8, 0x02#8, if ph = 1 then 0x03#8 else 0x0C#8]

/-- M' of the signing header's mode (R132, R154); `h` begins with the header, `ctx` stands at `off`. -/
def signedString (h : Bytes) (off : Nat) (m : Bytes) : Bytes :=
  let ctx := bytesAt h off (uAt h 2 1)
  if uAt h 0 1 = 1 then 1#8 :: BitVec.ofNat 8 ctx.length :: (ctx ++ phOid (uAt h 1 1) ++ m)
  else pureMsg ctx m

/-- The selector of an ML-DSA primitive: external mu is signed as it stands. -/
def mldsaSel (p : Nat) (h : Bytes) : Nat := if uAt h 0 1 = 2 then p + 2 ^ 32 else p

/-- rnd of a signature: drawn when hedged, zeros when deterministic. -/
def rndOf (h draw : Bytes) (n : Nat) : Bytes := if uAt h 3 1 = 0 then draw.take n else List.replicate n 0#8

def execMldsaKeygen (ctx : Nat) (s : State) : Out := .next (s.compute ctx 0x1101 fun c s => s.seedKey c)

def execMldsaSign (ctx : Nat) (s : State) : Out :=
  .next (s.compute ctx 0x1102 fun c s =>
    let p := s.setOf c
    let h := s.headOf c
    let m' := if uAt h 0 1 = 2 then s.messageOf c else signedString h 16 (s.messageOf c)
    Result.output (fit (setRow p).out
      (Config.prim .mldsaSign (mldsaSel p h) [s.secretIn c c.keyA, m', rndOf h (c.drawn p) 32])))

/-- Offsets of signature and context in a verification's header part (R132). -/
def State.sigOff (_ : State) (c : Ctx) (p : Nat) : Nat := 16 + (if c.keyA = 0 then (setRow p).pk else 0)

/-- The signature of a verification. -/
def State.sigOf (s : State) (c : Ctx) (p : Nat) : Bytes := bytesAt (s.headOf c) (s.sigOff c p) (setRow p).out

def execMldsaVerify (ctx : Nat) (s : State) : Out :=
  .next (s.compute ctx 0x1103 fun c s =>
    let p := s.setOf c
    let h := s.headOf c
    let m' := if uAt h 0 1 = 2 then s.messageOf c else signedString h (s.sigOff c p + (setRow p).out) (s.messageOf c)
    Result.verdict (Config.verdict .mldsaVerify (mldsaSel p h) [s.pkOf c 16 p, m', s.sigOf c p]))

def execMldsaPublic (ctx : Nat) (s : State) : Out := .next (s.compute ctx 0x1104 fun c s => s.publicResult c)

/-! ## Hybrid KEMs (R138, R139) -/

/-- The material of a two-part key: the lattice seed, then the classical secret. -/
def State.twoPartKey (s : State) (c : Ctx) : Result :=
  let p := s.setOf c
  let lat := latticePart p
  let m := (c.drawn lat).take (setRow lat).secret ++ classicSecret (classicPart p) (c.drawn (classicPart p))
  s.createdResult c m [] (pubOf p m) 0 0

def execHybridKeygen (ctx : Nat) (s : State) : Out := .next (s.compute ctx 0x1801 fun c s => s.twoPartKey c)

/-- K of R138. -/
def hybridKey (p : Nat) (kpq kec ct pk : Bytes) : Bytes := sha3x256 (ascii "MAELARN-HKEM" ++ le 4 p ++ kpq ++ kec ++ ct ++ pk)

def execHybridEncaps (ctx : Nat) (s : State) : Out :=
  .next (s.compute ctx 0x1802 fun c s =>
    let p := s.setOf c
    let lat := latticePart p
    let q := classicPart p
    let pk := s.pkOf c 0 p
    let ek := pk.take (setRow lat).pk
    let pkEc := pk.drop (setRow lat).pk
    let m := (c.drawn lat).take 32
    let d := classicSecret q (c.drawn q)
    let ctEc := classicPublic q d
    if (c.keyA = 0 && !modulusOk lat ek) || !agreeOk q d pkEc (c.drawn q) then Result.bare St.inputRejected
    else
      let k := hybridKey p (fit 32 (Config.prim .mlkemEncapsKey lat [ek, m])) (agreed q d pkEc (c.drawn q)) ctEc pkEc
      s.childResult c k true (fit (setRow lat).out (Config.prim .mlkemEncapsCt lat [ek, m]) ++ ctEc))

def execHybridDecaps (ctx : Nat) (s : State) : Out :=
  .next (s.compute ctx 0x1803 fun c s =>
    let p := s.setOf c
    let lat := latticePart p
    let q := classicPart p
    let key := s.secretIn c c.keyA
    let d := key.drop (setRow lat).secret
    let ctEc := c.payload.drop (setRow lat).out
    if !agreeOk q d ctEc (c.drawn q) then Result.bare St.inputRejected
    else
      let kpq := fit 32 (Config.prim .mlkemDecaps lat [key.take (setRow lat).secret, c.payload.take (setRow lat).out])
      s.childResult c (hybridKey p kpq (agreed q d ctEc (c.drawn q)) ctEc (classicPublic q d)) true [])

/-! ## Composite signatures (R140) -/

def execCompositeKeygen (ctx : Nat) (s : State) : Out := .next (s.compute ctx 0x1811 fun c s => s.twoPartKey c)

def execCompositeSign (ctx : Nat) (s : State) : Out :=
  .next (s.compute ctx 0x1812 fun c s =>
    let p := s.setOf c
    let h := s.headOf c
    Result.output (compositeSig p (s.secretIn c c.keyA) (bytesAt h 16 (uAt h 0 1)) (s.messageOf c)
      ((c.drawn (latticePart p)).take 32) (c.drawn (classicPart p))))

def execCompositeVerify (ctx : Nat) (s : State) : Out :=
  .next (s.compute ctx 0x1813 fun c s =>
    let p := s.setOf c
    let h := s.headOf c
    Result.verdict (compositeOk p (s.pkOf c 16 p) (bytesAt h (s.sigOff c p + (setRow p).out) (uAt h 0 1)) (s.messageOf c)
      (s.sigOf c p)))

end Sys2Proof.Machine
end

