-- ==== Sys2Proof/Machine/Classical.lean ====
section
/-! DEFINITION. The results of the classical commands on the big-number engines (R198 to R219). -/

namespace Sys2Proof.Machine

open Sys2Proof

/-! ## Elliptic curves -/

def execEcKeygen (ctx : Nat) (s : State) : Out :=
  .next (s.compute ctx 0x2001 fun c s =>
    let p := s.setOf c
    let m := classicSecret p (c.drawn p)
    s.createdResult c m [] (pubOf p m) 0 0)

/-- ECDSA_SIGN: a hedged nonce takes 32 drawn octets, a deterministic one none (R213). -/
def execEcdsaSign (ctx : Nat) (s : State) : Out :=
  .next (s.compute ctx 0x2002 fun c s =>
    let p := s.setOf c
    let h := s.headOf c
    Result.output (ecdsaSig p (uAt h 1 1) (s.secretIn c c.keyA) (digestInput h (s.messageOf c)) (c.drawn p)))

def execEcdsaVerify (ctx : Nat) (s : State) : Out :=
  .next (s.compute ctx 0x2003 fun c s =>
    let p := s.setOf c
    let h := s.headOf c
    let pk := s.pkOf c 16 p
    Result.verdict ((c.keyA != 0 || pointOk p pk) && ecdsaOk p pk (digestInput h (s.messageOf c)) (s.sigOf c p)))

def execEddsaSign (ctx : Nat) (s : State) : Out :=
  .next (s.compute ctx 0x2004 fun c s =>
    let p := s.setOf c
    let h := s.headOf c
    Result.output (eddsaSig p (s.secretIn c c.keyA) (bytesAt h 16 (uAt h 2 1)) (s.messageOf c) (c.drawn p)))

def execEddsaVerify (ctx : Nat) (s : State) : Out :=
  .next (s.compute ctx 0x2005 fun c s =>
    let p := s.setOf c
    let h := s.headOf c
    let ctxs := bytesAt h (s.sigOff c p + (setRow p).out) (uAt h 2 1)
    Result.verdict (eddsaOk p (s.pkOf c 16 p) ctxs (s.messageOf c) (s.sigOf c p)))

/-- EC_AGREE deposits the shared value as a child of KEY_B (R207); a rejected peer value deposits nothing (R211). -/
def execEcAgree (ctx : Nat) (s : State) : Out :=
  .next (s.compute ctx 0x2006 fun c s =>
    let p := s.setOf c
    let d := s.secretIn c c.keyA
    if agreeOk p d c.payload (c.drawn p) then s.childResult c (agreed p d c.payload (c.drawn p)) true []
    else Result.bare St.inputRejected)

def execEcPublic (ctx : Nat) (s : State) : Out := .next (s.compute ctx 0x2007 fun c s => s.publicResult c)

/-! ## RSA -/

/-- e of a key generation: zero means 65,537. -/
def keygenE (b : Bytes) : Nat := let e := beNat (bytesAt b 64 32); if e = 0 then 65537 else e

/-- The CRT set that a key generation's candidates make (R209). -/
def Ctx.rsaMaterial (c : Ctx) (p : Nat) : Bytes :=
  match (c.parts.find? Part.rsaLoop).bind fun x => x.rsaKey (keygenE c.payload) with
  | some k => k.bytes (rsaLen p)
  | none => []

def execRsaKeygen (ctx : Nat) (s : State) : Out :=
  .next (s.compute ctx 0x2011 fun c s =>
    let p := s.setOf c
    let m := c.rsaMaterial p
    s.createdResult c m [] (pubOf p m) 0 0)

/-- RSA_SIGN: a PSS salt is drawn before the mask (R217). -/
def execRsaSign (ctx : Nat) (s : State) : Out :=
  .next (s.compute ctx 0x2012 fun c s =>
    let p := s.setOf c
    let h := s.headOf c
    let draw := c.drawn p
    let hash := uAt h 1 1
    Result.output (rsaSignature (rsaKeyOf (rsaLen p) (s.secretIn c c.keyA)) (maskSeed draw) (uAt h 4 1) hash (hashSel hash)
      (rsaLen p) (digestInput h (s.messageOf c)) (draw.take (uAt h 5 1))))

def execRsaVerify (ctx : Nat) (s : State) : Out :=
  .next (s.compute ctx 0x2013 fun c s =>
    let p := s.setOf c
    let h := s.headOf c
    let pk := s.pkOf c 16 p
    let sig := s.sigOf c p
    let hash := uAt h 1 1
    Result.verdict (rsaPubOk p pk && representativeOk p pk sig &&
      rsaSignatureOk (rsaN p pk) (rsaExp p pk) (uAt h 4 1) hash (hashSel hash) (rsaLen p) (uAt h 5 1)
        (digestInput h (s.messageOf c)) sig))

def execRsaDecrypt (ctx : Nat) (s : State) : Out :=
  .next (s.compute ctx 0x2014 fun c s =>
    let p := s.setOf c
    let b := c.payload
    let label := bytesAt b 16 (uAt b 2 2)
    let ct := b.drop (16 + uAt b 2 2)
    let key := s.secretIn c c.keyA
    if !representativeOk p (pubOf p key) ct then Result.bare St.inputRejected
    else s.childResult c (oaepSecret p (uAt b 4 2) (uAt b 0 1) key (maskSeed (c.drawn p)) label ct) true [])

def execRsaEncrypt (ctx : Nat) (s : State) : Out :=
  .next (s.compute ctx 0x2015 fun c s =>
    let p := s.setOf c
    let b := s.headOf c
    let label := bytesAt b 16 (uAt b 2 2)
    let pk := s.pkOf c (16 + uAt b 2 2) p
    let hash := uAt b 0 1
    let em := oaepEncode (hashSel hash) (rsaLen p) label (s.messageOf c) ((c.drawn p).take (hashLen hash))
    if !rsaPubOk p pk then Result.bare St.inputRejected
    else Result.output (be (rsaLen p) (rsaPublicOp (rsaN p pk) (rsaExp p pk) (beNat em))))

def execRsaPublic (ctx : Nat) (s : State) : Out := .next (s.compute ctx 0x2016 fun c s => s.publicResult c)

end Sys2Proof.Machine
end

