-- ==== Sys2Proof/Machine/Bch.lean ====
section
/-! DEFINITION. The root of the device: the binary BCH(1023, 513) code that corrects the PUF response, the helper data, and
the root that the corrected response keys (R244, R245, R412). R244 names the code by its parameters; its field polynomial
and the order of its bits are the usual ones of the primitive narrow-sense code (PRESUMED, log 118). -/

namespace Sys2Proof.Machine

open Sys2Proof

/-! ## The field of 1,024 elements: x^10 + x^3 + 1, with the primitive element x -/

/-- An element times x. -/
def bchStep (a : Nat) : Nat := if a < 512 then 2 * a else Nat.xor (2 * a) 0x409

/-- The product of two elements. -/
def bchMul (a b : Nat) : Nat :=
  (List.range 10).foldl (fun acc i => if b.testBit (9 - i) then Nat.xor (bchStep acc) a else bchStep acc) 0

/-- The powers x^0 to x^1022. -/
def bchPowers : List Nat := ((List.range 1022).foldl (fun (l : List Nat) _ => bchStep (l.headD 1) :: l) [1]).reverse

/-- x^e. -/
def bchExp (e : Nat) : Nat := bchPowers.getD (e % 1023) 1

/-- The inverse of an element other than 0: its power of exponent 1,022. -/
def bchInv (a : Nat) : Nat :=
  ((List.range 9).foldl (fun (p : Nat × Nat) _ => let q := bchMul p.2 p.2; (bchMul p.1 q, q)) (1, a)).1

/-- The value of a polynomial, its coefficients from the lowest on. -/
def bchEval (c : List Nat) (x : Nat) : Nat := c.foldr (fun k acc => Nat.xor (bchMul acc x) k) 0

/-! ## Decoding -/

/-- The bits of a block, from the lowest on. -/
def blockBits (r : Nat) : List Nat := (List.range 1023).map fun i => if r.testBit i then 1 else 0

/-- The syndromes of a block: its values at x^1 to x^114. -/
def syndromes (r : Nat) : List Nat := let b := blockBits r; (List.range 114).map fun j => bchEval b (bchExp (j + 1))

/-- A search for the shortest recurrence: its locator and length, the last locator before a change of length, its
discrepancy, and the steps since. -/
structure Locator where
  c : List Nat
  len : Nat
  old : List Nat
  oldD : Nat
  gap : Nat
  deriving DecidableEq, Repr

/-- The sum of two polynomials, the second shifted up by `n` and scaled. -/
def polyAddScaled (a b : List Nat) (n k : Nat) : List Nat :=
  (List.range (max a.length (b.length + n))).map fun i =>
    Nat.xor (a.getD i 0) (if i < n then 0 else bchMul k (b.getD (i - n) 0))

/-- One step of the search on the syndromes (Berlekamp and Massey). -/
def Locator.step (s : List Nat) (l : Locator) (n : Nat) : Locator :=
  let d := (List.range (l.len + 1)).foldl (fun a i => Nat.xor a (bchMul (l.c.getD i 0) (s.getD (n - i) 0))) 0
  if d = 0 then { l with gap := l.gap + 1 }
  else
    let c := polyAddScaled l.c l.old l.gap (bchMul d (bchInv l.oldD))
    if 2 * l.len ≤ n then { c := c, len := n + 1 - l.len, old := l.c, oldD := d, gap := 1 }
    else { l with c := c, gap := l.gap + 1 }

/-- The error locator of a block. -/
def locatorOf (s : List Nat) : Locator :=
  (List.range 114).foldl (Locator.step s) { c := [1], len := 0, old := [1], oldD := 1, gap := 1 }

/-- The corrected block and the number of its errors; none where more than 57 have to be corrected. -/
def bchDecode (r : Nat) : Option (Nat × Nat) :=
  let l := locatorOf (syndromes r)
  let errors := (List.range 1023).filter fun i => bchEval l.c (bchExp (1023 - i)) == 0
  if l.len ≤ 57 ∧ errors.length = l.len then some (errors.foldl (fun a i => Nat.xor a (2 ^ i)) r, l.len) else none

/-! ## Encoding -/

/-- The product of two binary polynomials of at most 1,024 bits. -/
def clMul (a b : Nat) : Nat := (List.range 1024).foldl (fun acc i => if b.testBit i then Nat.xor acc (a * 2 ^ i) else acc) 0

/-- The remainder of a binary polynomial of at most 1,024 bits by one of degree `d`. -/
def clMod (a g d : Nat) : Nat :=
  (List.range (1024 - d)).foldl (fun acc i => let k := 1023 - d - i
    if acc.testBit (d + k) then Nat.xor acc (g * 2 ^ k) else acc) a

/-- The exponents conjugate to `e`. -/
def coset (e : Nat) : List Nat := ((List.range 10).map fun i => e * 2 ^ i % 1023).eraseDups

/-- The minimal polynomial of x^e as a binary polynomial. -/
def minPoly (e : Nat) : Nat :=
  let c := (coset e).foldl (fun p k => polyAddScaled (0 :: p) p 0 (bchExp k)) [1]
  (c.zipIdx.map fun x => x.1 % 2 * 2 ^ x.2).sum

/-- The generator: the product of the minimal polynomials of x^1 to x^114, each once. -/
def bchGen : Nat :=
  let leaders := ((List.range 114).map (· + 1)).filter fun e => (coset e).all (e ≤ ·)
  leaders.foldl (fun g e => clMul g (minPoly e)) 1

/-- The codeword of a message of 513 bits, which stand above the 510 check bits. -/
def bchEncode (m : Nat) : Nat := let s := m % 2 ^ 513 * 2 ^ 510; Nat.xor s (clMod s bchGen 510)

/-! ## Helper data (R245) -/

/-- The 96 blocks of a bit string of 98,208 bits, bit 0 of its first octet first. -/
def pufBlocks (b : Bytes) : List Nat := let n := leNat (b.take 12276); (List.range 96).map fun i => n / 2 ^ (1023 * i) % 2 ^ 1023

/-- The octets of 96 blocks. -/
def blocksBytes (l : List Nat) : Bytes := le 12276 (l.foldr (fun x a => x + 2 ^ 1023 * a) 0)

/-- The root of 96 corrected blocks (R244). -/
def pufRootOf (blocks : List Nat) : Bytes := kmac256 32 (blocksBytes blocks) [] "MAELARN-ROOT"

/-- The check value of a root (R245). -/
def rootCheck (root : Bytes) : Bytes := (kmac256 32 root [] "MAELARN-ROOT-CHECK").take 16

/-- A helper copy: the offsets, the check value and the CRC-32C of both. -/
def helperCopy (offsets root : Bytes) : Bytes :=
  let b := offsets ++ rootCheck root
  b ++ le 4 (crc32c b)

/-- What a start regenerates: the root, the largest correction count of a block, the blocks above 28. -/
structure Regenerated where
  root : Bytes
  most : Nat
  above28 : Nat
  deriving DecidableEq, Repr

/-- The root that a helper copy gives from a response; none where its CRC, a block or its check fails. -/
def regenerate (copy response : Bytes) : Option Regenerated :=
  let body := copy.take 12292
  if copy.length < 12296 ∨ uAt copy 12292 4 ≠ crc32c body then none
  else
    let found := ((pufBlocks response).zip (pufBlocks copy)).map fun x => (bchDecode (Nat.xor x.1 x.2), x.2)
    if found.any fun x => x.1.isNone then none
    else
      let words := found.map fun x => match x.1 with | some w => (Nat.xor w.1 x.2, w.2) | none => (0, 0)
      let root := pufRootOf (words.map Prod.fst)
      if bytesAt copy 12276 16 = rootCheck root then
        some { root := root, most := (words.map Prod.snd).foldl max 0
               above28 := (words.filter fun w => decide (28 < w.2)).length }
      else none

/-- The helper copy of an enrolment: the response against random codewords (R412); `random` holds 65 octets for each. -/
def enrolCopy (response random : Bytes) : Bytes :=
  let blocks := pufBlocks response
  let offsets := blocks.zipIdx.map fun x => Nat.xor x.1 (bchEncode (leNat (bytesAt random (65 * x.2) 65)))
  helperCopy (blocksBytes offsets) (pufRootOf blocks)

end Sys2Proof.Machine
end

