-- ==== Sys2Proof/Machine/DebugRights.lean ====
section
/-! DEFINITION. The life-cycle state (R412), and the opening and closing of the rights of the debug certificate in force
(R423). -/

namespace Sys2Proof.Machine

/-- A burnt group follows an unburnt one. -/
def outOfOrder : List Fuse → Bool
  | .unburnt :: .burnt :: _ => true
  | _ :: t => outOfOrder t
  | [] => false

/-- The counter is torn (R412). -/
def LifeCycle.torn (l : LifeCycle) : Bool := l.groups.contains .torn || outOfOrder l.groups

/-- The life-cycle state's code; 7 when the counter is torn (R412, R424). -/
def LifeCycle.code (l : LifeCycle) : Nat := if l.torn then 7 else (l.groups.filter (· == .burnt)).length

/-- The datum test of a certificate: TRUSTED with L + U below NOT_AFTER (R422, R423). -/
def State.certTime (s : State) (notAfter : Nat) : Bool := s.trusted && decide (s.datum.v + s.unc < notAfter)

/-- At a tick boundary the rights open, or close for the rest of the start. -/
def State.debugRights (s : State) : State :=
  match s.lcs.inForce with
  | none => s
  | some c =>
    if s.lcs.rightsOpen then
      if s.certTime c.notAfter then s
      else { s with lcs := { s.lcs with rightsOpen := false, rightsClosed := true } }
    else if !s.lcs.rightsClosed && s.certTime c.notAfter then { s with lcs := { s.lcs with rightsOpen := true } }
    else s

end Sys2Proof.Machine
end

