-- ==== Sys2Proof/Machine/Image.lean ====
section
/-! DEFINITION. The Shuquin image: the bank header, the section table, the control-store words, the tables, the policy
and the packs, with every check of a start (R201 to R203, R342 to R353, R399 to R403). -/

namespace Sys2Proof.Machine

open Sys2Proof

/-! ## Reading a bank; octets beyond what has been written read as erased (R399) -/

/-- `n` octets of a bank. -/
def bk (b : Bytes) (off n : Nat) : Bytes :=
  let x := bytesAt b off n
  x ++ List.replicate (n - x.length) 0xFF#8

/-- A little-endian field of a bank. -/
def bn (b : Bytes) (off n : Nat) : Nat := leNat (bk b off n)

/-- A page. -/
def pageOf (b : Bytes) (k : Nat) : Bytes := bk b (4096 * k) 4096

/-- All octets of a range are zero. -/
def zeros (b : Bytes) : Bool := b.all (· == 0)

abbrev Bank.sequenceAt (b : Bytes) : Nat := bn b 0x08 8
abbrev Bank.signerAt (b : Bytes) : Nat := bn b 0x06 2
abbrev Bank.svnAt (b : Bytes) : Nat := bn b 0x10 4
abbrev Bank.minSvnAt (b : Bytes) : Nat := bn b 0x14 4
abbrev Bank.pagesAt (b : Bytes) : Nat := bn b 0x18 4
abbrev Bank.sectionsAt (b : Bytes) : Nat := bn b 0x1C 2

/-! ## Signers (R400, R414, R415) -/

/-- The digest of the Oxonadex release key, in ROM. -/
def releaseDigest : Bytes := fit 48 (Config.prim .romKey 1 [])

/-- A public key belongs to a signer: the release key, or an enrolled and unrevoked one. -/
def LifeCycle.signerKey (l : LifeCycle) (k : Nat) (pk : Bytes) : Bool :=
  if k = 0 then sha384 pk == releaseDigest
  else decide (k ≤ 3) && l.signers.getD (k - 1) none == some (sha384 pk) && l.revoked.getD (k - 1) .unburnt != .burnt

/-! ## The section table (R401) -/

structure Sect where
  typ : Nat
  idx : Nat
  first : Nat
  len : Nat
  ver : Nat
  digest : Bytes
  deriving DecidableEq, Repr

/-- Entry `i` of the section table. -/
def sectAt (b : Bytes) (i : Nat) : Sect :=
  let o := 0x60 + 64 * i
  { typ := bn b o 2, idx := bn b (o + 2) 2, first := bn b (o + 4) 4, len := bn b (o + 8) 4, ver := bn b (o + 12) 4
    digest := bk b (o + 16) 48 }

/-- The sections of an image. -/
def sectsOf (b : Bytes) : List Sect := (List.range (min 32 (Bank.sectionsAt b))).map (sectAt b)

/-- Pages of a section. -/
def Sect.pages (x : Sect) : Nat := ceilDiv x.len 4096

/-- The largest LENGTH of a type. -/
def maxLen : Nat → Nat
  | 1 => 131072 | 2 => 393216 | 3 => 98304 | 4 => 49152
  | 5 => 66048 | 6 => 66048 | 7 => 66048 | 8 => 66048 | 9 => 66048
  | 10 => 65536 | 11 => 32768 | 12 => 32768 | 13 => 16384 | 14 => 2097152
  | _ => 0

/-- Consecutive entries rise by TYPE, then INDEX. -/
def ascending : List Sect → Bool
  | a :: b :: t => (decide (a.typ < b.typ) || (a.typ == b.typ && decide (a.idx < b.idx))) && ascending (b :: t)
  | _ => true

/-- Two sections share a page. -/
def overlap (a b : Sect) : Bool := decide (a.first < b.first + b.pages) && decide (b.first < a.first + a.pages)

/-- No two sections of a list overlap. -/
def disjoint : List Sect → Bool
  | [] => true
  | a :: t => t.all (fun b => !overlap a b) && disjoint t

/-- One entry is legal in an image of `n` pages. -/
def Sect.legal (x : Sect) (n : Nat) : Bool :=
  decide (1 ≤ x.typ ∧ x.typ ≤ 14) && (x.typ == 14 || x.idx == 0) && decide (7 ≤ x.first) && decide (1 ≤ x.len) &&
  decide (x.len ≤ maxLen x.typ) && decide (x.first + x.pages ≤ n) && (x.typ != 13 || x.len == 16384) &&
  decide (x.ver < 65536)

/-- The section table of a header keeps R401, as far as the header shows; the page and section counts belong to it. -/
def tableOk (b : Bytes) : Bool :=
  let n := Bank.pagesAt b
  let k := Bank.sectionsAt b
  let l := sectsOf b
  decide (8 ≤ n ∧ n ≤ 4096) && decide (13 ≤ k ∧ k ≤ 32) && l.all (Sect.legal · n) && ascending l && disjoint l &&
  (List.range 13).all (fun t => (l.filter fun x => x.typ == t + 1).length == 1) &&
  decide ((l.filter fun x => x.typ == 14).length ≤ 16) && zeros (bk b (0x60 + 64 * k) (64 * (32 - k)))

/-- The section of a type. -/
def sectOf (b : Bytes) (t : Nat) : Sect := ((sectsOf b).find? fun x => x.typ == t).getD (sectAt b 0)

/-- The octets of a section. -/
def Sect.bytes (x : Sect) (b : Bytes) : Bytes := bk b (4096 * x.first) x.len

/-- The octets of the section of a type. -/
def sect (b : Bytes) (t : Nat) : Bytes := (sectOf b t).bytes b

/-! ## The header's checks: reasons 1 to 3, 7, 10 and 11 (R403) -/

/-- The fields that reason 1 covers. -/
def headerFieldsOk (b : Bytes) : Bool :=
  bn b 0x2FFC 4 == crc32c (bk b 0 0x2FFC) && bn b 0 4 == 0x314E5153 && bn b 4 2 == 1 && bn b 0x1E 2 == 0x6424 &&
  decide (bn b 0x20 1 ≤ 0xA1) && zeros (bk b 0x21 7) && zeros (bk b 0x2493 2921) &&
  decide (1 ≤ Bank.sequenceAt b) && decide (Bank.sequenceAt b < 2 ^ 64 - 1)

/-- The signer of an image is in range, its key matches its digest, and the state boots what it signs: ANALYSIS boots signer 0
only (R420; DEDUCED to be reason 2, log 90). -/
def State.signerOk (s : State) (b : Bytes) : Bool :=
  s.lcs.signerKey (Bank.signerAt b) (bk b 0x860 2592) && (s.lcs.code != 4 || Bank.signerAt b == 0)

/-- The reason that a bank's header gives, or 0: the bank is a candidate. -/
def State.headerReason (s : State) (b : Bytes) (readErr : Bool) : Nat :=
  if readErr then 10
  else if (bk b 0 12288).all (· == 0xFF) then 11
  else if !headerFieldsOk b then 1
  else if !s.signerOk b then 2
  else if Bank.svnAt b < s.start.svnFloor ∨ Bank.svnAt b < Bank.minSvnAt b then 3
  else if !tableOk b then 7
  else 0

/-- The image's signature (R400). -/
def signatureOk (b : Bytes) : Bool :=
  mldsaOk 0x00110003 (bk b 0x860 2592) (ascii "MAELARN-SHUQUIN") (bk b 0 0x1280) (bk b 0x1280 4627)

/-- Entry `k` of the page-check table fits the image. -/
def pageCheckOk (b : Bytes) (k : Nat) : Bool :=
  let v := bn b (3 * 4096 + 4 * k) 4
  if 7 ≤ k ∧ k < Bank.pagesAt b then v == crc32c (pageOf b k) else v == 0

/-- The octets after a section in its last page are zero (R401). -/
def Sect.tailZero (x : Sect) (b : Bytes) : Bool :=
  zeros (bk b (4096 * x.first + x.len) (4096 * x.pages - x.len))

/-- The reason that the full read of a candidate gives, or 0 (R403, step 3). -/
def verifyReason (b : Bytes) (readErr : Bool) : Nat :=
  if !signatureOk b then 4
  else if readErr then 10
  else if !(List.range 4096).all (pageCheckOk b) then 5
  else if bk b 0x30 48 ≠ sha384 (bk b (3 * 4096) (4096 * (Bank.pagesAt b - 3))) then 6
  else if !(sectsOf b).all (Sect.tailZero · b) then 7
  else 0

/-! ## Control-store words (R343, R344, R346) -/

/-- A BRANCH may test this condition in a store of kind `k` (4: big number). -/
def branchCond (k c : Nat) : Bool := decide (c ≤ 10) || (k == 4 && decide (c ≤ 15))

/-- A WAIT may test this condition in a store of kind `k` (3: key port). -/
def waitCond (k c : Nat) : Bool :=
  (c == 32 && (k == 3 || k == 4)) || ((c == 33 || c == 34) && k == 4) || ((c == 35 || c == 36) && k == 3)

/-- Word `i` of an image of `n` words passes R343 and R344. -/
def wordOk (k n i w : Nat) : Bool :=
  let next := fieldOf w 112 12
  let cond := fieldOf w 106 6
  let limit := fieldOf w 96 9
  match fieldOf w 124 2 with
  | 0 => next == 0 && cond == 0 && !bitOf w 105 && limit == 0 && i + 1 != n
  | 1 => decide (next < n) && branchCond k cond && limit == 0
  | 2 => next == 0 && waitCond k cond && decide (1 ≤ limit) && i + 1 != n
  | _ => next == 0 && cond == 0 && !bitOf w 105 && limit == 0

/-- Words of a control-store section. -/
def storeWords (b : Bytes) : Nat := (b.length - 512) / 16

/-- A control-store section: 256 entries, then whole words, each passing its checks. -/
def storeOk (k : Nat) (b : Bytes) : Bool :=
  let n := storeWords b
  decide (512 ≤ b.length) && (b.length - 512) % 16 == 0 && decide (n ≤ 4096) &&
  (List.range 256).all (fun i => let e := uAt b (2 * i) 2; e == noEntry || decide (e < n)) &&
  (List.range n).all fun i => wordOk k n i (uAt b (512 + 16 * i) 16)

/-! ## Table rows (R201, R350 to R352) -/

/-- The rows of a table. -/
def rowsOf (n : Nat) (b : Bytes) : List Bytes := (List.range (b.length / n)).map fun i => bytesAt b (n * i) n

/-- A parameter-set row is legal, its PARAM apart. -/
def paramRowOk (r : Bytes) : Bool :=
  uAt r 0x3C 4 == crc32c (r.take 0x3C) && decide (uAt r 4 1 ≤ 3) && decide (1 ≤ uAt r 5 1) && decide (uAt r 6 2 < 32) &&
  uAt r 0x3A 2 == 0

/-- A command-format row is legal, its OPCODE apart. -/
def formatRowOk (r : Bytes) : Bool :=
  uAt r 0x1C 4 == crc32c (r.take 0x1C) && decide (uAt r 2 2 < 64) && decide (uAt r 4 1 < 8) &&
  decide (uAt r 5 1 < 32) && decide (fieldOf (uAt r 5 1) 0 2 ≤ 2) && decide (fieldOf (uAt r 5 1) 2 2 ≤ 2) &&
  decide (uAt r 6 2 ≤ 4096) && (!bitOf (uAt r 2 2) 1 || uAt r 0 2 / 256 == 0x30)

/-- A NAME: ASCII, then zeros. -/
def nameOk (b : Bytes) : Bool :=
  b.all (fun x => decide (x.toNat < 128)) && (b.dropWhile (· != 0)).all (· == 0)

/-- The legal fields of a curve row (R201), and the values below P (R202, check 1). -/
def curveFieldsOk (r : Bytes) : Bool :=
  let p := uAt r 0x20 72
  let form := uAt r 4 1
  let width := if uAt r 5 1 ≤ 4 then classBits (uAt r 5 1) else 0
  uAt r 0x1FC 4 == crc32c (r.take 0x1FC) && decide (1 ≤ form ∧ form ≤ 3) && decide (0 < width) &&
  uAt r 6 2 == bitLen p && decide (bitLen p ≤ width) && uAt r 8 2 == bitLen (uAt r 0x188 72) &&
  decide (uAt r 8 2 ≤ uAt r 6 2 + 1) && [1, 2, 4, 8].contains (uAt r 0x0A 1) &&
  (if form = 3 then uAt r 0x0B 1 == 1 || uAt r 0x0B 1 == 2 else uAt r 0x0B 1 == 0) && decide (uAt r 0x0C 4 < 16) &&
  nameOk (bytesAt r 0x10 16) && zeroAt r 0x1D0 44 && (form != 2 || (uAt r 0xB0 72 == 0 && uAt r 0x140 72 == 0)) &&
  decide (uAt r 0x68 72 < p) && decide (uAt r 0xB0 72 < p) && decide (uAt r 0xF8 72 < p) &&
  decide (uAt r 0x140 72 < p) && decide (uAt r 0x188 72 < p)

/-- Check 4: the curve is not singular. -/
def curveRegular (r : Bytes) : Bool :=
  let p := uAt r 0x20 72
  let a := uAt r 0x68 72
  let b := uAt r 0xB0 72
  match uAt r 4 1 with
  | 1 => (4 * a * a * a + 27 * b * b) % p != 0
  | 2 => (a * a + p - 4 % p) % p != 0
  | _ => a != b && a * b % p != 0 && expMod p b ((p - 1) / 2) != 1

/-- Check 5: the Hasse bound, and an order other than P. -/
def curveHasse (r : Bytes) : Bool :=
  let p := uAt r 0x20 72
  let h := uAt r 0x0A 1 * uAt r 0x188 72
  let d := if h ≤ p + 1 then p + 1 - h else h - (p + 1)
  decide (d * d ≤ 4 * p) && h != p

/-- Check 6: the embedding degree is above 100. -/
def curveDegree (r : Bytes) : Bool :=
  let n := uAt r 0x188 72
  ((List.range 100).foldl (fun (a : Nat × Bool) _ =>
    let v := a.1 * (uAt r 0x20 72) % n
    (v, a.2 && v != 1)) (1, true)).2

/-- Check 7: the base point lies on the curve and is not the identity. -/
def curvePoint (r : Bytes) : Bool :=
  let p := uAt r 0x20 72
  let a := uAt r 0x68 72
  let b := uAt r 0xB0 72
  let x := uAt r 0xF8 72
  let y := uAt r 0x140 72
  match uAt r 4 1 with
  | 1 => y * y % p == (x * x * x + a * x + b) % p
  | 2 => let v := (x * x * x + a * x * x + x) % p
         x != 0 && (v == 0 || expMod p v ((p - 1) / 2) == 1)
  | _ => (a * x * x + y * y) % p == (1 + b * (x * x % p) * (y * y % p)) % p && !(x == 0 && y == 1)

/-- 64 Miller–Rabin rounds on a number, with bases from draw `k` (checks 2 and 3). -/
def primeRounds (n k : Nat) : Bool :=
  decide (3 < n) && n % 2 == 1 &&
  (List.range 64).all fun i => millerRabin n (2 + leNat (bytesAt (drawBytes k 4608) (72 * i) 72) % (n - 3))

/-- Check 8: N·G is the identity. -/
def curveOrder (r : Bytes) : Bool :=
  let c := curveOfRow r
  if c.form = 2 then (c.xLadder 0 c.n c.gx c.orderBits 1 0 (c.gx % c.p) 1).2 % c.p == 0
  else
    let (x, y, z) := c.mul c.n c.base
    if c.form = 3 then x % c.p == 0 && y % c.p == z % c.p else z % c.p == 0

/-- The number of the first check that a curve row fails, or 0 (R202); the Miller–Rabin bases are draws `k` and
`k + 1` of the atlas DRBG. -/
def curveRowFails (k : Nat) (r : Bytes) : Nat :=
  if !curveFieldsOk r then 1
  else if !primeRounds (uAt r 0x20 72) k then 2
  else if !primeRounds (uAt r 0x188 72) (k + 1) then 3
  else if !curveRegular r then 4
  else if !curveHasse r then 5
  else if !curveDegree r then 6
  else if !curvePoint r then 7
  else if !curveOrder r then 8
  else 0

/-- The rows of a table that fail a check, with the check's number, from draw `k` on. -/
def badCurves (k : Nat) (rows : List Bytes) : List (Nat × Nat) :=
  (rows.zipIdx.map fun x => (uAt x.1 0 4, curveRowFails (k + 2 * x.2) x.1)).filter fun x => x.2 != 0

/-- What the checks of a row cost, in ticks by CLASS: the eight checks in order (R202). -/
def curveCheckTicks : Nat → List Nat
  | 1 => [1, 96, 96, 1, 1, 2, 1, 14]
  | 2 => [1, 320, 320, 1, 1, 3, 1, 30]
  | 3 => [1, 512, 512, 1, 1, 4, 1, 66]
  | 4 => [1, 990, 990, 1, 1, 6, 1, 66]
  | _ => [1]

/-- What the checks of a row take, in ticks: all of them, or those up to the one that fails. The start has no ticks yet, so the
checks are one step with the LOAD stage (log 2). -/
def curveCost (r : Bytes) (fails : Nat) : Nat :=
  ((curveCheckTicks (uAt r 5 1)).take (if fails = 0 then 8 else fails)).sum

/-- The seven base curves of R200. -/
def baseCurves : List Nat := [0x00200001, 0x00200002, 0x00200003, 0x00200011, 0x00200012, 0x00200021, 0x00200022]

/-- A base curve row holds the curve that its code names (R200; DEDUCED, log 109). -/
def baseCurveOk (r : Bytes) : Bool :=
  baseCurves.contains (uAt r 0 4) && curveOf (uAt r 0 4) == some (curveOfRow r)

/-- The codes of a table: none twice, and every one of a list there. -/
def holdsAll (codes want : List Nat) : Bool :=
  codes.eraseDups.length == codes.length && want.all codes.contains

/-- The base tables: every row legal, with a base code, and a row for every PARAM code and opcode of the chapters and
for the seven curves (R200, R201, R350 to R352). -/
def baseTablesOk (b : Bytes) : Bool :=
  let p := sect b 10
  let c := sect b 11
  let f := sect b 12
  let codes := (rowsOf 64 p).map (uAt · 0 4)
  let ops := (rowsOf 32 f).map (uAt · 0 2)
  p.length % 64 == 0 && c.length % 512 == 0 && f.length % 32 == 0 &&
  (rowsOf 64 p).all (fun r => paramRowOk r && !bitOf (uAt r 6 2) 0 && (setRow? (uAt r 0 4)).isSome) &&
  (rowsOf 512 c).all baseCurveOk && (rowsOf 32 f).all (fun r => formatRowOk r && (formatOf (uAt r 0 2)).isSome) &&
  holdsAll codes (setRows.map Prod.fst) && holdsAll ((rowsOf 512 c).map (uAt · 0 4)) baseCurves && holdsAll ops baseOpcodes

/-! ## The policy (R402) -/

/-- Route `c` of a policy is legal: a handler lies in the instruction SRAM of its target. -/
def routeOk (b : Bytes) (c : Nat) : Bool :=
  let o := 0x2000 + 16 * c
  let t := uAt b (o + 1) 1
  let h := uAt b (o + 8) 8
  decide (uAt b o 1 ≤ 1) && decide (t ≤ 5) && decide (uAt b (o + 2) 1 ≤ 15) && zeroAt b (o + 3) 5 && h % 4 == 0 &&
  (if t = 0 then true else if t = 1 then decide (0x100000 ≤ h ∧ h < 0x180000) else decide (h < 0x20000))

/-- The policy section is legal. -/
def policyOk (b : Bytes) : Bool :=
  uAt b 0 4 == 1 && decide (uAt b 4 4 < 16) && decide (1000000 ≤ uAt b 8 8 ∧ uAt b 8 8 ≤ 10000000000) &&
  decide (uAt b 0x10 2 ≤ 100) && decide (10 ≤ uAt b 0x12 2 ∧ uAt b 0x12 2 ≤ 1000) && decide (uAt b 0x14 1 ≤ 4) &&
  zeroAt b 0x15 235 && zeroAt b (0x100 + 1952 * uAt b 0x14 1) (0x1F80 - (0x100 + 1952 * uAt b 0x14 1)) &&
  zeroAt b 0x1F80 128 && (List.range 256).all (routeOk b) && zeroAt b 0x3000 4092 &&
  uAt b 0x3FFC 4 == crc32c (b.take 0x3FFC)

/-! ## LOAD (R346, R352, R403) -/

/-- The reason that the load of a bank gives, or 0; `diff`: a section reads differently the second time. The
curve checks draw from `free` on. -/
def loadReason (free : Nat) (b : Bytes) (diff : Bool) : Nat :=
  if diff || !(sectsOf b).all (fun x => x.digest == sha384 (x.bytes b)) then 9
  else if (List.range 5).all (fun k => storeOk k (sect b (5 + k))) && baseTablesOk b &&
    (badCurves free (rowsOf 512 (sect b 11))).isEmpty && policyOk (sect b 13) then 0
  else 8

/-! ## Packs (R353). The spec gives a pack's header; the layout of its other parts is not published, so they are an
uninterpreted reading of its octets (log 63). -/

/-- Part `k` of a pack: 0 parameter rows, 1 curve rows, 2 format rows, 3 sheet firmware, 4 region firmware, 5 to 9
microcode in the layout of a control-store section, 10 signer key, 11 signature. -/
def packSection (k : Nat) (b : Bytes) : Bytes := Config.prim .packField k [b]

abbrev packId (b : Bytes) : Nat := uAt b 0 4
abbrev packVersion (b : Bytes) : Nat := uAt b 4 2

/-- What the packs before one have loaded. -/
structure Loaded where
  image : ImageInfo
  fams : List Nat         -- FAMILY codes of the rows loaded
  sheetFw : Nat
  regionFw : Nat
  packFormats : Nat
  packCurves : Nat
  deriving DecidableEq, Repr

/-- A code of a pack: bit 15 of the low half set. -/
def isPackCode (p : Nat) : Bool := bitOf p 15

/-- The signature of a pack by the release key or an enrolled, unrevoked signer. -/
def packSigned (l : LifeCycle) (b : Bytes) : Bool :=
  l.signerKey (uAt b 6 2) (packSection 10 b) && Config.verdict .mldsaVerify 0x00110003 [packSection 10 b, b, packSection 11 b]

/-- Pack microcode: entries of the pack range only, and words that pass their checks behind the base image. -/
def packStoreOk (k base : Nat) (b : Bytes) : Bool :=
  let n := base + storeWords b
  decide (b = []) ||
  ((List.range 256).all (fun i =>
      let e := uAt b (2 * i) 2
      e == noEntry || (decide (e < storeWords b) &&
        (if k = 4 then decide (0xC0 ≤ i) else decide (0x60 ≤ i ∧ i ≤ 0x77)))) &&
   (List.range (storeWords b)).all fun i => wordOk k n (base + i) (uAt b (512 + 16 * i) 16))

/-- A pack's curve row: its code, its checks passed, and a parameter-set row of its own (R201, R350). -/
def packCurveOk (params : List Nat) (r : Bytes) : Bool :=
  isPackCode (uAt r 0 4) && paramGroup (uAt r 0 4) == 0x20 && uAt r 2 2 == 0x20 && params.contains (uAt r 0 4)

/-- The FAMILY of a row is new, and the row lacks a benchmark figure or a firmware entry (log 107). -/
def newFamilyBad (fams : List Nat) (cs : List Bytes) (r : Bytes) : Bool :=
  let cls := match cs.find? fun c => uAt c 0 4 == uAt r 0 4 with | some c => uAt c 5 1 | none => 0
  !fams.contains (uAt r 5 1) &&
  ((packSetRow r (paramGroup (uAt r 0 4)) cls).bench == 0 || uAt r 0x38 2 == 0)

/-- The curve rows of a pack whose signature and legal fields hold that fail a check, with its number. -/
def packBadCurves (l : LifeCycle) (k : Nat) (b : Bytes) : List (Nat × Nat) :=
  if packSigned l b then badCurves k (rowsOf 512 (packSection 1 b)) else []

/-- The number of the first test of R353 that a pack fails, or 0; its curve checks draw from `k` on. -/
def packFails (l : LifeCycle) (a : Loaded) (k : Nat) (b : Bytes) : Nat :=
  let ps := rowsOf 64 (packSection 0 b)
  let cs := rowsOf 512 (packSection 1 b)
  let fs := rowsOf 32 (packSection 2 b)
  let codes := ps.map (uAt · 0 4)
  let curveCodes := cs.map (uAt · 0 4)
  let ops := fs.map (uAt · 0 2)
  let reuse := fun (l new : List Nat) => new.any l.contains || !(new.eraseDups.length == new.length)
  let beyond := decide (16 ≤ a.image.packIds.length) || decide (1024 < a.image.params.length + ps.length) ||
    decide (57 < a.packCurves + cs.length) || decide (256 < a.packFormats + fs.length) ||
    decide (16384 < a.sheetFw + (packSection 3 b).length) || decide (32768 < a.regionFw + (packSection 4 b).length) ||
    (List.range 5).any fun k => decide (4096 < a.image.words.getD k 0 + storeWords (packSection (5 + k) b))
  if !packSigned l b then 1
  else if !(ps.all (fun r => paramRowOk r && bitOf (uAt r 6 2) 0 && isPackCode (uAt r 0 4)) &&
            cs.all (packCurveOk (a.image.params.map (uAt · 0 4) ++ codes)) && fs.all formatRowOk &&
            (badCurves k cs).isEmpty) then 2
  else if reuse (a.image.params.map (uAt · 0 4)) codes || reuse (a.image.curves.map (uAt · 0 4)) curveCodes ||
          reuse (a.image.formats.map (uAt · 0 2)) ops then 3
  else if ops.any (fun o => decide (o / 256 < 0x10) || decide (0x32 < o / 256) || decide (o % 256 < 0xC0)) then 4
  else if !(List.range 5).all (fun k => packStoreOk k (a.image.words.getD k 0) (packSection (5 + k) b)) then 5
  else if ps.any (newFamilyBad a.fams cs) then 6
  else if beyond then 7
  else 0

/-- A pack enters the image in the next slot. -/
def Loaded.add (a : Loaded) (slot : Nat) (b : Bytes) : Loaded :=
  let g := a.image
  let ps := rowsOf 64 (packSection 0 b)
  let cs := rowsOf 512 (packSection 1 b)
  let fs := rowsOf 32 (packSection 2 b)
  let n := fun k => storeWords (packSection (5 + k) b)
  { image := { g with
      words := (List.range 5).map fun k => g.words.getD k 0 + n k
      packCode := g.packCode ||| ((List.range 5).map fun k => if n k = 0 then 0 else 2 ^ k).sum
      params := g.params ++ ps
      curves := g.curves ++ cs
      formats := g.formats ++ fs
      loadedPacks := g.loadedPacks ||| 2 ^ slot
      packIds := g.packIds ++ [(packId b, packVersion b)]
      firmware := (g.firmware.put 1 (g.firmware.getD 1 [] ++ packSection 4 b)).put 2 (g.firmware.getD 2 [] ++ packSection 3 b) }
    fams := a.fams ++ ps.map (uAt · 5 1)
    sheetFw := a.sheetFw + (packSection 3 b).length
    regionFw := a.regionFw + (packSection 4 b).length
    packFormats := a.packFormats + fs.length
    packCurves := a.packCurves + cs.length }

/-- The packs of an image in ascending PACK_ID order. -/
def packsOf (b : Bytes) : List Bytes :=
  let l := (sectsOf b).filter fun x => x.typ == 14
  (sortByKey (l.map fun x => (packId (x.bytes b), x.bytes b))).map Prod.snd
where
  /-- Inserts by key, after equal keys. -/
  insertKey (x : Nat × Bytes) : List (Nat × Bytes) → List (Nat × Bytes)
    | [] => [x]
    | y :: t => if x.1 < y.1 then x :: y :: t else y :: insertKey x t
  /-- Sorts by key. -/
  sortByKey (l : List (Nat × Bytes)) : List (Nat × Bytes) := l.foldl (fun a x => insertKey x a) []

/-- The base image of a bank (R342, R346, R354). -/
def baseImage (b : Bytes) : ImageInfo :=
  { ImageInfo.reset with
    versions := (List.range 5).map fun k => (sectOf b (5 + k)).ver
    words := (List.range 5).map fun k => storeWords (sect b (5 + k))
    locked := 31
    params := rowsOf 64 (sect b 10)
    formats := rowsOf 32 (sect b 12)
    curves := rowsOf 512 (sect b 11)
    firmware := [(0, sect b 1 ++ sect b 2), (1, sect b 3), (2, sect b 4)] }

/-- What taking the packs has found: the image, the discarded packs with their failing tests, the curve rows that
failed with their checks, and the number of the next draw. -/
structure PackRun where
  got : Loaded
  bad : List (Nat × Nat)
  curves : List (Nat × Nat)
  draw : Nat
  deriving DecidableEq, Repr

/-- Takes the packs in order; a discarded one is recorded with its failing test. -/
def takePacks (l : LifeCycle) : List Bytes → Nat → PackRun → PackRun
  | [], _, a => a
  | b :: t, slot, a =>
    let next := a.draw + 2 * (rowsOf 512 (packSection 1 b)).length
    let curves := a.curves ++ packBadCurves l a.draw b
    match packFails l a.got a.draw b with
    | 0 => takePacks l t (slot + 1) { a with got := a.got.add slot b, curves := curves, draw := next }
    | k =>
      let g := a.got.image
      takePacks l t (slot + 1)
        { got := { a.got with image := { g with discardedPacks := g.discardedPacks ||| 2 ^ slot,
                                                packIds := g.packIds ++ [(0, 0)] } }
          bad := a.bad ++ [(packId b, k)], curves := curves, draw := next }

/-- The packs that stay. -/
def keptPacks (b : Bytes) (g : ImageInfo) : List Bytes :=
  ((packsOf b).zipIdx.filter fun p => bitOf g.loadedPacks p.2).map Prod.fst

/-- A store with a pack's microcode behind its words: the pack's entries count from its own first word. -/
def addStore (a b : Bytes) : Bytes :=
  if b = [] then a
  else
    ((List.range 256).map fun i =>
      let e := uAt b (2 * i) 2
      le 2 (if e = noEntry then uAt a (2 * i) 2 else e + storeWords a)).flatten ++ a.drop 512 ++ b.drop 512

/-- What the stores of a kind hold once the packs are in (R342, R346). -/
def loadedStore (b : Bytes) (g : ImageInfo) (k : Nat) : Bytes :=
  ((keptPacks b g).map (packSection (5 + k))).foldl addStore (sect b (5 + k))

/-- The loaded image of a store kind: the base section, then the packs' microcode. -/
def storeImage (b : Bytes) (g : ImageInfo) (k : Nat) : Bytes :=
  sect b (5 + k) ++ ((keptPacks b g).map (packSection (5 + k))).flatten

/-- The image that a bank loads, with what its packs showed; the base curve rows have drawn from `free` on. -/
def loadImage (l : LifeCycle) (free : Nat) (b : Bytes) : PackRun :=
  let base : Loaded := { image := baseImage b, fams := (rowsOf 64 (sect b 10)).map (uAt · 5 1), sheetFw := 0, regionFw := 0,
                         packFormats := 0, packCurves := 0 }
  let a := takePacks l (packsOf b) 0
    { got := base, bad := [], curves := [], draw := free + 2 * (rowsOf 512 (sect b 11)).length }
  { a with got := { a.got with image := { a.got.image with
      stores := (List.range 5).map (loadedStore b a.got.image)
      digests := (List.range 5).map fun k => leNat ((sha384 (storeImage b a.got.image k)).take 4) } } }

/-- The curve rows that the load of a bank checks: the base table's, then each signed pack's in order (R202). -/
def checkedCurves (l : LifeCycle) (b : Bytes) : List Bytes :=
  rowsOf 512 (sect b 11) ++ ((packsOf b).map fun p => if packSigned l p then rowsOf 512 (packSection 1 p) else []).flatten

/-- The inputs of D(0) to D(4) (R246). -/
def measuredInputs (b : Bytes) (g : ImageInfo) : List Bytes :=
  let packs := keptPacks b g
  [sect b 1, sect b 2 ++ sect b 3 ++ sect b 4,
   ((List.range 5).map (storeImage b g)).flatten,
   sect b 10 ++ (packs.map (packSection 0)).flatten ++ sect b 11 ++ (packs.map (packSection 1)).flatten ++ sect b 12 ++
     (packs.map (packSection 2)).flatten,
   sect b 13]

end Sys2Proof.Machine
end

