-- ==== Sys2Proof/Machine/SliceRegs.lean ====
section
/-! DEFINITION. The register blocks of a slice and of a queue (R123, R124), as SLICE_QUERY, SLICE_INFO and the control
window show them. -/

namespace Sys2Proof.Machine

open Sys2Proof

/-- The state code of a slice. -/
def SliceState.code : SliceState → Nat
  | .active => 1
  | .resetting => 2
  | .freezing => 3
  | .frozen => 4
  | .exported => 5
  | .destroying => 6

/-- TDISP_LOCKED: CONFIG_LOCKED or RUN. -/
def Slice.locked (y : Slice) : Bool := decide (y.tdi = .configLocked) || decide (y.tdi = .run)

/-- SLC_STATE. -/
def Slice.stateWord (y : Slice) : Nat :=
  y.st.code + 8 * b2n y.locked + 16 * b2n (decide (y.tdi = .run)) + 32 * b2n (decide (y.tdi = .error)) +
  (match y.ideStream with | some i => 256 * i.toNat + 2048 | none => 0)

/-- The queue pairs of a slice. -/
def State.queuesOf (s : State) (n : Nat) : Tab Queue := Tab.keep (fun _ x => x.slice == n) s.queues

/-- Operations charged in the current quota window. -/
def State.chargedNow (s : State) (y : Slice) : Nat :=
  if y.quotaWindow = 0 then 0 else if y.window = some (s.datum.v / y.quotaWindow) then y.charged else 0

/-- Entries in completion staging of a slice. -/
def State.heldOf (s : State) (n : Nat) : Nat := ((s.queuesOf n).vals.map fun x => x.held.length).sum

/-- SLC_KEYS.USED: live slots and orphaned ones that await reclaim (R123). -/
def State.slotsHeld (s : State) (n : Nat) : Nat :=
  (Tab.keep (fun k x => k / 2 ^ 24 == n && x.st != .free && x.st != .reserved) s.keys.slots).length

/-- The first 128 bytes of a slice's register block. -/
def State.sliceBlock (s : State) (n : Nat) (y : Slice) : Bytes :=
  le 4 y.stateWord ++ le 4 y.pasid ++ le 8 y.winBase ++ le 8 y.winSize ++ le 4 (y.weight + 65536 * y.maxQp) ++
  le 4 (y.msixBase + 65536 * y.msixCount) ++ le 4 y.inflightLimit ++
  le 4 (s.packets.filter fun c => c.slice == n).length ++ le 4 y.keySlots ++ le 4 (s.slotsHeld n) ++
  le 4 y.memQuota ++ le 4 y.memUsed ++ le 4 y.opsPerWindow ++ le 4 (s.chargedNow y) ++ le 8 y.quotaWindow ++
  le 4 ((s.queuesOf n).length - 1 + 65536 * y.adminQueue) ++ le 4 0 ++ le 8 y.accepted ++ le 8 y.completed ++
  le 4 (s.heldOf n) ++ le 4 y.ideDrops ++ List.replicate 24 0#8

/-- The state code of a queue. -/
def QueueState.code : QueueState → Nat
  | .active => 1
  | .shutting => 2
  | .frozen => 3

/-- The register block of a queue (R124). -/
def State.queueBlock (s : State) (q : Nat) (x : Queue) : Bytes :=
  le 4 (1 + 2 * x.st.code + 16 * x.home + 64 * b2n x.admin) ++ le 4 x.slice ++ le 8 x.sqBase ++
  le 8 (x.sqLog2 + 256 * x.cqLog2 + 65536 * x.vector) ++ le 8 x.cqAddr ++ le 8 x.shadowAddr ++ le 4 x.h.toNat ++
  le 4 x.t.toNat ++ le 4 x.p.toNat ++ le 4 x.c.toNat ++ le 4 x.pass ++
  le 4 (s.packets.filter fun c => c.q == q).length ++ le 4 x.held.length ++ le 4 (x.invalid + 65536 * x.malformed)

end Sys2Proof.Machine
end

