-- ==== Sys2Proof/Machine/Slices.lean ====
section
/-! DEFINITION. Slices, their queue pairs, reset, freeze and migration (R93 to R119, R267). -/

namespace Sys2Proof.Machine

open Sys2Proof

/-! ## Shared parts -/

/-- The slice administration commands that name a slice (R97). -/
def namesSlice (op : Nat) : Bool :=
  [0x0101, 0x0102, 0x0103, 0x0104, 0x0105, 0x0106, 0x0107, 0x0108, 0x0109, 0x010A, 0x0120].contains op

/-- The slice that an administration command names: in its first two bytes, or the one of an import's session (R97, R113,
R118). -/
def State.sliceNamed (s : State) (c : Ctx) : Nat :=
  if c.opcode = 0x0107 then
    let b := match (if c.payload.isEmpty then s.stream c.q c.stream else none) with | some e => e.head | none => c.payload
    match s.keys.imports.find? fun x => x.id == uAt b 0x1C 4 with | some x => x.slice | none => 0
  else uAt c.payload 0 2

/-- Commands that name the same slice execute one at a time, in ring order (R97). -/
def State.sliceTurn (s : State) (c : Ctx) : Bool :=
  !s.ctxs.vals.any fun d => d.q == c.q && decide (d.seq < c.seq) && namesSlice d.opcode && !d.phase.decided &&
    s.sliceNamed d == s.sliceNamed c

/-- Runs a device administration command that names a slice: its slice number, then its payload. -/
def State.runAdmin (s : State) (i opcode : Nat) (k : Nat → Bytes → State → State) : State :=
  s.runCore i opcode fun c s => if s.sliceTurn c then k (uAt c.payload 0 2) c.payload s else s

/-- Completes with a status and no output. -/
def State.done (s : State) (i : Nat) : State := s.answer i []

/-- A state change of a slice and its event (R392). -/
def State.sliceTo (s : State) (n old : Nat) (st : SliceState) : State :=
  (s.setSlice n fun y => { y with st := st }).raise Ev.slcState (Origin.slice n) old st.code

/-- The chief core assigns a home region: which working region is left open (R20), so it is a free choice. -/
def State.assignHome (s : State) : Nat × State :=
  let l := (List.range 4).filter fun r => !s.regionRetired r
  (l.getD ((Config.freeWord s.free).toNat % max 1 l.length) 0, { s with free := s.free + 1 })

/-- The lowest free queue number, queue 0 apart (R95). -/
def State.freeQueue (s : State) : Option Nat := s.queues.firstFree 1 4095

/-- A queue pair with its counters at zero (R105). -/
def newQueue (slice home : Nat) (admin : Bool) (base sq cq vector cqAddr shadow : Nat) : Queue :=
  { Queue.reset0 with slice := slice, home := home, admin := admin, sqBase := base, sqLog2 := sq, cqLog2 := cq
                      vector := vector, cqAddr := cqAddr, shadowAddr := shadow }

/-- Two ranges meet. -/
def meets (a n b m : Nat) : Bool := decide (a < b + m) && decide (b < a + n)

/-- A ring size code. -/
def ringLog (n : Nat) : Bool := decide (6 ≤ n ∧ n ≤ 18)

/-- Window octets of a doorbell page and a ring. -/
def queueSpan (sq : Nat) : Nat := 4096 + 64 * 2 ^ sq

/-! ## QUE_CTRL_ENABLE_WRITE (R96) -/

/-- ENABLE written: a 1 brings queue 0 up when its fields are legal. -/
def State.enableQueue0 (on : Bool) (s : State) : State :=
  let x := s.enq0
  if !s.ready || !on || (s.queues.find 0).isSome then s
  else if ringLog x.sqLog2 && ringLog x.cqLog2 && decide (x.vector ≤ 0x6FF) && x.cqAddr % 4096 == 0 && x.shadowAddr % 8 == 0 then
    let (home, s) := s.assignHome
    { s with queues := s.queues.put 0 { x with home := home, st := .active, admin := true } }
  else s

def execQueCtrlEnableWrite (v : BitVec 32) (s : State) : Out := .next (s.enableQueue0 (v.getLsbD 0))

/-! ## Window ranges and vector blocks (R94, R99, R100) -/

/-- A window range is legal and free. -/
def State.rangeOk (s : State) (base size : Nat) : Bool :=
  base % 65536 == 0 && size % 65536 == 0 && decide (65536 ≤ size ∧ size ≤ 2 ^ 32) && decide (base + size ≤ 2 ^ 32) &&
  !meets base size 0 (queueSpan s.enq0.sqLog2) &&
  (match s.queues.find 0 with | some x => !meets base size 0 (queueSpan x.sqLog2) | none => true) &&
  s.slices.vals.all fun y => !meets base size y.winBase y.winSize

/-- A vector block is legal and free of other blocks and of class sources. -/
def State.vectorsOk (s : State) (base count : Nat) : Bool :=
  decide (1 ≤ base ∧ 1 ≤ count ∧ base + count ≤ 1792) &&
  (s.slices.vals.all fun y => !meets base count y.msixBase y.msixCount) &&
  (s.events.classes.vals.all fun k => !(k.hostEn && decide (base ≤ k.hostSource ∧ k.hostSource < base + count)))

/-- The shares of all slices stay within the device. -/
def State.sharesFit (s : State) (n keySlots memQuota : Nat) : Bool :=
  let others := Tab.keep (fun k _ => k != n) s.slices
  decide ((others.vals.map Slice.keySlots).sum + keySlots ≤ 4194304) &&
  decide ((others.vals.map Slice.memQuota).sum + memQuota ≤ 6815744)

/-- Legal values of the shares. -/
def sharesLegal (maxQp weight inflight keySlots memQuota : Nat) : Bool :=
  decide (maxQp ≤ 4094) && decide (1 ≤ weight ∧ weight ≤ 1000) && decide (1 ≤ inflight ∧ inflight ≤ 65536) &&
  decide (keySlots ≤ 65536) && decide (memQuota ≤ 6815744)

/-- A new slice before its administration queue. -/
def newSlice (flags pasid base size weight maxQp msixBase msixCount inflight keySlots mem ops window : Nat) : Slice :=
  { st := .active, flags := flags, pasid := pasid, winBase := base, winSize := size, weight := weight, maxQp := maxQp
    msixBase := msixBase, msixCount := msixCount, inflightLimit := inflight, keySlots := keySlots, memQuota := mem
    memUsed := 0, opsPerWindow := ops, quotaWindow := window, window := none, charged := 0, adminQueue := 0
    accepted := 0, completed := 0, ideDrops := 0, imported := false, tdi := .configUnlocked, ideStream := none
    squash := false, wipe := false, endsFrozen := false, admin := none, thawAt := false }

/-! ## SLICE_CREATE (R99, R100) -/

/-- The payload's fields are legal. -/
def State.createLegal (s : State) (b : Bytes) : Bool :=
  let n := uAt b 0 2
  let ops := uAt b 0x2C 4
  let win := uAt b 0x30 8
  decide (1 ≤ n ∧ n ≤ 1024) && decide (uAt b 2 2 < 4) && decide (uAt b 4 4 < 2 ^ 20) &&
  s.rangeOk (uAt b 8 8) (uAt b 0x10 8) &&
  sharesLegal (uAt b 0x18 2) (uAt b 0x1A 2) (uAt b 0x1C 4) (uAt b 0x20 4) (uAt b 0x24 4) &&
  s.vectorsOk (uAt b 0x28 2) (uAt b 0x2A 2) && (if ops = 0 then win == 0 else windowOk win) &&
  ringLog (uAt b 0x38 1) && ringLog (uAt b 0x39 1) && decide (uAt b 0x3A 2 < uAt b 0x2A 2) && zeroAt b 0x3C 4 &&
  uAt b 0x40 8 % 4096 == 0 && uAt b 0x48 8 % 8 == 0 && decide (queueSpan (uAt b 0x38 1) ≤ uAt b 0x10 8)

def execSliceCreate (ctx : Nat) (s : State) : Out :=
  .next (s.runAdmin ctx 0x0101 fun n b s =>
    if !s.createLegal b then s.refuse ctx St.malformed
    else if (s.slices.find n).isSome || s.slices.vals.any (fun y => y.pasid == uAt b 4 4) then s.refuse ctx St.usageDenied
    else match s.freeQueue with
      | none => s.refuse ctx St.quota
      | some q =>
        if !s.sharesFit n (uAt b 0x20 4) (uAt b 0x24 4) then s.refuse ctx St.quota
        else
          let (home, s) := s.assignHome
          let y := newSlice (uAt b 2 2) (uAt b 4 4) (uAt b 8 8) (uAt b 0x10 8) (uAt b 0x1A 2) (uAt b 0x18 2)
            (uAt b 0x28 2) (uAt b 0x2A 2) (uAt b 0x1C 4) (uAt b 0x20 4) (uAt b 0x24 4) (uAt b 0x2C 4) (uAt b 0x30 8)
          let x := newQueue n home true (uAt b 8 8) (uAt b 0x38 1) (uAt b 0x39 1) (uAt b 0x28 2 + uAt b 0x3A 2)
            (uAt b 0x40 8) (uAt b 0x48 8)
          let s := { s with slices := s.slices.put n { y with adminQueue := q }, queues := s.queues.put q x }
          (s.sliceTo n 0 .active).answer ctx (le 2 q ++ le 1 home ++ le 5 0))

/-! ## SLICE_RESIZE (R103) -/

/-- A field of all ones leaves its share unchanged. -/
def keepOr (bits v old : Nat) : Nat := if v = maxOf bits then old else v

def execSliceResize (ctx : Nat) (s : State) : Out :=
  .next (s.runAdmin ctx 0x0102 fun n b s =>
    match s.slices.find n with
    | none => s.refuse ctx St.usageDenied
    | some y =>
      let maxQp := keepOr 16 (uAt b 2 2) y.maxQp
      let weight := keepOr 16 (uAt b 4 2) y.weight
      let inflight := keepOr 32 (uAt b 8 4) y.inflightLimit
      let keySlots := keepOr 32 (uAt b 0xC 4) y.keySlots
      let mem := keepOr 32 (uAt b 0x10 4) y.memQuota
      let ops := keepOr 32 (uAt b 0x14 4) y.opsPerWindow
      if y.st ≠ .active ∧ y.st ≠ .frozen then s.refuse ctx St.usageDenied
      else if !sharesLegal maxQp weight inflight keySlots mem || !zeroAt b 6 2 || !zeroAt b 0x18 8 ||
          (ops != 0 && y.quotaWindow == 0) then s.refuse ctx St.malformed
      else if decide (keySlots < s.slotsUsed n) || !s.sharesFit n keySlots mem then s.refuse ctx St.quota
      else (s.setSlice n fun y => { y with maxQp := maxQp, weight := weight, inflightLimit := inflight, keySlots := keySlots
                                           memQuota := mem, opsPerWindow := ops }).done ctx)

/-! ## Reset, freeze and destroy (R107 to R112) -/

/-- Squash: accepted commands that have not launched complete ST_ABORTED at once, launched ones run to their end with
their output discarded; what of them has not launched does not launch. -/
def State.squashCmds (s : State) (p : Ctx → Bool) : State :=
  let s := s.dropBatches fun c => p c && decide (c.phase = .waiting)
  let s := s.ctxs.foldl (fun t e => if p e.2 && decide (e.2.phase = .waiting) then t.refuse e.1 St.aborted else t) s
  let s := { s with ctxs := s.ctxs.mapVals fun _ c => if p c && !c.phase.decided then { c with drop := true } else c }
  s.ctxs.foldl (fun t e => if p e.2 && !e.2.parts.isEmpty then t.settle e.1 else t) s

/-- The interface of a locked slice goes to ERROR (R120). -/
def State.tdiError (s : State) (n : Nat) : State :=
  s.setSlice n fun y => if y.locked then { y with tdi := .error } else y

/-- Releases the stream contexts of a slice's queues; `keepOpen`: an open stream becomes aborted (R112). -/
def State.releaseStreams (s : State) (n : Nat) (keepOpen : Bool) : State :=
  let s := s.dropBatches fun c => c.slice == n
  { s with
    queues := s.queues.mapVals fun _ x =>
      if x.slice ≠ n then x
      else if keepOpen then
        { x with streams := (Tab.keep (fun _ e => decide (e.st ≠ .kept)) x.streams).mapVals fun _ e =>
            { e with st := .aborted, data := [], pages := 0, finalCtx := none } }
      else { x with streams := [] }
    ctxs := s.ctxs.mapVals fun _ c => if c.slice = n then { c with pages := 0 } else c
    slices := s.slices.modify n fun y => { y with memUsed := 0 } }

/-- Step 4 of R109: once nothing of a draining slice is to be consumed or run, its stream contexts, kept contexts and pages
are released, whatever completions still wait to be written. -/
def State.releaseIdle (s : State) (n : Nat) : State :=
  match s.slices.find n with
  | none => s
  | some y =>
    let drains := decide (y.st = .resetting) || decide (y.st = .freezing) || decide (y.st = .destroying)
    if drains && (s.queuesOf n).vals.all (fun x => x.fill == 0) && s.packets.all (fun c => c.slice != n || c.phase.decided) then
      s.releaseStreams n (decide (y.st = .freezing))
    else s

/-- The same for every slice, at a boundary. -/
def State.releaseDrained (s : State) : State := s.slices.foldl (fun t p => t.releaseIdle p.1) s

/-- Step 1 of the sequence of R109 for a reset, freeze or destroy; `i` completes once the slice is quiet. -/
def State.beginDrain (s : State) (i n : Nat) (y : Slice) (st : SliceState) (squash wipe frozen : Bool) : State :=
  let s := (s.sliceTo n y.st.code st).setSlice n fun y =>
    { y with squash := squash, wipe := wipe, endsFrozen := frozen, admin := some i }
  let s := s.setCtx i fun c => { c with phase := .running, launchV := s.datum.v, launchTick := s.now, progress := s.now }
  if squash then (s.squashCmds fun c => c.slice == n).releaseIdle n else s

def execSliceReset (ctx : Nat) (s : State) : Out :=
  .next (s.runAdmin ctx 0x0104 fun n b s =>
    match s.slices.find n with
    | none => s.refuse ctx St.usageDenied
    | some y =>
      if 4 ≤ uAt b 2 2 || !zeroAt b 4 4 then s.refuse ctx St.malformed
      else if y.st ≠ .active ∧ y.st ≠ .frozen then s.refuse ctx St.usageDenied
      else (s.tdiError n).beginDrain ctx n y .resetting (bitOf (uAt b 2 2) 0) (bitOf (uAt b 2 2) 1) false)

def execSliceFreeze (ctx : Nat) (s : State) : Out :=
  .next (s.runAdmin ctx 0x0105 fun n b s =>
    match s.slices.find n with
    | none => s.refuse ctx St.usageDenied
    | some y =>
      if 2 ≤ uAt b 2 2 || !zeroAt b 4 4 then s.refuse ctx St.malformed
      else if y.st ≠ .active || y.locked then s.refuse ctx St.usageDenied
      else s.beginDrain ctx n y .freezing (bitOf (uAt b 2 2) 0) false true)

def execSliceDestroy (ctx : Nat) (s : State) : Out :=
  .next (s.runAdmin ctx 0x0103 fun n b s =>
    match s.slices.find n with
    | none => s.refuse ctx St.usageDenied
    | some y =>
      if !zeroAt b 2 6 then s.refuse ctx St.malformed
      else if y.st = .resetting ∨ y.st = .freezing ∨ y.st = .destroying then s
      else (s.tdiError n).beginDrain ctx n y .destroying true true false)

/-- Nothing of a queue remains to be written: no packet, no command, no held or coming entry (R107, R111). -/
def State.queueQuiet (s : State) (q : Nat) (x : Queue) : Bool :=
  x.fill == 0 && x.held.isEmpty && x.noticeCount == 0 && !s.packets.any fun c => c.q == q

/-- Every completion of a slice has been written. -/
def State.sliceQuiet (s : State) (n : Nat) : Bool := (s.queuesOf n).all fun p => s.queueQuiet p.1 p.2

/-- Every live key of a slice is bumped at the next boundary (R109, step 6). -/
def State.wipeKeys (s : State) (n : Nat) : State :=
  let live := (Tab.keep (fun k x => k / 2 ^ 24 == n && decide (x.st = .live)) s.keys.slots).map fun p =>
    (p.1 * 2 ^ 24 + p.2.gen, s.now)
  { s with keys := { s.keys with bumps := s.keys.bumps ++ live } }

/-- The administration queue after a reset: counters and pass count at zero (R109, step 7). -/
def Queue.afterReset (x : Queue) : Queue :=
  { x with st := .active, h := 0, t := 0, p := 0, c := 0, pass := 0, shadow := 0, held := [], chainOpen := false
           streams := [], noticeCount := 0, noticeHeld := false }

/-- Anchors of a slice go at reset and destruction (R195). -/
def State.dropAnchors (s : State) (n : Nat) : State :=
  { s with keys := { s.keys with anchors := s.keys.anchors.filter fun a => a.slice ≠ n } }

/-- The end of a reset: steps 6 to 8; what its contexts still hold was released before its last completions (step 4). -/
def State.endReset (s : State) (n i : Nat) (y : Slice) : State :=
  let s := (s.releaseStreams n false).dropAnchors n
  let s := if y.wipe then s.wipeKeys n else s
  let s := { s with queues := (Tab.keep (fun q (x : Queue) => x.slice != n || q == y.adminQueue) s.queues).mapVals fun _ x =>
    if x.slice = n then x.afterReset else x }
  let s := s.setSlice n fun y => { y with admin := none, squash := false, wipe := false }
  (s.sliceTo n y.st.code .active).conclude i (Result.bare St.ok)

/-- The end of a freeze: FROZEN, with queues, counters and keys kept (R112). -/
def State.endFreeze (s : State) (n i : Nat) (y : Slice) : State :=
  let s := s.releaseStreams n true
  let s := { s with queues := s.queues.mapVals fun _ x => if x.slice = n then { x with st := .frozen } else x }
  let s := s.setSlice n fun y => { y with admin := none, squash := false, endsFrozen := false }
  (s.sliceTo n y.st.code .frozen).conclude i (Result.bare St.ok)

/-- The slots of a destroyed slice: every key's generation is bumped and every slot is free; a slot at its last
generation may be used anew by a later slice (R110, R254). -/
def State.freeSlots (s : State) (n : Nat) : State :=
  let mine := Tab.keep (fun k _ => k / 2 ^ 24 == n) s.keys.slots
  let s := mine.foldl (fun t p =>
    if p.2.policy.stateful && (decide (p.2.st = .live) || decide (p.2.st = .orphaned)) then t.removeStateful p.2.policy.counter
    else t) s
  let slots := s.keys.slots.foldl (fun t p =>
    if p.1 / 2 ^ 24 ≠ n then t
    else if 0xFFFFFF ≤ p.2.gen then t.drop p.1
    else t.put p.1 (Slot.empty (if p.2.st = .live ∨ p.2.st = .orphaned then p.2.gen + 1 else p.2.gen) .free)) s.keys.slots
  { s with keys := { s.keys with
      slots := slots
      bumps := s.keys.bumps.filter fun b => b.1 / 2 ^ 48 ≠ n
      prepared := s.keys.prepared.filter fun h => h / 2 ^ 48 ≠ n
      mceCache := s.keys.mceCache.filter fun h => h / 2 ^ 48 ≠ n
      resident := s.keys.resident.mapVals fun _ l => l.filter fun x => x.handle / 2 ^ 48 ≠ n
      receives := s.keys.receives.filter fun x => x.slice ≠ n
      peers := s.keys.peers.drop n } }

/-- The end of a destroy: everything the slice held is released; its epoch advances (R110, R267). -/
def State.endDestroy (s : State) (n i : Nat) (y : Slice) : State :=
  let s := ((s.releaseStreams n false).dropAnchors n).freeSlots n
  let s := { s with
    queues := Tab.keep (fun _ x => x.slice != n) s.queues
    slices := s.slices.drop n
    keys := { s.keys with epochs := s.keys.epochs.put n (s.keys.epochs.getD n 0 + 1) } }
  (s.raise Ev.slcState (Origin.slice n) y.st.code 0).conclude i (Result.bare St.ok)

/-- The last completion of the slice of an administration command has been written: the sequence ends (R109 to R112). -/
def execSliceQuiesced (ctx : Nat) (s : State) : Out :=
  match s.slices.findSome? fun p => if p.2.admin = some ctx then some p else none with
  | none => .next s
  | some (n, y) =>
    if !s.sliceQuiet n || s.unsettled then .next s
    else match y.st with
      | .resetting => .next (s.endReset n ctx y)
      | .freezing => .next (s.endFreeze n ctx y)
      | .destroying => .next (s.endDestroy n ctx y)
      | _ => .next s

/-- SLICE_THAW (R119): ACTIVE again, with every head shadow written. -/
def execSliceThaw (ctx : Nat) (s : State) : Out :=
  .next (s.runAdmin ctx 0x0108 fun n b s =>
    match s.slices.find n with
    | none => s.refuse ctx St.usageDenied
    | some y =>
      if !zeroAt b 2 6 then s.refuse ctx St.malformed
      else if y.st ≠ .frozen then s.refuse ctx St.usageDenied
      else
        let s := (s.queuesOf n).foldl (fun t p =>
          let host := hostWrite (t.queueSpace p.2) p.2.shadowAddr (le 4 p.2.h.toNat ++ le 4 0) t.host
          ({ t with host := host }).setQueue p.1 fun x =>
            { x with shadow := x.h, st := if x.st = QueueState.frozen then QueueState.active else x.st }) s
        let s := s.setSlice n fun y => { y with imported := false }
        (s.sliceTo n y.st.code .active).done ctx)

/-! ## SLICE_QUERY, SLICE_INFO, SLICE_EPOCH_ADVANCE -/

def execSliceQuery (ctx : Nat) (s : State) : Out :=
  .next (s.runAdmin ctx 0x010A fun n b s =>
    match s.slices.find n with
    | none => s.refuse ctx St.usageDenied
    | some y => if !zeroAt b 2 6 then s.refuse ctx St.malformed else s.answer ctx (s.sliceBlock n y))

def execSliceInfo (ctx : Nat) (s : State) : Out :=
  .next (s.runCore ctx 0x0203 fun c s =>
    match s.slices.find c.slice with
    | none => s.refuse ctx St.usageDenied
    | some y => s.answer ctx ((s.sliceBlock c.slice y).take 76 ++ le 4 0))

def execSliceEpochAdvance (ctx : Nat) (s : State) : Out :=
  .next (s.runAdmin ctx 0x0120 fun n b s =>
    if n = 0 || decide (1024 < n) || !zeroAt b 2 6 then s.refuse ctx St.malformed
    else
      let e := s.keys.epochs.getD n 0 + 1
      ({ s with keys := { s.keys with epochs := s.keys.epochs.put n e } }).answer ctx (le 8 e))

/-! ## Queue pairs (R104 to R107) -/

/-- QP_CREATE's fields are legal and its pages free. -/
def State.qpLegal (s : State) (n : Nat) (y : Slice) (b : Bytes) : Bool :=
  let off := uAt b 0 4
  let sq := uAt b 4 1
  off % 4096 == 0 && ringLog sq && ringLog (uAt b 5 1) && decide (uAt b 6 2 < y.msixCount) && uAt b 8 8 % 4096 == 0 &&
  uAt b 0x10 8 % 8 == 0 && zeroAt b 0x18 8 && decide (off + queueSpan sq ≤ y.winSize) &&
  (s.queuesOf n).vals.all fun x => !meets (y.winBase + off) (queueSpan sq) x.sqBase (queueSpan x.sqLog2)

def execQpCreate (ctx : Nat) (s : State) : Out :=
  .next (s.runCore ctx 0x0201 fun c s =>
    match s.slices.find c.slice with
    | none => s.refuse ctx St.usageDenied
    | some y =>
      let b := c.payload
      if !s.qpLegal c.slice y b then s.refuse ctx St.malformed
      else match s.freeQueue with
        | none => s.refuse ctx St.quota
        | some q =>
          if y.maxQp ≤ (s.queuesOf c.slice).length - 1 then s.refuse ctx St.quota
          else
            let (home, s) := s.assignHome
            let x := newQueue c.slice home false (y.winBase + uAt b 0 4) (uAt b 4 1) (uAt b 5 1) (y.msixBase + uAt b 6 2)
              (uAt b 8 8) (uAt b 0x10 8)
            ({ s with queues := s.queues.put q x }).answer ctx (le 2 q ++ le 1 home ++ le 5 0))

/-- QP_DESTROY shuts a queue down; it completes when the queue is quiet (R107). -/
def execQpDestroy (ctx : Nat) (s : State) : Out :=
  .next (s.runCore ctx 0x0202 fun c s =>
    let q := uAt c.payload 0 2
    if 4095 < q || !zeroAt c.payload 2 6 then s.refuse ctx St.malformed
    else match s.queues.find q with
      | none => s.refuse ctx St.usageDenied
      | some x =>
        if x.slice ≠ c.slice ∨ x.admin ∨ x.st = .shutting then s.refuse ctx St.usageDenied
        else
          let s := s.setQueue q fun x => { x with st := .shutting, destroyer := some ctx }
          let s := s.setCtx ctx fun c => { c with phase := .running, launchV := s.datum.v, launchTick := s.now, progress := s.now }
          s.squashCmds fun d => d.q == q)

/-- Every completion of a queue being shut down has been written: its number is free (R107). -/
def execQpShutdownComplete (q : Nat) (s : State) : Out :=
  match s.queues.find q with
  | none => .next s
  | some x =>
    match x.st, x.destroyer with
    | .shutting, some i =>
      if !s.queueQuiet q x || s.unsettled then .next s
      else
        let s := s.freeMem x.slice (x.streams.vals.map Stream.mem).sum
        .next (({ s with queues := s.queues.drop q }).conclude i (Result.bare St.ok))
    | _, _ => .next s

/-! ## Migration (R113 to R118) -/

/-- A random draw of a command that one of the cores executes, from the atlas INT instance (R152). -/
def State.coreDraw (s : State) (i : Nat) (k : State → State) : State :=
  match s.drawState 4 with
  | .failed => s.refuse i St.entropyFailed
  | .waits => s.awaitDraw i
  | .serves => k s

def execImportPrepare (ctx : Nat) (s : State) : Out :=
  .next (s.runAdmin ctx 0x0109 fun n b s =>
    if !zeroAt b 2 6 || n = 0 || decide (1024 < n) then s.refuse ctx St.malformed
    else if (s.slices.find n).isSome then s.refuse ctx St.usageDenied
    else s.coreDraw ctx fun s =>
      let (seed, s) := s.drawFrom 4 64
      let (rnd, s) := s.drawFrom 4 96
      let id := s.keys.nextSession
      let ek := pubOf 0x00100003 seed
      let head := prepareHead id s.keys.serial ek
      let x : Session := { id := id, slice := n, parent := 0, opened := s.now, seed := seed }
      let s := { s with keys := { s.keys with nextSession := (id + 1) % 2 ^ 32, imports := openSession s.keys.imports x } }
      s.answer ctx (head ++ s.identitySig "MAELARN-MIGRATE" head (rnd.take 32) (rnd.drop 32)))

/-- An import session closes 600 s of reference time after it was opened (R113); receive sessions keep the same rule
(R268). -/
def execImportSessionExpire (session : Nat) (s : State) : Out :=
  let keep := fun x : Session => decide (x.id ≠ session) || !x.expired s.now
  .next { s with keys := { s.keys with imports := s.keys.imports.filter keep, receives := s.keys.receives.filter keep } }

/-- A record of an export body (R116). -/
def bodyRecord (type : Nat) (b : Bytes) : Bytes := le 2 type ++ le 2 0 ++ le 4 b.length ++ b

/-- The 128-byte bitmap of a queue's aborted stream entries; bit n - 1 is STREAM_ID n. -/
def abortedMap (x : Queue) : Bytes :=
  (List.range 128).map fun i => BitVec.ofNat 8 ((List.range 8).map fun b =>
    match x.streams.find (8 * i + b + 1) with
    | some e => if e.st = .aborted then 2 ^ b else 0
    | none => 0).sum

/-- The QUEUE record's contents; the widths are the model's (log 33). -/
def queueRecord (y : Slice) (q : Nat) (x : Queue) : Bytes :=
  le 2 q ++ le 4 (x.sqBase - y.winBase) ++ le 1 x.sqLog2 ++ le 1 x.cqLog2 ++ le 2 (x.vector - y.msixBase) ++ le 8 x.cqAddr ++
  le 8 x.shadowAddr ++ le 4 x.h.toNat ++ le 4 x.t.toNat ++ le 4 x.p.toNat ++ le 4 x.c.toNat ++ le 4 x.pass ++ abortedMap x

/-- The SLICE record's contents. -/
def sliceRecord (n : Nat) (y : Slice) : Bytes :=
  le 2 n ++ le 2 y.flags ++ le 2 y.maxQp ++ le 2 y.weight ++ le 4 y.inflightLimit ++ le 4 y.keySlots ++ le 4 y.memQuota ++
  le 4 y.opsPerWindow ++ le 8 y.quotaWindow ++ le 2 y.msixCount ++ le 8 y.winSize ++ le 2 y.adminQueue

/-- The quota window that a KEY record carries: that of the last charge, or the one up to which a restored key counts as
spent, with its quota charged in full (R59, R266). -/
def Slot.quotaOut (x : Slot) : Nat × Nat :=
  match x.spentTo with
  | some e => if x.quotaIdx.all (· ≤ e) then (e, x.policy.quotaOps) else (x.quotaIdx.getD (maxOf 64), x.quotaCharged)
  | none => (x.quotaIdx.getD (maxOf 64), x.quotaCharged)

/-- The KEY record's contents. -/
def keyRecord (vault : Bytes) (h : Nat) (x : Slot) : Bytes :=
  le 8 h ++ le 8 x.parent ++ x.policy.bytes ++ le 8 x.quotaOut.1 ++ le 4 x.quotaOut.2 ++ x.material vault

/-- The live slots of a slice. -/
def State.liveSlots (s : State) (n : Nat) : Tab Slot :=
  Tab.keep (fun k x => k / 2 ^ 24 == n && decide (x.st = .live)) s.keys.slots

/-- The STATEFUL record's contents: N is the next-unreserved index of the latest journal record (R117). -/
def State.statefulRecord (s : State) (x : Slot) : Bytes :=
  let id := x.policy.counter
  let m := x.material s.keys.vaultKey
  let (next, total) := match s.recOf id with
    | some r => (r.nextUnreserved, r.total)
    | none => (totalLeaves x.policy.param m, totalLeaves x.policy.param m)
  le 8 id ++ fit 32 m ++ le 4 x.policy.param ++ le 8 next ++ le 8 total

/-- The body of a slice's blob (R116). -/
def State.exportBody (s : State) (n : Nat) (y : Slice) : Bytes :=
  bodyRecord 1 (sliceRecord n y) ++
  ((s.queuesOf n).map fun p => bodyRecord 2 (queueRecord y p.1 p.2)).flatten ++
  bodyRecord 3 (le 8 (y.window.getD (maxOf 64)) ++ le 4 y.charged) ++
  ((s.liveSlots n).map fun p => bodyRecord 4 (keyRecord s.keys.vaultKey (p.1 * 2 ^ 24 + p.2.gen) p.2)).flatten ++
  (((s.liveSlots n).vals.filter fun x => x.policy.stateful).map fun x => bodyRecord 5 (s.statefulRecord x)).flatten ++
  bodyRecord 6 []

/-- Every stateful key of an exported slice is exhausted on the source, HANDED_OVER (R117, R166). -/
def State.handOver (s : State) (n : Nat) : State :=
  ((s.liveSlots n).vals.filter fun x => x.policy.stateful).foldl (fun t x =>
    let id := x.policy.counter
    let t := t.exhaustRec id true
    { t with stateful := { t.stateful with keys := t.stateful.keys.modify id fun l => { l with next := l.total, reservedEnd := l.total } } }) s

/-- A journal record of a slice still waits for the write budget (R169). -/
def State.sliceOwes (s : State) (n : Nat) : Bool := s.stateful.owed.any fun r => r.handle / 2 ^ 48 == n

/-- An export whose checks have passed forms its blob once its journal records are written and random service gives the
draws; the slice stays EXPORTED whatever comes of it (R114, R115, R117). `body` is what the command holds as its result. -/
def State.exportBlob (s : State) (i : Nat) (c : Ctx) (body : Bytes) : State :=
  let out := bytesAt c.payload 8 6307
  if s.sliceOwes (uAt c.payload 0 2) then s
  else match s.drawState 4 with
    | .failed => s.failWith i St.entropyFailed
    | .waits => s.awaitDraw i
    | .serves =>
      let (m, s) := s.drawFrom 4 32
      let (nonce, s) := s.drawFrom 4 12
      let (rnd, s) := s.drawFrom 4 96
      let v := if s.trusted then s.datum.v else 0
      let blob := s.blobOf 1 "MAELARN-MIGRATE" (uAt out 0 4) (uAt out 8 8) v (bytesAt out 0x10 1568) m nonce body
        (rnd.take 32) (rnd.drop 32)
      s.conclude i { Result.bare St.ok with out := blob }

/-- A command of the opcode that has begun and holds an interim result. -/
def State.begun (s : State) (i opcode : Nat) : Option (Ctx × Bytes) :=
  match s.ctxs.find i with
  | some c => if c.opcode = opcode ∧ c.phase = .running ∧ s.serving ∧ !s.unsettled then c.result.map fun r => (c, r.out) else none
  | none => none

/-- An administration command begins and holds an interim result. -/
def State.beginWith (s : State) (i : Nat) (out : Bytes) : State :=
  s.setCtx i fun c => { c with phase := .running, launchV := s.datum.v, launchTick := s.now, progress := s.now
                               result := some { Result.bare St.ok with out := out } }

/-- SLICE_EXPORT (R114, R115, R117). -/
def execSliceExport (ctx : Nat) (s : State) : Out :=
  match s.begun ctx 0x0106 with
  | some (c, body) => .next (s.exportBlob ctx c body)
  | none =>
  .next (s.runAdmin ctx 0x0106 fun n b s =>
    match s.slices.find n, s.ctxs.find ctx with
    | some y, some c =>
      let out := bytesAt b 8 6307
      let chain := b.drop 0x18AB
      let body := s.exportBody n y
      if !zeroAt b 2 2 then s.refuse ctx St.malformed
      else if y.st ≠ .frozen ∨ y.imported ∨ !bitOf y.flags 0 then s.refuse ctx St.usageDenied
      else if !prepareOk "MAELARN-MIGRATE" out chain then s.refuse ctx St.inputRejected
      else if c.outLimit < 0x664 + body.length + 4723 then s.refuse ctx St.outLimit
      else (((s.sliceTo n y.st.code .exported).handOver n).beginWith ctx body).exportBlob ctx c body
    | _, _ => s.refuse ctx St.usageDenied)

/-! ## SLICE_IMPORT (R118) -/

/-- Splits a body into its records; none: it is not well formed. -/
def splitRecords : Nat → Bytes → Option (List (Nat × Bytes))
  | 0, _ => none
  | f + 1, b =>
    if b.length < 8 || !zeroAt b 2 2 then none
    else
      let n := uAt b 4 4
      if b.length < 8 + n then none
      else if uAt b 0 2 = 6 then (if n = 0 ∧ b.length = 8 then some [] else none)
      else (splitRecords f (b.drop (8 + n))).map fun l => (uAt b 0 2, bytesAt b 8 n) :: l

/-- The records of one type. -/
def recsOf (l : List (Nat × Bytes)) (t : Nat) : List Bytes := (l.filter fun p => p.1 == t).map Prod.snd

/-- The records of a body are well formed and complete (R116). -/
def recordsOk (l : List (Nat × Bytes)) : Bool :=
  (l.all fun p => decide (1 ≤ p.1 ∧ p.1 ≤ 5)) && (recsOf l 1).map List.length == [44] &&
  ((recsOf l 2).all fun b => b.length == 174 && ringLog (uAt b 6 1) && ringLog (uAt b 7 1)) &&
  (recsOf l 3).map List.length == [12] && ((recsOf l 4).all fun b => decide (92 ≤ b.length)) &&
  ((recsOf l 5).all fun b => b.length == 60) &&
  decide ((recsOf l 5).length = ((recsOf l 4).filter fun b => (policyOf (bytesAt b 16 64)).stateful).length) &&
  ((recsOf l 2).any fun b => uAt b 0 2 == uAt ((recsOf l 1).headD []) 42 2)

/-- Recreates one queue pair at its offset with its counters (R118, step 3). -/
def State.importQueue (s : State) (n : Nat) (y : Slice) (oldAdmin : Nat) (b : Bytes) : State :=
  match s.freeQueue with
  | none => s
  | some q =>
    let (home, s) := s.assignHome
    let admin := uAt b 0 2 == oldAdmin
    let x := newQueue n home admin (y.winBase + uAt b 2 4) (uAt b 6 1) (uAt b 7 1) (y.msixBase + uAt b 8 2)
      (uAt b 10 8) (uAt b 18 8)
    let streams := (List.range 1024).filterMap fun i =>
      if bitOf (uAt b (46 + i / 8) 1) (i % 8) then
        some (i + 1, ({ st := .aborted, opcode := 0, keyA := 0, keyB := 0, param := 0, declared := 0, undeclared := false
                        count := 0, head := [], data := [], charged := false, finalCtx := none, pages := 0
                        keptHead := [], fromKept := false, leaf := none, startUnc := 0, first := 0
                        region := none, saved := none } : Stream))
      else none
    let x := { x with
      st := .frozen
      h := BitVec.ofNat 32 (uAt b 26 4)
      t := BitVec.ofNat 32 (uAt b 30 4)
      p := BitVec.ofNat 32 (uAt b 34 4)
      c := BitVec.ofNat 32 (uAt b 38 4)
      pass := uAt b 42 4
      shadow := BitVec.ofNat 32 (uAt b 26 4)
      streams := streams }
    let s := { s with queues := s.queues.put q x }
    if admin then s.setSlice n fun y => { y with adminQueue := q } else s

/-- A stateful key of an imported slice: a new KEY_ID and a journal record at N, IMPORTED, from which the key goes on
(R118, R166). -/
def State.importStateful (s : State) (h : Nat) (p : Policy) (material rec : Bytes) : Policy × State :=
  let id := s.stateful.keyIdCtr + 1
  let n := uAt rec 44 8
  let l : Leaves := { next := n, reservedEnd := n, total := uAt rec 52 8, block := 65536, heights := heightsOf p.param material
                      handle := h }
  let s := { s with stateful := { s.stateful with keyIdCtr := id, keys := s.stateful.keys.put id l } }
  ({ p with counter := id }, s.journalWrite id 4 n l.total l.block h)

/-- One key of an imported slice, at its own handle. -/
def State.importKey (s : State) (stateful : List Bytes) (b : Bytes) : State :=
  let h := uAt b 0 8
  let p := s.policyAt (bytesAt b 16 64)
  let m := b.drop 92
  let idx := uAt b 80 8
  let (p, s) := match (if p.stateful then stateful.find? fun r => uAt r 0 8 == p.counter else none) with
    | some r => s.importStateful h p m r
    | none => (p, s)
  let pub := if p.stateful then statefulPub p.param m else if p.publicOnly then m else []
  (s.deposit h (uAt b 8 8) p m pub).setSlot h fun x =>
    { x with quotaIdx := if idx = maxOf 64 then none else some idx, quotaCharged := uAt b 88 4 }

/-- The slice of a blob on this device, FROZEN (R118, steps 1 to 4). -/
def State.importSlice (s : State) (n : Nat) (hdr r1 : Bytes) (l : List (Nat × Bytes)) (session : Nat) : State :=
  let quota := (recsOf l 3).headD []
  let win := uAt quota 0 8
  let y := newSlice (uAt r1 2 2) (uAt hdr 4 4) (uAt hdr 8 8) (uAt hdr 0x10 8) (uAt r1 6 2) (uAt r1 4 2) (uAt hdr 0x18 2)
    (uAt hdr 0x1A 2) (uAt r1 8 4) (uAt r1 12 4) (uAt r1 16 4) (uAt r1 20 4) (uAt r1 24 8)
  let y := { y with st := .frozen, imported := true, window := if win = maxOf 64 then none else some win
                    charged := uAt quota 8 4 }
  let s := { s with
    slices := s.slices.put n y
    keys := { s.keys with imports := s.keys.imports.filter fun x => x.id ≠ session } }
  let s := (recsOf l 2).foldl (fun t b => t.importQueue n y (uAt r1 42 2) b) s
  let s := (recsOf l 4).foldl (fun t b => t.importKey (recsOf l 5) b) s
  s.raise Ev.slcState (Origin.slice n) 0 SliceState.frozen.code

/-- The device has room for the slice of a blob (R118). A PASID that another slice has, or one of 2^20 or more, cannot be met
either; the rule names no status for it (DESIGN CHOICE, log 25). -/
def State.importFits (s : State) (n : Nat) (hdr r1 : Bytes) (queues : Nat) : Bool :=
  s.rangeOk (uAt hdr 8 8) (uAt hdr 0x10 8) && s.vectorsOk (uAt hdr 0x18 2) (uAt hdr 0x1A 2) &&
  decide (uAt r1 34 8 ≤ uAt hdr 0x10 8) && decide (uAt r1 32 2 ≤ uAt hdr 0x1A 2) && decide (uAt hdr 4 4 < 2 ^ 20) &&
  !(s.slices.vals.any fun y => y.pasid == uAt hdr 4 4) && s.sharesFit n (uAt r1 12 4) (uAt r1 16 4) &&
  decide ((s.queues.drop 0).length + queues ≤ 4095)

/-- An import completes once its journal records are written (R118, R169). -/
def State.endImport (s : State) (i n : Nat) (out : Bytes) : State :=
  if s.sliceOwes n then s else s.conclude i { Result.bare St.ok with out := out }

def execSliceImport (ctx : Nat) (s : State) : Out :=
  match s.begun ctx 0x0107 with
  | some (_, out) => .next (s.endImport ctx (match s.queues.find (uAt out 0 2) with | some x => x.slice | none => 0) out)
  | none =>
  .next (s.runCore ctx 0x0107 fun c s =>
    if !s.sliceTurn c then s else
    let hdr := c.payload.take 32
    let blob := c.payload.drop 32
    match s.keys.imports.find? fun x => x.id == uAt hdr 0x1C 4 && !x.expired s.now with
    | none => s.refuse ctx St.inputRejected
    | some x =>
      let s := s.touchPeer 0 (uAt blob 8 8)
      match s.openBlob 1 "MAELARN-MIGRATE" x (s.peerKeys 0 (uAt blob 8 8)) blob with
      | none => s.refuse ctx St.inputRejected
      | some body =>
        match splitRecords (body.length / 8 + 1) body with
        | none => s.refuse ctx St.inputRejected
        | some l =>
          let r1 := (recsOf l 1).headD []
          let n := uAt r1 0 2
          if !recordsOk l || n = 0 || decide (1024 < n) then s.refuse ctx St.inputRejected
          else if (s.slices.find n).isSome then s.refuse ctx St.usageDenied
          else if !s.importFits n hdr r1 (recsOf l 2).length then s.refuse ctx St.quota
          else
            let s := s.importSlice n hdr r1 l x.id
            match s.slices.find n with
            | none => s
            | some y =>
              let home := match s.queues.find y.adminQueue with | some q => q.home | none => 0
              let out := le 2 y.adminQueue ++ le 1 home ++ le 5 0
              if c.outLimit < out.length then s.refuse ctx St.outLimit
              else (s.beginWith ctx out).endImport ctx n out)

end Sys2Proof.Machine
end

