-- ==== Sys2Proof/Machine/Lanes.lean ====
section
/-! DEFINITION. The stream lanes of the digest and sealing pipes: what a slab costs, what a lane holds of a stream, and which
lane and mirror a slab takes (R220 to R225, R226, R230, R231, R241). -/

namespace Sys2Proof.Machine

open Sys2Proof

/-! ## Steps of a mode (R221, R226) -/

/-- Octets of one step, steps per tick, and the least octets of padding. -/
structure ModeRow where
  step : Nat
  rate : Nat
  pad : Nat
  deriving DecidableEq, Repr

/-- The row of a digest, MAC or sealing set. -/
def modeRow (p : Nat) : ModeRow :=
  if [0x00300001, 0x00300005, 0x00310001].contains p then ⟨64, 25, 9⟩
  else if [0x00300002, 0x00300003, 0x00300004, 0x00310002, 0x00310003].contains p then ⟨128, 20, 17⟩
  else if p = 0x00300011 then ⟨144, 64, 1⟩
  else if [0x00300012, 0x00310011, 0x00300022, 0x00300032, 0x00310022].contains p then ⟨136, 64, 1⟩
  else if p = 0x00300013 then ⟨104, 64, 1⟩
  else if p = 0x00300014 ∨ p = 0x00310013 then ⟨72, 64, 1⟩
  else if [0x00300021, 0x00300031, 0x00310021].contains p then ⟨168, 64, 1⟩
  else ⟨16, 200, 0⟩

/-- Steps of a whole message of `n` octets with its padding. -/
def ModeRow.blocks (m : ModeRow) (n : Nat) : Nat := ceilDiv (n + m.pad) m.step

/-- What shapes the count of a slab beside its stream bytes. -/
structure SlabCost where
  set : Nat           -- the mode
  pre : Nat           -- octets absorbed before the stream bytes
  setup : Nat         -- steps of the key set-up
  suf : Nat           -- octets appended after them
  out : Nat           -- octets squeezed
  outer : Nat         -- steps of the finalisation and the outer pass
  deriving DecidableEq, Repr

/-- c of a slab with `n` stream bytes after `pos` (R221): a partial block carries over to the next slab. -/
def SlabCost.steps (k : SlabCost) (pos n : Nat) (first final : Bool) : Nat :=
  let m := modeRow k.set
  let part := if first then k.pre else (k.pre + pos) % m.step
  (if first then k.setup else 0) +
  (if final then m.blocks (part + n + k.suf) + (ceilDiv k.out m.step - 1) + k.outer else (part + n) / m.step)

/-- Octets of left_encode or right_encode of a number (SP 800-185): the number's octets and one more. -/
def encodeLen (v : Nat) : Nat := 2 + (if v < 256 then 0 else if v < 65536 then 1 else if v < 16777216 then 2 else 3)

/-- Octets of encode_string of an `n`-octet string. -/
def encodeStringLen (n : Nat) : Nat := encodeLen (8 * n) + n

/-- Octets of bytepad of `n` octets to a rate. -/
def bytepadLen (n rate : Nat) : Nat := ceilDiv (n + 2) rate * rate

/-- Octets that KMAC absorbs before its message (R231). -/
def kmacPre (rate sLen keyLen : Nat) : Nat :=
  bytepadLen (encodeStringLen 4 + encodeStringLen sLen) rate + bytepadLen (encodeStringLen keyLen) rate

/-- Compressions of one whole HMAC (R230). -/
def hmacSteps (m : ModeRow) (keyLen msgLen : Nat) : Nat :=
  (if m.step < keyLen then m.blocks keyLen else 0) + 2 + m.blocks msgLen + 1

/-- Steps of HKDF (R233, RFC 5869): extract, then one HMAC for each block of output. -/
def hkdfSteps (m : ModeRow) (hl ikm salt info len : Nat) (expandOnly : Bool) : Nat :=
  let prk := if expandOnly then ikm else hl
  (if expandOnly then 0 else hmacSteps m (if salt = 0 then hl else salt) ikm) +
  ((List.range (ceilDiv len hl)).map fun i => hmacSteps m prk ((if i = 0 then 0 else hl) + info + 1)).sum

/-- Steps of a KDF command's one slab (R233). -/
def State.kdfSteps (s : State) (c : Ctx) : Nat :=
  let p := s.setOf c
  let m := modeRow p
  let k := (s.secretIn c c.keyA).length
  let b := c.payload
  let la := uAt b 0 2
  let lb := uAt b 2 2
  let n := uAt b 4 2
  match c.opcode with
  | 0x3111 => hkdfSteps m (macLen p) k la lb n (uAt b 6 1 == 1)
  | 0x3112 => ceilDiv n (macLen p) * hmacSteps m k (la + lb + 9)
  | _ => m.blocks (kmacPre 136 la k + lb + encodeLen (8 * n)) + (ceilDiv n 136 - 1)

/-- The hash set of an SLH-DSA set's message passes: SHA-256, SHA-512 or SHAKE256 (FIPS 205). -/
def slhHashSet (p : Nat) : Nat :=
  if p % 2 = 0 then 0x00300022 else if slhN p = 16 then 0x00300001 else 0x00300003

/-- The digest set of a HASH code (R204). -/
def hashSet (h : Nat) : Nat :=
  [0x00300001, 0x00300001, 0x00300002, 0x00300003, 0x00300012, 0x00300013, 0x00300014].getD h 0x00300001

/-- The hash pass that a sheet or engine command needs, `done` passes having been made (R135, R155, R206, R241). -/
def State.serviceCost (s : State) (c : Ctx) (done : Nat) : SlabCost :=
  let p := s.setOf c
  let b := s.headOf c
  let ctxLen := uAt b 2 1
  let n := slhN p
  match c.opcode with
  | 0x1102 => ⟨0x00300022, 66 + ctxLen, 0, 0, 64, 0⟩
  | 0x1103 => ⟨0x00300022, 66 + ctxLen, 0, 0, 64, 0⟩
  | 0x1812 => ⟨0x00300003, 0, 0, 0, 0, 0⟩
  | 0x1813 => ⟨0x00300003, 0, 0, 0, 0, 0⟩
  | 0x1203 => ⟨slhHashSet p, 3 * n + 2 + ctxLen, 0, 0, 0, 0⟩
  | 0x1202 =>
    if done = 0 then
      (if p % 2 = 0 then ⟨0x00300022, 2 * n + 2 + ctxLen, 0, 0, 0, 0⟩ else ⟨slhHashSet p, n + 2 + ctxLen, 2, 0, 0, 1⟩)
    else ⟨slhHashSet p, 3 * n + 2 + ctxLen, 0, 0, 0, 0⟩
  | 0x2004 => if p = 0x00200022 then ⟨0x00300022, 67 + ctxLen, 0, 0, 114, 0⟩ else ⟨0x00300003, 32, 0, 0, 0, 0⟩
  | 0x2005 => if p = 0x00200022 then ⟨0x00300022, 124 + ctxLen, 0, 0, 114, 0⟩ else ⟨0x00300003, 64, 0, 0, 0, 0⟩
  | _ => ⟨hashSet (uAt b 1 1), 0, 0, 0, 0, 0⟩

/-- A stream opened on a kept context (R234). -/
def State.onKept (s : State) (c : Ctx) : Bool :=
  c.stream != 0 && match s.stream c.q c.stream with | some e => e.fromKept | none => false

/-- The shape of the pipe commands' own slabs (R227 to R237); a kept context omits the key set-up. -/
def State.pipeCost (s : State) (c : Ctx) : SlabCost :=
  let p := s.setOf c
  let b := s.headOf c
  let kept := s.onKept c
  let m := modeRow p
  let k := (s.secretIn c c.keyA).length
  match c.opcode with
  | 0x3001 =>
    let nl := uAt b 4 2
    let sl := uAt b 6 2
    ⟨p, if kept || nl + sl == 0 then 0 else bytepadLen (encodeStringLen nl + encodeStringLen sl) m.step, 0, 0, uAt b 0 4, 0⟩
  | 0x3201 => ⟨p, 0, (if kept then 1 else 2) + ceilDiv (uAt b 0 4) 16, 0, 0, 1⟩
  | 0x3202 => ⟨p, 0, (if kept then 1 else 2) + ceilDiv (uAt b 0 4) 16, 0, 0, 1⟩
  | _ =>
    if 0x20 ≤ p % 2 ^ 16 then
      ⟨p, if kept then 0 else kmacPre m.step (uAt b 4 2) k, 0, encodeLen (if uAt b 6 1 = 1 then 0 else 8 * uAt b 0 4),
       uAt b 0 4, 0⟩
    else ⟨p, 0, if kept then 0 else (if m.step < k then m.blocks k else 0) + 2, 0, 0, 1⟩

/-- c of a command's next slab, and the mode that gives its rate. -/
def State.slabSteps (s : State) (c : Ctx) (done : Nat) : Nat × Nat :=
  let final := !c.cont
  if c.opcode = 0x3002 then
    let m := modeRow (s.setOf c)
    ((c.frags.map fun f => m.blocks f.2).sum, s.setOf c)
  else if c.opcode / 256 = 0x31 ∧ 0x3110 ≤ c.opcode then (s.kdfSteps c, s.setOf c)
  else if slabCommand c.opcode then
    ((s.pipeCost c).steps c.pos c.slab c.firstSlab final, s.setOf c)
  else
    let k := s.serviceCost c done
    if s.heldPasses c = 0 then (k.steps c.pos c.slab c.firstSlab final, k.set)
    else (k.steps 0 (s.totalOf c) true true, k.set)

/-- Ticks of a slab without its switch (R221). -/
def slabTicks (steps set : Nat) : Nat := max 1 (ceilDiv steps (modeRow set).rate)

/-- Slabs of a command that have passed. -/
def Ctx.slabsPassed (c : Ctx) : Nat := (c.parts.filter fun p => p.slab && decide (p.phase = .passed)).length

/-! ## What a lane holds of a stream (R220, R223, R230, R231, R241) -/

/-- The selector of the hash of a digest or HMAC set. -/
def setSel (p : Nat) : Nat :=
  match p with
  | 0x00300001 => 256
  | 0x00310001 => 256
  | 0x00300002 => 384
  | 0x00310002 => 384
  | 0x00300003 => 512
  | 0x00310003 => 512
  | 0x00300004 => 512256
  | 0x00300005 => 224
  | 0x00300011 => 3224
  | 0x00300012 => 3256
  | 0x00310011 => 3256
  | 0x00300013 => 3384
  | 0x00300014 => 3512
  | 0x00310013 => 3512
  | _ => 0

/-- The strength of a SHAKE, cSHAKE or KMAC set. -/
def setXof (p : Nat) : Nat := if p % 2 = 1 then 128 else 256

/-- A HMAC set. -/
def hmacSet (p : Nat) : Bool := paramGroup p == 0x31 && decide (p % 2 ^ 16 < 0x20)

/-- The chaining state of a mode after the octets given, with the partial block that it carries. -/
def modeState (set : Nat) (b : Bytes) : Bytes :=
  let m := modeRow set
  let whole := b.take (b.length / m.step * m.step)
  let st := if m.pad = 1 then absorbBlocks spongeBlock m.step (List.replicate 200 0#8) whole
            else absorbBlocks (if m.step = 64 then sha256Block else sha512Block) m.step (sha2Iv (setSel set)) whole
  st ++ b.drop whole.length

/-- The key register of a lane that runs a slab of a command: K0 of an HMAC key, another key as it is, the secret prefix of
an EdDSA signature, SK.prf of the first SLH-DSA pass; empty: the slab takes no key. -/
def State.laneKeyReg (s : State) (c : Ctx) : Bytes :=
  let p := s.setOf c
  let k := s.secretIn c c.keyA
  if c.opcode / 256 = 0x31 then (if hmacSet p then hmacK0 (setSel p) k else k)
  else if c.opcode / 256 = 0x32 then k
  else if c.opcode = 0x2004 then (match curveOf p with | some e => (e.edSecret k).2 | none => [])
  else if c.opcode = 0x1202 ∧ s.heldPasses c ≠ 0 ∧ c.slabsPassed = 0 then bytesAt k (slhN p) (slhN p)
  else []

/-- The stream octets that a command's slabs have absorbed once this packet's are in, or before them. -/
def State.streamBytes (s : State) (c : Ctx) (before : Bool) : Bytes :=
  let all := if c.cont then (match s.stream c.q c.stream with | some e => e.data | none => []) else s.messageOf c
  if s.heldPasses c ≠ 0 then (if before then [] else all) else all.take (c.pos + if before then 0 else c.slab)

/-- opt_rand of a signature whose sheet has not drawn it yet: octets that nothing fixes. -/
def unknownRand (k n : Nat) : Bytes := (List.range n).map (Config.freeByte k)

/-- What a hash pass absorbs before the message (R135, R155, R206). -/
def State.servicePre (s : State) (c : Ctx) : Bytes :=
  let p := s.setOf c
  let b := s.headOf c
  let n := slhN p
  let k := s.secretIn c c.keyA
  let dom := ascii "SigEd448" ++ [0#8, BitVec.ofNat 8 (uAt b 2 1)]
  match c.opcode with
  | 0x1102 => shake256 64 (s.publicOf c.keyA) ++ signedString b 16 []
  | 0x1103 => shake256 64 (s.pkOf c 16 p) ++ signedString b (s.sigOff c p + (setRow p).out) []
  | 0x1203 => (s.sigOf c p).take n ++ s.pkOf c 16 p ++ signedString b (s.sigOff c p + (setRow p).out) []
  | 0x1202 =>
    let rand := if uAt b 3 1 = 0 then unknownRand c.seq n else bytesAt k (2 * n) n
    let first := rand ++ signedString b 16 []
    let prf := bytesAt k n n
    if c.slabsPassed = 0 then (if p % 2 = 0 then prf ++ first else hmacPad (setSel (slhHashSet p)) prf 0x36#8 ++ first)
    else
      let m := first ++ s.messageOf c
      (if p % 2 = 0 then shake256 n (prf ++ m) else (hmac (setSel (slhHashSet p)) prf m).take n) ++ k.drop (2 * n) ++ signedString b 16 []
  | 0x2004 => (if p = 0x00200022 then dom ++ bytesAt b 16 (uAt b 2 1) else []) ++ s.laneKeyReg c
  | 0x2005 =>
    let ctx := bytesAt b (s.sigOff c p + (setRow p).out) (uAt b 2 1)
    (if p = 0x00200022 then dom ++ ctx else []) ++ (s.sigOf c p).take ((setRow p).out / 2) ++ s.pkOf c 16 p
  | _ => []

/-- The context of a command's stream on its lane after these octets: the chaining state of the mode, of HMAC the inner and
the outer one, of AES-256-GCM the subkey, the GHASH value and the octets in part, the IV and the count. The commands of one
slab leave nothing. -/
def State.chainOf (s : State) (c : Ctx) (m : Bytes) : Bytes :=
  let p := s.setOf c
  let b := s.headOf c
  let k := s.secretIn c c.keyA
  if c.opcode = 0x3001 then
    let n := uAt b 4 2
    let l := uAt b 6 2
    let pre := if n + l = 0 then [] else bytepad (encodeString (bytesAt b 16 n) ++ encodeString (bytesAt b (16 + n) l)) (modeRow p).step
    modeState p (pre ++ m)
  else if c.opcode = 0x3101 ∨ c.opcode = 0x3102 then
    if hmacSet p then modeState p (hmacPad (setSel p) k 0x36#8 ++ m) ++ modeState p (hmacPad (setSel p) k 0x5C#8)
    else modeState p (bytepad (encodeString (ascii "KMAC") ++ encodeString (bytesAt b 16 (uAt b 4 2))) (modeRow p).step ++
      kmacKey (setXof p) k ++ m)
  else if c.opcode = 0x3201 ∨ c.opcode = 0x3202 then
    let iv := bytesAt b 4 12
    let ct := if c.opcode = 0x3201 then gcmCrypt k iv m else m
    let x := pad16 (bytesAt b 32 (uAt b 0 4)) ++ ct
    let h := gcmSubkey k
    h ++ ghash h (x.take (x.length / 16 * 16)) ++ x.drop (x.length / 16 * 16) ++ iv ++ le 8 m.length
  else if slabCommand c.opcode then []
  else modeState (s.serviceCost c c.slabsPassed).set (s.servicePre c ++ m)

/-- The lane on which a stream's context is resident. -/
def State.laneOf (s : State) (key : Nat) : Option (Nat × Nat) :=
  s.units.findSome? fun x => (x.2.lanes.find? fun y => y.2.resident == some key).map fun y => (x.1, y.1)

/-- The saved context of a stream is needed on a lane and fails its tag (R223). -/
def State.restoreFails (s : State) (u l key : Nat) (fresh : Bool) : Bool :=
  !fresh && ((s.unitSt u).lane l).resident != some key && (s.laneOf key).isNone &&
  match s.stream (key / 2048) (key % 2048) with
  | some e => (match e.saved with | some x => (x.restore s.keys.ctxKey (key / 2048) (key % 2048)).isNone | none => false)
  | none => false

/-! ## Streams and lanes (R222 to R224) -/

/-- A waiting command has a slab to run. -/
def State.wantsSlab (s : State) (c : Ctx) : Bool :=
  if slabCommand c.opcode then true
  else if s.pipesFirst c then c.slabsPassed == 0
  else !c.cont && decide (c.slabsPassed < s.heldPasses c)

/-- An earlier packet of the stream has a slab that has not reached its completion boundary (R224). -/
def State.slabBehind (s : State) (c : Ctx) : Bool :=
  c.stream != 0 && s.ctxs.vals.any fun d =>
    d.q == c.q && d.stream == c.stream && decide (d.seq < c.seq) && !d.phase.decided &&
    (decide (d.phase = .waiting) || d.parts.any fun p => p.slab &&
      (decide (p.phase = .waiting) || decide (p.phase = .withheld) || (decide (p.phase = .running) && decide (s.now < p.ends))))

/-- A slab part of a launched command that is to run: a rerun, a discarded slab or a slab of its plan. -/
def slabDue (c : Ctx) : Option Nat :=
  if c.drop then none
  else match firstIdx (fun p => p.slab && decide (p.phase = .withheld)) c.parts with
  | some k => some k
  | none => firstIdx (fun p => p.slab && decide (p.phase = .waiting) && p.stage == stageOf c.parts) c.parts

/-- A stream has a slab ready (R222). -/
def State.streamReady (s : State) (k : Nat) : Bool :=
  s.ctxs.any fun p => p.2.laneKey p.1 == k && !p.2.phase.decided && !s.slabBehind p.2 &&
    (if p.2.phase = .waiting then s.wantsSlab p.2 else (slabDue p.2).isSome)

/-- s of R221: the lane must save another context, restore this one, or both. -/
def State.switchTick (s : State) (y : Lane) (key : Nat) (firstSlab : Bool) : Nat :=
  match s.residentKey y with
  | some k => if k = key ∧ !firstSlab then 0 else 1
  | none => if firstSlab then 0 else 1

/-- The place of a free lane in the order of R222: 1 its context is resident there, 2 no context is, 3 the resident
stream has no slab ready, 4 its quantum is used up; none: the lane may not switch. -/
def State.laneRank (s : State) (y : Lane) (key : Nat) (firstSlab : Bool) : Option Nat :=
  match s.residentKey y with
  | none => some 2
  | some k =>
    if k = key then some (if firstSlab && !s.liveLaneKey key then 2 else 1)
    else if !s.streamReady k then some 3
    else if 65536 ≤ y.absorbed then some 4
    else none

/-- The free work lanes that a slab may take in a region, with their rank and last use; a pipe whose benchmark comes
first takes no slab (R54, R225). -/
def State.laneChoices (s : State) (r kind key ticks set : Nat) (firstSlab : Bool) (avoid : Option Nat) :
    List (Nat × Nat × Nat × Nat) :=
  ((kindUnits r kind).filter fun u => s.pipeOpen u && decide (some u ≠ avoid)).flatMap fun u =>
    (List.range 4).filterMap fun l =>
      let y := (s.unitSt u).lane l
      if !s.laneFree y || (s.benchFirst u (ticks + s.switchTick y key firstSlab) set).isSome then none
      else (s.laneRank y key firstSlab).map fun g => (g, y.used, u, l)

/-- The lane named is the one that R222 takes: of the best rank, and the least recently used of rank 3. -/
def placedWell (choices : List (Nat × Nat × Nat × Nat)) (u l : Nat) : Bool :=
  match choices.find? fun x => x.2.2.1 == u && x.2.2.2 == l with
  | none => false
  | some (g, used, _, _) => choices.all fun y => decide (g < y.1) || (decide (g = y.1) && (g != 3 || decide (used ≤ y.2.1)))

/-- A partner pipe with two transients in its window is passed over while another with a free check lane stands by
(R359). -/
def State.mirrorPassed (s : State) (cu u : Nat) : Bool :=
  decide (2 ≤ ((s.unitSt cu).inWindow s.now).length) &&
  (kindUnits (unitRegion cu) (unitKind cu)).any fun v =>
    v != cu && v != u && s.pipeOpen v && decide (((s.unitSt v).inWindow s.now).length < 2) &&
    [4, 5, 6, 7].any fun l => s.laneFree ((s.unitSt v).lane l)

/-- The mirror may run on the check lane named (R18, R224). -/
def State.mirrorOk (s : State) (u cu cl : Nat) : Bool :=
  cu != u && unitRegion cu == unitRegion u && unitKind cu == unitKind u && decide (4 ≤ cl ∧ cl < 8) && s.pipeOpen cu &&
  s.laneFree ((s.unitSt cu).lane cl) && !s.mirrorPassed cu u


/-! ## Freeing lanes -/

/-- Frees the lanes of a slab, unless the stream's next slab has taken them. -/
def State.freeLanes (s : State) (i : Nat) (p : Part) : State :=
  let off := fun y : Lane => if y.busy = some i ∧ y.ends = p.ends then { y with busy := none } else y
  match p.unit, p.checkUnit with
  | some u, some cu => (s.setLane u p.lane off).setLane cu p.checkLane off
  | _, _ => s

/-- Clears a stream's context from every lane: it is saved elsewhere, or discarded. -/
def State.unseat (s : State) (key : Nat) : State :=
  { s with units := s.units.mapVals fun _ x =>
      { x with lanes := x.lanes.mapVals fun _ y => if y.resident = some key then { y with resident := none, key := [], chain := [] } else y } }

/-! ## Saved contexts that are lost (R242, R367) -/

/-- The context of a stream is lost: the packet concerned and those behind it complete ST_ABORTED. -/
def State.loseStream (s : State) (q id : Nat) : State :=
  match s.queues.find q, s.stream q id with
  | some x, some e =>
    let r := e.region.getD x.home
    let s := { s with integ := { s.integ with contextLost := s.integ.contextLost.putD r (satAdd 16 (s.integ.contextLost.getD r 0) 1) 0 } }
    let s := s.raise Ev.strContextLost (Origin.queue q) x.slice id
    if e.st = .kept then s.dropStream q id
    else
      let l := (sortBy ((s.ctxs.filter fun p => !p.2.batch && p.2.q == q && p.2.stream == id && !p.2.phase.decided).map
        fun p => (p.2.seq, p.1))).map Prod.snd
      match l with
      | i :: _ =>
        match s.ctxs.find i with
        | some c =>
          let s := s.unseat (q * 2048 + id)
          let s := c.parts.foldl (fun t p => if p.slab then t.freeLanes i p else t) s
          if c.phase = .waiting then s.refuse i St.aborted else s.failWith i St.aborted
        | none => s
      | [] => s.abortStream q id
  | _, _ => s

end Sys2Proof.Machine
end

