-- ==== Sys2Proof/Machine/Slabs.lean ====
section
/-! DEFINITION. Slabs: their launch with a mirror, their comparison, and what a failed one discards (R221 to R224, R236,
R241, R448). -/

namespace Sys2Proof.Machine

open Sys2Proof

/-! ## A slab on its lanes -/

/-- The operating lane of a slab takes its stream: another context is saved, its own comes from where it is; the lane holds
the key and the state of the slab's end, and the context of its start as checkpoint (R220, R222 to R224). -/
def State.seatStream (s : State) (i u l key ends n : Nat) (c : Ctx) : State :=
  let y := (s.unitSt u).lane l
  let stays := decide (s.residentKey y = some key)
  let s := if stays || (s.residentKey y).isNone then s else s.saveLane u l
  let s := match s.laneOf key with
    | some (v, m) => if v = u ∧ m = l then s else s.saveLane v m
    | none => s
  (s.unseat key).setLane u l fun y =>
    { y with resident := some key, busy := some i, ends := ends, reserved := false, used := s.now
             absorbed := if stays then y.absorbed + n else n
             key := s.laneKeyReg c
             chain := s.chainOf c (s.streamBytes c false)
             checkpoint := y.checkpoint.put i (s.chainOf c (s.streamBytes c true)) }

/-- Puts slab part `p`, which stands at place `k` of its command's list or is new, on work lane `l` of pipe `u` and its
mirror on check lane `cl` of pipe `cu`. -/
def State.placeSlab (s : State) (i u l cu cl key ticks n : Nat) (sw : Nat) (p : Part) (k : Option Nat) : State :=
  match s.ctxs.find i with
  | none => s
  | some c =>
    let r := unitRegion u
    let y := (s.unitSt u).lane l
    let shares := s.takeShares c r
    let q := { p with
      phase := .running
      unit := some u
      lane := l
      checkUnit := some cu
      checkLane := cl
      ends := s.now + ticks
      left := []
      hatched := y.hatchedAt == some (s.now - 1) && decide (0 < s.now) }
    let s := s.seatStream i u l key (s.now + ticks) n { c with shares := shares }
    let s := s.setUnit u fun x => x.takes x.job x.ends p.fam
    let s := s.setUnit cu fun x => x.takes x.job x.ends p.fam
    let s := s.setLane cu cl fun y =>
      { y with resident := none, busy := some i, ends := s.now + ticks, reserved := false, used := s.now }
    let s := { s with integ := { s.integ with switches := s.integ.switches.putD r (satAdd 32 (s.integ.switches.getD r 0) sw) 0 } }
    s.setCtx i fun c =>
      { c with parts := q :: (match k with | some k => c.parts.eraseIdx k | none => c.parts)
               phase := .running, region := r, progress := s.now, result := none, waitFrom := none, shares := shares }

/-- A due benchmark starts on a pipe every lane of which is free (R225). -/
def State.pipeBench (s : State) (u b : Nat) : State :=
  if s.jobFree u && s.lanesFree u && !s.heldBetween u then s.startBench u b false else s

/-- The slab finds its lane and its mirror, or a benchmark starts where one is due, or it waits. A saved context that fails
its tag is lost (R223). `go` does what the launch tests and charges; it gets the ticks and the switch. -/
def State.trySlab (s : State) (i u l cu cl : Nat) (c : Ctx) (p : Part) (base set : Nat) (firstSlab : Bool)
    (go : Nat → Nat → State) : State :=
  let key := c.laneKey i
  let y := (s.unitSt u).lane l
  let sw := s.switchTick y key firstSlab
  let ticks := base + sw
  let avoid := if p.phase = .withheld then p.unit else none
  if !(decide (l < 4) && unitKind u == p.kind && s.pipeOpen u && s.mirrorOk u cu cl) then s
  else match s.benchFirst u ticks set with
    | some b => s.pipeBench u b
    | none =>
      match s.benchFirst cu ticks set with
      | some b => s.pipeBench cu b
      | none =>
        if !placedWell (s.laneChoices (unitRegion u) p.kind key base set firstSlab avoid) u l then s
        else if s.restoreFails u l key firstSlab then s.loseStream c.q c.stream
        else go ticks sw

/-- The slab part of a pipe command or of a hash pass. -/
def slabPart (kind set : Nat) : Part := { mkPart kind 0 set 0 0 0 0 with slab := true }

/-- The kind of pipe that a command's slabs take. -/
def slabKind (op : Nat) : Nat := if op = 0x3201 ∨ op = 0x3202 then 3 else 2

/-- SEAL with IV_MODE 0 draws its IV at the first slab (R236). -/
def State.drawsIv (s : State) (c : Ctx) : Bool :=
  c.opcode == 0x3201 && c.firstSlab && uAt (s.headOf c) 0x10 1 == 0

/-- Writes the drawn IV into a seal header. -/
def withIv (b iv : Bytes) : Bytes := b.take 4 ++ iv ++ b.drop 16

/-- Draws the IV and counts it in the key's slot record. -/
def State.takeIv (s : State) (i : Nat) (c : Ctx) (r : Nat) : State :=
  if !s.drawsIv c then s
  else
    let (iv, s) := s.drawFrom r 12
    let s := s.setSlot c.keyA fun x => { x with policy := { x.policy with counter := x.policy.counter + 1 } }
    let s := s.setStream c.q c.stream fun e => { e with head := withIv e.head iv }
    s.setCtx i fun c => { c with payload := if c.payload.isEmpty then [] else withIv c.payload iv }

/-- The tests of a pipe command's first slab: key and quota once (R448), the IV count (R236), the slot (R143). -/
def State.slabGate (s : State) (i : Nat) (c : Ctx) : Gate :=
  if !c.firstSlab then .passed s
  else match s.keyTests c with
    | .error st => .refused st
    | .ok t =>
      if s.drawsIv c && decide (2 ^ 32 ≤ (s.polA c).counter) then .refused St.quota
      else match t.reserveFor i c with
        | none => .refused St.quota
        | some t => .passed t

/-- The region of a stream's slabs: that of its last one while it takes such work (R222). -/
def State.slabHome (s : State) (c : Ctx) (r kind : Nat) : Bool :=
  let last := match s.stream c.q c.stream with | some e => e.region | none => none
  match (if c.slabsPassed = 0 then last else some c.region) with
  | some b => decide (b = r) || !s.meetsR19 b kind
  | none => true

/-- The stream has been charged, and its context lies in this region. -/
def State.markStream (s : State) (i : Nat) (c : Ctx) (r : Nat) : State :=
  (s.setStream c.q c.stream fun e => { e with charged := true, region := some r }).markLaunch i

/-- The first launch of a pipe command's slab. The IV is drawn at the boundary at which the slab launches (R282). -/
def State.pipeSlab (s : State) (i u l cu cl : Nat) (c : Ctx) : State :=
  let kind := slabKind c.opcode
  let r := unitRegion u
  if !s.anyR19 kind then s.refuse i St.unitFault
  else if s.drawsIv c && decide (s.drawState r = .failed) then s.refuse i St.entropyFailed
  else if !s.slabHome c r kind || !s.meetsR19 r kind || !s.keysReady c r then s
  else
    let (steps, set) := s.slabSteps c 0
    s.trySlab i u l cu cl c (slabPart kind set) (slabTicks steps set) set (c.firstSlab && !s.onKept c) fun ticks sw =>
      if s.drawsIv c && decide (s.drawState r = .waits) then s.awaitDraw i
      else match s.slabGate i c with
        | .refused st => s.refuse i st
        | .waits => s
        | .passed t =>
          ((t.markStream i c r).takeIv i c r).placeSlab i u l cu cl (c.laneKey i) ticks c.slab sw (slabPart kind set) none

/-- A hash pass of a sheet or engine command (R241), in the launching region. -/
def State.serviceSlab (s : State) (i u l cu cl : Nat) (c : Ctx) : State :=
  let r := unitRegion u
  let held := s.heldPasses c != 0
  if !s.anyR19 2 then s.refuse i St.unitFault
  else if !s.slabHome c r 2 || !s.meetsR19 r 2 || !(!held || s.keysReady c r) then s
  else
    let (steps, set) := s.slabSteps c c.slabsPassed
    s.trySlab i u l cu cl c (slabPart 2 set) (slabTicks steps set) set (c.firstSlab || held) fun ticks sw =>
      (s.markStream i c r).placeSlab i u l cu cl (c.laneKey i) ticks (if held then s.totalOf c else c.slab) sw (slabPart 2 set)
        none

/-- A slab of a launched command: a rerun on another pipe, a slab discarded with an earlier one, or a slab of a
key-store command's plan (R224, R270). -/
def State.againSlab (s : State) (i u l cu cl : Nat) (c : Ctx) : State :=
  match slabDue c with
  | none => s
  | some k =>
    match c.parts[k]? with
    | none => s
    | some p =>
      let r := unitRegion u
      let planned := p.ticks ≠ 0
      let again := decide (p.phase = .withheld)
      let (steps, set) := if planned then (0, p.fam) else s.slabSteps c c.slabsPassed
      let base := if planned then p.ticks else slabTicks steps set
      let first := planned || s.heldPasses c != 0 || (c.firstSlab && !s.onKept c)
      if !s.anyR19 p.kind then s.failWith i St.unitFault
      else if p.draws ≠ 0 ∧ s.drawState r = .failed then s.failWith i St.entropyFailed
      else if s.slabBehind c || !s.meetsR19 r p.kind || (decide (r ≠ c.region) && s.meetsR19 c.region p.kind) ||
          !s.keysReady c r || (again && p.unit == some u) then s
      else
        let q := { p with retries := if again then p.retries + 1 else p.retries, draw := s.free }
        s.trySlab i u l cu cl c q base set first fun ticks sw =>
          if p.draws ≠ 0 ∧ s.drawState r = .waits then s.awaitDraw i
          else
            let t := if p.draws = 0 then s else (s.drawFrom r p.draws).2
            t.placeSlab i u l cu cl (c.laneKey i) ticks (if planned then 0 else c.slab) sw q (some k)

/-- A slab of a command may launch at this boundary, for what the command itself has to say (R221, R243). -/
def State.slabReady (s : State) (c : Ctx) : Bool :=
  !s.slabBehind c &&
  (match c.phase with
   | .waiting => s.ripeAny c && s.wantsSlab c
   | .running => s.serving && !s.unsettled && (slabDue c).isSome
   | _ => false)

/-- What SLAB_LAUNCH does with a command, whoever's turn it is. -/
def State.slabOn (s : State) (i u l cu cl : Nat) : State :=
  match s.ctxs.find i with
  | none => s
  | some c =>
    if c.phase = .waiting then
      if !s.ripeAny c || !s.wantsSlab c || s.slabBehind c then s
      else match s.deadlineTest c with
        | some st => s.refuse i st
        | none => if slabCommand c.opcode then s.pipeSlab i u l cu cl c else s.serviceSlab i u l cu cl c
    else if c.phase = .running && s.serving && !s.unsettled then s.againSlab i u l cu cl c
    else s

/-! ## SLAB_COMPLETE -/

/-- A slab of the stream that launched before has not been compared: its comparison comes first (R224). -/
def State.compareBehind (s : State) (c : Ctx) : Bool :=
  c.stream != 0 && s.ctxs.vals.any fun d =>
    d.q == c.q && d.stream == c.stream && decide (d.seq < c.seq) && !d.phase.decided &&
    d.parts.any fun p => p.slab && decide (p.phase ≠ .passed)

/-- The later slabs of a stream are discarded with a failed one; they launch again after its rerun (R224). -/
def State.discardLater (s : State) (c : Ctx) : State :=
  if c.stream = 0 then s
  else { s with ctxs := s.ctxs.mapVals fun _ d =>
    if d.q == c.q && d.stream == c.stream && decide (c.seq < d.seq) && decide (d.phase = .running) then
      { d with result := none, parts := d.parts.map fun p => if p.slab then { p with phase := .waiting } else p }
    else d }

/-- A compared slab gives up its checkpoint. -/
def State.dropCheckpoint (s : State) (i u l : Nat) : State :=
  s.setLane u l fun y => { y with checkpoint := y.checkpoint.drop i }

/-- A slab is discarded with the later ones of its stream: the stream's context is the checkpoint again (R224). -/
def State.toCheckpoint (s : State) (i u l : Nat) (c : Ctx) : State :=
  let y := (s.unitSt u).lane l
  let s := s.unseat (c.laneKey i)
  let s := s.setLane u l fun z => { z with resident := some (c.laneKey i), key := s.laneKeyReg c, chain := y.checkpoint.getD i [] }
  ((s.saveLane u l).dropCheckpoint i u l).discardLater c

/-- A failed comparison charges both pipes and counts; the rerun starts from the checkpoint (R224, R243, R358). -/
def State.mirrorFailed (s : State) (i k u l cu : Nat) (c : Ctx) : State :=
  let r := unitRegion u
  let s := (s.charge u 1).charge cu 1
  let s := { s with integ := { s.integ with mirrorFail := s.integ.mirrorFail.putD r (satAdd 16 (s.integ.mirrorFail.getD r 0) 1) 0 } }
  (s.toCheckpoint i u l c).withhold i k

/-- The comparison of a slab ends in the tick after its last, after those of the stream's earlier slabs (R224); `ok`: the
two digests agree. -/
def execSlabComplete (ctx : Nat) (ok : Bool) (s : State) : Out :=
  match s.ctxs.find ctx with
  | none => .next s
  | some c =>
    if c.phase ≠ .running || s.compareBehind c then .next s
    else match firstIdx (fun p => p.slab && decide (p.phase = .running) && decide (p.ends + 1 ≤ s.now)) c.parts with
      | none => .next s
      | some k =>
        match c.parts[k]? with
        | none => .next s
        | some p =>
          let s := s.freeLanes ctx p
          match p.unit, p.checkUnit with
          | some u, some cu =>
            if ok then
              .next (((s.dropCheckpoint ctx u p.lane).setCtx ctx fun c =>
                { c with parts := c.parts.set k { p with phase := .passed }, progress := s.now }).settle ctx)
            else .next (s.mirrorFailed ctx k u p.lane cu c)
          | _, _ => .next s

end Sys2Proof.Machine
end

