-- ==== Sys2Proof/Machine/Stream.lean ====
section
/-! DEFINITION. The commands of the digest and sealing pipes: groups 0x30 to 0x32 (R226 to R240). -/

namespace Sys2Proof.Machine

open Sys2Proof

/-! ## Digests (R227, R228) -/

/-- A digest of a set of group 0x30 on a message; `n` octets of an extendable output. cSHAKE with empty strings is
SHAKE (SP 800-185). -/
def digestOf (p : Nat) (m : Bytes) (n : Nat) (name custom : Bytes) : Bytes :=
  if p % 2 ^ 16 < 0x20 then digest (setSel p) m
  else if p % 2 ^ 16 < 0x30 ∨ (name = [] ∧ custom = []) then shake (setXof p) n m
  else cshake (setXof p) n m name custom

def execDigest (ctx : Nat) (s : State) : Out :=
  .next (s.compute ctx 0x3001 fun c s =>
    let b := s.headOf c
    let nl := uAt b 4 2
    Result.output (digestOf (s.setOf c) (s.messageOf c) (uAt b 0 4) (bytesAt b 16 nl) (bytesAt b (16 + nl) (uAt b 6 2))))

def execDigestBatch (ctx : Nat) (s : State) : Out :=
  .next (s.compute ctx 0x3002 fun c s =>
    Result.output ((c.frags.map fun f => digestOf (s.setOf c) (bytesAt c.payload f.1 f.2) 0 [] []).flatten))

/-! ## Keyed digests (R229 to R232) -/

/-- HMAC truncated to its leftmost octets, or KMAC. -/
def macOf (p : Nat) (key m custom : Bytes) (n : Nat) (xof : Bool) : Bytes :=
  if hmacSet p then (hmac (setSel p) key m).take n else kmac (setXof p) n key m custom xof

/-- The tag of a MAC command's message. -/
def State.tagOf (s : State) (c : Ctx) : Bytes :=
  let b := s.headOf c
  macOf (s.setOf c) (s.secretIn c c.keyA) (s.messageOf c) (bytesAt b 16 (uAt b 4 2)) (uAt b 0 4) (uAt b 6 1 == 1)

def execMac (ctx : Nat) (s : State) : Out :=
  .next (s.compute ctx 0x3101 fun c s => Result.output (s.tagOf c))

def execMacVerify (ctx : Nat) (s : State) : Out :=
  .next (s.compute ctx 0x3102 fun c s =>
    let b := s.headOf c
    Result.verdict (s.tagOf c == bytesAt b (16 + uAt b 4 2) (uAt b 0 4)))

/-! ## Derivations (R233) -/

/-- The deposit of a derived key: SHARED where the input key is (R258). `f` takes the length, the input key and the two
fields of the header. -/
def State.derived (s : State) (c : Ctx) (f : Nat → Bytes → Bytes → Bytes → Bytes) : Result :=
  let b := c.payload
  let a := uAt b 0 2
  s.childResult c (f (uAt b 4 2) (s.secretIn c c.keyA) (bytesAt b 16 a) (bytesAt b (16 + a) (uAt b 2 2))) (s.polA c).shared []

def execKdfHkdf (ctx : Nat) (s : State) : Out :=
  .next (s.compute ctx 0x3111 fun c s => s.derived c fun n key salt info =>
    hkdf (setSel (s.setOf c)) n key salt info (bitOf (uAt c.payload 6 1) 0))

def execKdfCounter (ctx : Nat) (s : State) : Out :=
  .next (s.compute ctx 0x3112 fun c s => s.derived c (kdfCounter (setSel (s.setOf c))))

def execKdfKmac (ctx : Nat) (s : State) : Out :=
  .next (s.compute ctx 0x3113 fun c s => s.derived c kdfKmac)

/-! ## Sealing (R235 to R237) -/

/-- SEAL answers the IV, the ciphertext and the tag. -/
def execSeal (ctx : Nat) (s : State) : Out :=
  .next (s.compute ctx 0x3201 fun c s =>
    let b := s.headOf c
    let iv := bytesAt b 4 12
    Result.output (iv ++ gcmSeal (s.secretIn c c.keyA) iv (bytesAt b 32 (uAt b 0 4)) (s.messageOf c)))

/-- OPEN releases the plaintext only when its tag matches. -/
def execOpenSeal (ctx : Nat) (s : State) : Out :=
  .next (s.compute ctx 0x3202 fun c s =>
    let b := s.headOf c
    match gcmOpen (s.secretIn c c.keyA) (bytesAt b 4 12) (bytesAt b 32 (uAt b 0 4)) (s.messageOf c) (bytesAt b 16 16) with
    | some m => Result.output m
    | none => Result.bare St.inputRejected)

/-! ## Key wrap (R238, R239) -/

/-- A set of KW; the other one is KWP (R238). -/
def kwSet (p : Nat) : Bool := p == 0x00320002

def execWrap (ctx : Nat) (s : State) : Out :=
  .next (s.compute ctx 0x3203 fun c s =>
    let q := s.policyOfKey c.keyB
    let inner := q.bytes ++ s.secretIn c c.keyB
    let kek := s.secretIn c c.keyA
    Result.output (le 4 1 ++ le 4 q.param ++ le 4 inner.length ++ le 4 0 ++
      (if kwSet (s.setOf c) then kwWrap kek inner else kwpWrap kek inner)))

/-- UNWRAP deposits the recovered key under KEY_B with its policy narrowed (R239, R268, R269). -/
def execUnwrap (ctx : Nat) (s : State) : Out :=
  .next (s.compute ctx 0x3204 fun c s =>
    let b := c.payload
    let kek := s.secretIn c c.keyA
    match (if kwSet (s.setOf c) then kwUnwrap kek (b.drop 16) else kwpUnwrap kek (b.drop 16)) with
    | none => Result.bare St.inputRejected
    | some inner =>
      if uAt b 0 4 ≠ 1 ∨ uAt b 8 4 ≠ inner.length then Result.bare St.inputRejected
      else match enteringKey s inner (s.policyOfKey c.keyB) (s.polA c).shared with
        | some (p, m, pub) => Result.deposits c.maskOf p m pub []
        | none => Result.bare St.inputRejected)

end Sys2Proof.Machine
end

