-- ==== Sys2Proof/Machine/Faults.lean ====
section
/-! DEFINITION. What a fault does to the work in hand: the abandonment of a unit's operations, retirement, region-core
faults and the loss of saved contexts (R218, R242, R341, R357 to R366, R383). -/

namespace Sys2Proof.Machine

open Sys2Proof

/-! ## Clearing and abandonment -/

/-- An abort reaches a unit: its secrets are cleared in that cycle; an engine's OPS stay (R218, R341). -/
def State.clearUnit (s : State) (u : Nat) : State :=
  let s := s.endUnit u
  if unitKind u = 1 then
    { s with engines := s.engines.modify (4 * unitRegion u + unitIndex u) fun e =>
        { EngineSt.reset with doneTick := e.doneTick, ops := e.ops } }
  else s

/-- Frees a unit whose job belongs to a command. -/
def State.dropJob (s : State) (u i : Nat) : State :=
  if (s.unitSt u).job = .op i ∨ (s.unitSt u).job = .check i then s.clearUnit u else s

/-- The lanes that a command's engine operation reserves are free again (R206). -/
def State.dropReserved (s : State) (i : Nat) : State :=
  { s with units := s.units.mapVals fun _ x =>
      { x with lanes := x.lanes.mapVals fun _ y =>
          if y.reserved ∧ y.busy = some i then { y with busy := none, reserved := false } else y } }

/-- Part `k` of command `i` is abandoned where `f` holds of it: its units and lanes are freed, and it is rerun
(R360). -/
def State.abandonPart (f : Part → Bool) (i : Nat) (s : State) (k : Nat) : State :=
  match s.ctxs.find i with
  | none => s
  | some c =>
    match c.parts[k]? with
    | none => s
    | some p =>
      if c.phase ≠ .running || !f p then s
      else
        let s := if p.slab then (s.freeLanes i p).toCheckpoint i (p.unit.getD 0) p.lane c
                 else ([p.unit, p.checkUnit].filterMap id).foldl (fun t u => t.dropJob u i) (s.dropReserved i)
        s.withhold i k

/-- Every part for which `f` holds is abandoned. -/
def State.abandon (s : State) (f : Part → Bool) : State :=
  s.ctxs.foldl (fun t p => (List.range p.2.parts.length).foldl (State.abandonPart f p.1) t) s

/-- A part has been launched and not released: its unit or check unit is `u` (R360). -/
def Part.onUnit (u : Nat) (p : Part) : Bool :=
  (p.unit == some u || p.checkUnit == some u) &&
  (if p.slab then decide (p.phase = .running)
   else decide (p.phase ≠ .waiting) && decide (p.phase ≠ .withheld))

/-- A part works on unit `u` now. -/
def Part.worksOn (u : Nat) (p : Part) : Bool :=
  if p.slab then (p.unit == some u || p.checkUnit == some u) && decide (p.phase = .running)
  else match p.checkUnit with
    | some v => v == u && (decide (p.phase = .checking) || decide (p.phase = .between))
    | none => p.unit == some u && (decide (p.phase = .running) || decide (p.phase = .between))

/-- Preparations and tree batches on a unit end; the commands that need them start them anew. -/
def State.dropBuilds (s : State) (u : Nat) : State :=
  let on := fun b : Build => b.unit == u || b.check == some u
  let lost := (s.keys.preps ++ s.stateful.builds).filter on
  let s := lost.foldl (fun t b => ([some b.unit, b.check].filterMap id).foldl (fun t v =>
    match (t.unitSt v).job with
    | .prepare h _ => if h = b.id then t.clearUnit v else t
    | .treeBatch n _ => if n = b.id then t.clearUnit v else t
    | _ => t) t) s
  { s with
    keys := { s.keys with preps := s.keys.preps.filter fun b => !on b }
    stateful := { s.stateful with builds := s.stateful.builds.filter fun b => !on b } }

/-- A lane of unit `u` is reserved for an engine's operation. -/
def State.reservedFor (s : State) (u : Nat) : List Nat :=
  ((s.unitSt u).lanes.vals.filter Lane.reserved).filterMap Lane.busy

/-- Everything on a unit is aborted with the clearing; `f` says which parts are rerun (R345, R348, R358, R363). -/
def State.abortUnit (s : State) (u : Nat) (f : Part → Bool) : State :=
  let held := s.reservedFor u
  let s := (s.abandon f).dropBuilds u
  let s := held.foldl (fun t i => match t.ctxs.find i with
    | some c => (List.range c.parts.length).foldl (State.abandonPart (fun p => !p.slab && decide (p.phase = .running)) i) t
    | none => t) s
  s.clearUnit u

/-- The unit works on something that a fault can abort. -/
def State.busyUnit (s : State) (u : Nat) : Bool :=
  decide ((s.unitSt u).job ≠ .idle) && !s.jobFree u || !s.lanesFree u

/-! ## Retirement of a unit (R363, R364, R366) -/

/-- The log entry of a retirement (R364). -/
def State.retireEntry (s : State) (unit region cause : Nat) : RetireLog :=
  { unit, region, cause, opSeconds := s.log.opSeconds, cycles := s.log.powerCycles,
    v := if s.trusted then s.datum.v else 0 }

/-- INT_DEGRADED is raised when DEGRADED sets (R366). -/
def State.degradeTest (s : State) : State :=
  if s.sheetsWorking < 16 ∧ !s.integ.degraded then
    ({ s with integ := { s.integ with degraded := true } }).raise Ev.intDegraded Origin.atlas s.sheetsWorking
  else s

/-- The unit leaves the graticule for good. -/
def State.retireUnit (s : State) (u cause : Nat) : State :=
  if (s.unitSt u).retired then s
  else
    let s := s.abortUnit u (Part.onUnit u)
    let s := (List.range 4).foldl (fun t l => t.saveLane u l) s
    let s := s.setUnit u fun x => { x with retired := true, mode := .inService, job := .idle, lanes := [], needBench := false }
    let s := { s with integ := { s.integ with mapQueue := s.integ.mapQueue ++ [s.retireEntry (unitId u) (unitRegion u) cause] } }
    (s.raise Ev.intRetired (Origin.unit u) cause).degradeTest

/-! ## Retirement of a region (R365, R366, R383) -/

/-- A released key that a command deposited goes back to its reservation: the rerun deposits it again. -/
def State.takeBack (s : State) (i : Nat) (c : Ctx) : State :=
  match c.result with
  | none => s
  | some r =>
    if !s.deposits c.opcode || decide (r.status ≠ St.ok) || c.reserved.isSome then s
    else
      let h := uAt r.out 0 8
      (s.setSlot h fun x => { x with st := .reserved, sealed := Vault.none, extent := none, pub := [] }).setCtx i fun c => { c with reserved := some h }

/-- A decided command that the writer has not taken runs again where its unit parts ran in the region (R365, action 3);
slabs that have passed are the checkpoint from which their stream resumes (R365, action 4). -/
def State.recall (s : State) (r i : Nat) : State :=
  match s.ctxs.find i with
  | none => s
  | some c =>
    let ran := c.parts.any fun p => !p.slab && match p.unit with | some u => unitRegion u == r | none => false
    if c.region ≠ r ∨ !c.phase.decided ∨ c.phase = .writing then s
    else if ran then
      let s := (s.takeBack i c).setCtx i fun c => { c with phase := .running, result := none }
      let f := fun p : Part => !p.slab && match p.unit with | some u => unitRegion u == r | none => false
      (List.range c.parts.length).foldl (State.abandonPart f i) s
    else s.setCtx i fun c => { c with phase := .finished }

/-- A context moves to its queue's home region, or to region `r`. -/
def State.moveCtx (s : State) (from' : Nat) (i : Nat) : State :=
  s.setCtx i fun c =>
    if c.region = from' then { c with region := match s.queues.find c.q with | some x => x.home | none => c.region } else c

/-- A queue of the region gets a new home (R20). -/
def State.moveHome (r : Nat) (s : State) (q : Nat) : State :=
  match s.queues.find q with
  | none => s
  | some x =>
    if x.home ≠ r then s
    else
      let (home, s) := s.assignHome
      s.setQueue q fun x => { x with home := home }

/-- The internal sources of a retired region's core: what was active becomes pending (R383). -/
def State.moveSources (s : State) (r : Nat) : State :=
  { s with events := { s.events with routes := s.events.routes.mapVals fun _ x =>
      if x.active ∧ x.activeOn = 1 + r then { x with active := false, pending := true } else x } }

/-- The actions of R365 in order. -/
def State.retireRegion (s : State) (r reason : Nat) : State :=
  let decided := s.ctxs.keys
  let s := (List.range 26).foldl (fun t k => t.retireUnit (26 * r + k) 5) s
  let s := { s with
    integ := { s.integ with regions := s.integ.regions ++ [r], due := s.integ.due.drop r
                            mapQueue := s.integ.mapQueue ++ [s.retireEntry 0xFF r 6] }
    keys := { s.keys with resident := s.keys.resident.drop r } }
  let s := decided.foldl (fun t i => t.recall r i) s
  let s := { s with collectors := s.collectors.drop r }
  let s := { s with queues := s.queues.mapVals fun _ x =>
    { x with streams := x.streams.mapVals fun _ e => if e.region = some r then { e with region := none } else e } }
  let s := s.queues.keys.foldl (State.moveHome r) s
  let s := decided.foldl (fun t i => t.moveCtx r i) s
  let s := (s.moveSources r).raise Ev.intRegionRetired (Origin.region r) reason
  let s := s.degradeTest
  if s.integ.regions.length == 4 then s.alarm 5 0x60 else s

/-! ## The streams of the device (R26) -/

/-- The `n`-th of the streams that hold a context, in the order of their queues and numbers. -/
def State.nthStream (s : State) (n : Nat) : Option (Nat × Nat) :=
  (s.queues.flatMap fun p => (p.2.streams.filter fun e => decide (e.2.st ≠ .aborted)).map fun e => (p.1, e.1))[n]?

end Sys2Proof.Machine
end

