-- ==== Sys2Proof/Machine/Recorder.lean ====
section
/-! DEFINITION. The event recorder: records, repeats, the write budget and the ways of reading the log (R385 to
R391). -/

namespace Sys2Proof.Machine

open Sys2Proof

/-- Two events merge (R386). -/
def EvRec.same (a b : EvRec) : Bool :=
  a.code == b.code && a.origin == b.origin && a.p0 == b.p0 && a.p1 == b.p1 && a.p2 == b.p2 && a.p3 == b.p3

/-- The newest record. -/
def Recorder.newest (l : Recorder) : Option EvRec :=
  if l.total = 0 then none else l.circ.find ((l.total - 1) % 4096)

/-- The newest record takes a value, in both areas (R387). -/
def Recorder.putNewest (l : Recorder) (r : EvRec) : Recorder :=
  { l with circ := l.circ.put ((l.total - 1) % 4096) r
           kept := if l.total ≤ 256 then l.kept.put (l.total - 1) r else l.kept }

/-- The newest record merges one more occurrence, in both areas; the increment is not in eMRAM yet (R386). -/
def Recorder.merge (l : Recorder) (r : EvRec) (now : Nat) : Recorder :=
  { l.putNewest { r with repeats := satAdd 32 r.repeats 1 } with
    repeatFrom := some (l.repeatFrom.getD now)
    unwritten := l.unwritten + (satAdd 32 r.repeats 1 - r.repeats) }

/-- What eMRAM holds: the newest record without the increments that have not been written (R386). -/
def Recorder.stored (l : Recorder) : Recorder :=
  if l.unwritten = 0 then l
  else match l.newest with
    | some r => { l.putNewest { r with repeats := r.repeats - l.unwritten } with unwritten := 0, repeatFrom := none }
    | none => l

/-- A word of two records has failed its ECC: both read as CODE 0xFFFF and zeros (R389). Words of area 0 are the kept
area's, of any other the circulating area's. -/
def Recorder.spoilWord (l : Recorder) (area w : Nat) : Recorder :=
  let r : EvRec := { code := 0xFFFF, origin := 0, severity := 0, opSeconds := 0, cycles := 0, repeats := 0, p0 := 0, p1 := 0
                     p2 := 0, p3 := 0 }
  if area = 0 then { l with kept := (l.kept.put (2 * (w % 128)) r).put (2 * (w % 128) + 1) r }
  else { l with circ := (l.circ.put (2 * (w % 2048)) r).put (2 * (w % 2048) + 1) r }

/-- Writes a new record (R387). -/
def Recorder.append (l : Recorder) (r : EvRec) (now : Nat) : Recorder :=
  { l with circ := l.circ.put (l.total % 4096) r
           kept := if l.total < 256 then l.kept.put l.total r else l.kept
           total := l.total + 1, repeatFrom := none, unwritten := 0
           writes := l.writes ++ [now] }

/-- The new records of the last second (R388). -/
def Recorder.recent (l : Recorder) (now : Nat) : List Nat := l.writes.filter fun b => decide (now < b + 1000000)

/-- The record that tells of dropped events (R388). -/
def overflowRec (s : State) : EvRec :=
  { code := Ev.logOverflow, origin := Origin.atlas, severity := 2, opSeconds := s.log.opSeconds,
    cycles := s.log.powerCycles, repeats := 0, p0 := s.log.overflow, p1 := 0, p2 := 0, p3 := 0 }

/-- The oldest detected event reaches eMRAM: it merges, is written, or is dropped when the budget of 256 new records
a second is spent (R385 to R388). After a drop, LOG_OVERFLOW is written first once the budget allows. -/
def execEventRecordWrite (s : State) : Out :=
  if !s.start.vddGood then .next s
  else match s.log.queue with
    | [] => .next s
    | r :: rest =>
      let l := { s.log with writes := s.log.recent s.now }
      match l.newest with
      | some n =>
        if n.same r then .next { s with log := { l.merge n s.now with queue := rest } }
        else if decide (256 ≤ l.writes.length) && r.severity != 4 then
          .next { s with log := { l with queue := rest, dropped := satAdd 32 l.dropped 1, overflow := l.overflow + 1 } }
        else if decide (0 < l.overflow) && decide (l.writes.length < 256) then
          let s := ({ s with log := { l.append (overflowRec s) s.now with overflow := 0 } })
          .next (s.postClass Ev.logOverflow)
        else .next { s with log := { l.append r s.now with queue := rest } }
      | none => .next { s with log := { l.append r s.now with queue := rest } }

/-- A pending REPEAT is written 10 s after its first unwritten increment (R386). -/
def execRepeatFlush (s : State) : Out :=
  match s.log.repeatFrom with
  | some b =>
    if b + 10000000 ≤ s.now then .next { s with log := { s.log with repeatFrom := none, unwritten := 0 } } else .next s
  | none => .next s

/-- OP_SECONDS is persisted every 60 s (R385). -/
def execOpSecondsPersist (s : State) : Out :=
  if s.log.persisted + 60 ≤ s.log.opSeconds then
    .next { s with log := { s.log with persisted := s.log.opSeconds } }
  else .next s

/-- The 32 bytes of a record (R385). -/
def EvRec.bytes (r : EvRec) : Bytes :=
  le 2 r.code ++ le 2 (r.origin + r.severity * 2 ^ 13) ++ le 4 r.opSeconds ++ le 4 r.cycles ++ le 4 r.repeats ++
  le 4 r.p0 ++ le 4 r.p1 ++ le 4 r.p2 ++ le 4 r.p3

/-- The bytes of an area's record at an ordinal; an empty record is 32 zero bytes. -/
def Recorder.at (l : Recorder) (area k : Nat) : Bytes :=
  match (if area = 0 then l.kept.find k else l.circ.find (k % 4096)) with
  | some r => r.bytes
  | none => List.replicate 32 0

/-- Kept records in use. -/
def Recorder.keptCount (l : Recorder) : Nat := min l.total 256

/-- The header and records of LOG_READ and LOG_GET (R390). -/
def Recorder.read (l : Recorder) (area start count : Nat) : Bytes :=
  let first := if area = 0 then start else max start (l.total - 4096)
  let stop := if area = 0 then l.keptCount else l.total
  let n := min count (stop - first)
  le 8 first ++ le 4 n ++ le 4 0 ++ le 8 l.total ++ le 8 l.keptCount ++
  ((List.range n).map fun i => l.at area (first + i)).flatten

/-- LOG_READ (R390). -/
def execLogRead (ctx : Nat) (s : State) : Out :=
  .next (s.runCore ctx 0x0130 fun c s => s.answer ctx (s.log.read (uAt c.payload 0 1) (uAt c.payload 8 8) (uAt c.payload 4 4)))

/-- The log is served over SMBus from the moment the chief core has started, in every state (R391). -/
def execLogInfo (s : State) : Out :=
  if !s.started then .next s
  else .next (s.smbAnswer St.ok (le 8 0 ++ le 4 0 ++ le 4 0 ++ le 8 s.log.total ++ le 8 s.log.keptCount))

/-- LOG_GET, with COUNT from 1 to 8 (R391). -/
def execLogGet (area start count : Nat) (s : State) : Out :=
  if !s.started then .next s
  else if area ≤ 1 ∧ 1 ≤ count ∧ count ≤ 8 ∧ (area = 1 ∨ start ≤ 255) then
    .next (s.smbAnswer St.ok (s.log.read area start count))
  else .next (s.smbAnswer St.malformed)

end Sys2Proof.Machine
end

