-- ==== Sys2Proof/Machine/RetireMap.lean ====
section
/-! DEFINITION. The octets of the retirement map: what an update writes into each of its two copies, and what a start reads
back (R29, R364). -/

namespace Sys2Proof.Machine

open Sys2Proof

/-- The 32 octets of a log entry (R364). -/
def RetireLog.bytes (x : RetireLog) : Bytes :=
  le 1 x.unit ++ le 1 x.region ++ le 1 x.cause ++ le 1 0 ++ le 4 x.opSeconds ++ le 4 x.cycles ++ le 4 0 ++ le 8 x.v ++ le 8 0

/-- The log entry of 32 octets. -/
def retireLogOf (b : Bytes) : RetireLog :=
  { unit := uAt b 0 1, region := uAt b 1 1, cause := uAt b 2 1, opSeconds := uAt b 4 4, cycles := uAt b 8 4, v := uAt b 16 8 }

/-- The bits of UNITS: 26 times the region plus the region ordinal, which is the unit's number (R23, R364). -/
def State.unitBits (s : State) : Nat := (((List.range 104).filter fun u => (s.unitSt u).retired).map (2 ^ ·)).sum

/-- A copy of the map with a sequence number and a log. -/
def State.mapCopy (s : State) (seq : Nat) (log : List RetireLog) : Bytes :=
  let l := log.take 124
  let b := le 4 1 ++ le 4 seq ++ le 4 l.length ++ le 4 0 ++ le 16 s.unitBits ++
    le 1 ((List.range 4).map fun r => if s.regionRetired r then 2 ^ r else 0).sum ++ le 31 0 ++
    fit (124 * 32) (l.flatMap RetireLog.bytes) ++ le 60 0
  b ++ le 4 (crc32c b)

/-- A copy passes FORMAT and CHECK; one that has never been written holds an empty map (log 110). -/
def mapValid (b : Bytes) : Bool := b.isEmpty || (b.length == 4096 && uAt b 0 4 == 1 && uAt b 0xFFC 4 == crc32c (b.take 0xFFC))

/-- What the valid copies hold together: retired units, retired regions, the log and SEQUENCE of the later copy (R364). -/
structure MapRead where
  units : List Nat
  regions : List Nat
  log : List RetireLog
  seq : Nat
  deriving DecidableEq, Repr

/-- The union of the copies that passed. -/
def readCopies (copies : List Bytes) : MapRead :=
  let bits := fun off n => copies.foldl (fun a b => Nat.lor a (uAt b off n)) 0
  let last := copies.foldl (fun a b => if uAt a 4 4 < uAt b 4 4 then b else a) []
  { units := (List.range 104).filter fun u => (bits 0x10 16).testBit u
    regions := (List.range 4).filter fun r => (bits 0x20 1).testBit r
    log := (List.range (uAt last 8 4)).map fun k => retireLogOf (bytesAt last (0x40 + 32 * k) 32)
    seq := uAt last 4 4 }

/-- An update of the map: the log grows by the retirements that wait, and copy A is written, then copy B (R364). -/
def State.writeMap (s : State) : State :=
  let log := s.integ.mapLog ++ s.integ.mapQueue
  let b := s.mapCopy (s.integ.mapSeq + 1) log
  { s with integ := { s.integ with
      mapLog := log, mapQueue := [], mapSeq := s.integ.mapSeq + 1, mapA := true, mapB := true, mapCopyA := b, mapCopyB := b } }

end Sys2Proof.Machine
end

