-- ==== Sys2Proof/Machine/Integrity.lean ====
section
/-! DEFINITION. The integrity events: transients, retirement, watchdogs of contexts, HBM lines and the sensors (R345,
R348, R357 to R369, R441, R447, R451). -/

namespace Sys2Proof.Machine

open Sys2Proof

/-! ## Transients and retirement -/

/-- Three transients in the window, the last before this boundary (R363, cause 1). -/
def State.thirdTransient (s : State) (u : Nat) : Bool :=
  let l := (s.unitSt u).inWindow s.now
  decide (3 ≤ l.length) && l.all fun b => decide (b < s.now)

/-- A benchmark mismatch has been confirmed (R363, cause 2). -/
def State.confirmed (s : State) (u : Nat) : Bool :=
  let x := s.unitSt u
  decide (x.mode = .confirming) && !x.needBench && decide (x.job = .idle) && decide (x.ends < s.now)

/-- A unit leaves at the boundary after its cause; of two causes the lower is recorded (R361, R363). Causes 3 and 4
belong to the start, cause 5 to REGION_RETIRE. -/
def execUnitRetire (u cause : Nat) (s : State) : Out :=
  if 104 ≤ u then .fault .noSuchUnit
  else if !s.serving || (s.unitSt u).retired then .next s
  else
    let a := s.thirdTransient u
    let b := s.confirmed u
    if (cause = 1 ∧ a) ∨ (cause = 2 ∧ b) then .next (s.retireUnit u (if a then 1 else 2)) else .next s

/-- A region is retired at the boundary after its cause: 1 the last working sheet, 5 a CRC failure of its collector,
otherwise a fault of its core that has been found (R365, R392). -/
def execRegionRetire (r reason : Nat) (s : State) : Out :=
  if 4 ≤ r then .fault .noSuchRegion
  else if !s.serving || s.regionRetired r then .next s
  else if reason = 1 then (if s.workingIn r 0 = 0 then .next (s.retireRegion r 1) else .next s)
  else if reason = 5 then .next (s.retireRegion r 5)
  else match s.integ.due.find r with
    | some (k, b) => if k = reason ∧ b < s.now then .next (s.retireRegion r k) else .next s
    | none => .next s

/-- Copy A, then copy B of the retirement map are written and checked (R364). -/
def execRetirementMapUpdate (s : State) : Out :=
  if !s.started || s.integ.mapQueue.isEmpty then .next s
  else .next s.writeMap

/-- Transients leave the window 10,000,000 ticks after they were charged; with none left a suspect unit is in service
again (R362). -/
def execTransientExpire (u : Nat) (s : State) : Out :=
  if 104 ≤ u then .fault .noSuchUnit
  else
    let l := (s.unitSt u).inWindow s.now
    .next (s.setUnit u fun x =>
      { x with charges := l, mode := if l.isEmpty ∧ x.mode = .suspect then .inService else x.mode })

/-! ## Cores and contexts -/

/-- The chief core's halves diverge (R289, R369). -/
def execLockstepMismatch (s : State) : Out := if s.started then .next (s.alarm 3 0x40) else .next s

/-- The duplicated state of a region core disagrees (R365). -/
def execRegionCoreMismatch (r : Nat) (s : State) : Out :=
  if 4 ≤ r then .fault .noSuchRegion
  else if s.started && s.start.loadDone && !s.integ.safe then .next (s.regionFault r 2)
  else .next s

/-- A unit takes work at this boundary: a pipe as soon as one of its work lanes does. -/
def State.takesWork (s : State) (u : Nat) : Bool :=
  if unitKind u < 2 then s.unitFree u
  else s.pipeOpen u && (List.range 4).any fun l => s.laneFree ((s.unitSt u).lane l)

/-- What a waiting part or command waits for is a resource that R357 names: a unit or lane, a residency, a preparation, a
tree, journal budget, entropy or ring space; or it waits for work that is under way: an earlier slab of its stream, an
earlier command for its slice, the commands that its own effect awaits. -/
def State.excused (s : State) (c : Ctx) : Bool :=
  let kinds := if c.parts.isEmpty then (if slabCommand c.opcode then [slabKind c.opcode] else (s.plan c).map Part.kind)
               else (c.parts.filter fun p => decide (p.phase ≠ .passed)).map Part.kind
  c.waitFrom.isSome || s.blocked c || s.unsettled || s.slabBehind c || (c.parts.isEmpty && decide (c.phase = .running)) ||
  (namesSlice c.opcode && !s.sliceTurn c) ||
  kinds.any (fun k => !((List.range 4).any fun r => (kindUnits r k).any s.takesWork)) ||
  !c.names.all (fun h => (s.liveKey h).isNone || (s.residentIn c.region h && s.keyReady c h)) ||
  ((c.opcode == 0x1302 || c.opcode == 0x1402) && c.stream == 0 &&
    (match s.leafState c.keyA with | .waits => true | _ => false))

/-- A part runs, or is being checked, at this boundary. -/
def Part.active (now : Nat) (p : Part) : Bool :=
  (decide (p.phase = .running) || decide (p.phase = .checking)) && decide (now ≤ p.ends)

/-- An accepted context is stalled (R357). -/
def State.stalled (s : State) (c : Ctx) : Bool :=
  !c.batch && (decide (c.phase = .waiting) || decide (c.phase = .running)) && decide (c.progress + 1000 ≤ s.now) &&
  !s.excused c && !c.parts.any (Part.active s.now) && c.bearingEnd.isNone

/-- A stalled context is a region-core fault of its launching region (R357, R365). -/
def execContextStall (ctx : Nat) (s : State) : Out :=
  match s.ctxs.find ctx with
  | none => .next s
  | some c => if s.serving && s.stalled c then .next (s.regionFault c.region 6) else .next s

/-! ## Control stores and their watchdog (R345, R348) -/

/-- A WAIT beyond its limit, or a leg past its TICKS: the operation is aborted, charged and rerun (R345, R358). -/
def execSequencerWatchdogExpire (u : Nat) (s : State) : Out :=
  if 104 ≤ u then .fault .noSuchUnit
  else if !s.serving || decide (2 ≤ unitKind u) || s.jobFree u then .next s
  else .next ((s.abortUnit u (Part.worksOn u)).charge u 3)

/-- The reload of a unit's store ends: SUSPECT, with a benchmark first (R348, R362). -/
def execControlStoreReloadEnd (u : Nat) (s : State) : Out :=
  if 104 ≤ u then .fault .noSuchUnit
  else
    let x := s.unitSt u
    if x.mode = .reloading ∧ x.reloadEnds ≤ s.now then
      .next (s.setUnit u fun x => { x with mode := .suspect, needBench := true })
    else .next s

/-- An uncorrectable error in sheet SRAM, engine OPS or a context line during an operation (R358, row 2). -/
def State.eccFault (s : State) (u : Nat) : State :=
  if s.busyUnit u then (s.abortUnit u (Part.worksOn u)).charge u 2 else s

/-- An uncorrectable control-store word: the operation is aborted, and the store reloads for 3 ticks (R348). -/
def State.storeFault (s : State) (u kind : Nat) : State :=
  let fits := if unitKind u = 0 then decide (kind < 4) else decide (unitKind u = 1 ∧ kind = 4)
  if !fits || s.jobFree u then s
  else
    let s := (s.abortUnit u (Part.worksOn u)).charge u 3
    let s := s.setUnit u fun x => { x with mode := .reloading, reloadEnds := s.now + 3 }
    let s := { s with integ := { s.integ with storeReloads := satAdd 16 s.integ.storeReloads 1 } }
    s.raise Ev.intStoreReload (Origin.unit u) kind

/-- A single-bit error in a word that a unit fetches is corrected and counted (R348). -/
def State.storeBit (s : State) (u : Nat) : State :=
  if 2 ≤ unitKind u || s.jobFree u then s
  else { s with integ := { s.integ with storeCorrected := satAdd 16 s.integ.storeCorrected 1 } }

/-- A slab runs on a lane of a unit, as its operating or as its check lane, to the boundary at which the lane ends. -/
def Part.onLane (u l ends : Nat) (p : Part) : Bool :=
  p.slab && decide (p.phase = .running) && decide (p.ends = ends) &&
  ((p.unit == some u && p.lane == l) || (p.checkUnit == some u && p.checkLane == l))

/-- A part that is no slab runs. -/
def Part.runsOnUnit (p : Part) : Bool := !p.slab && decide (p.phase = .running)

/-- An uncorrectable error inside a lane counts as a mirror mismatch of the slab that it runs; one in a lane reserved for
an engine's operation ends that. Either is charged to the unit (R206, R242, R358). -/
def State.laneFault (s : State) (u l : Nat) : State :=
  let y := (s.unitSt u).lane l
  match y.busy with
  | none => s
  | some i =>
    if y.reserved then
      (match s.ctxs.find i with
       | some c => (List.range c.parts.length).foldl (State.abandonPart Part.runsOnUnit i) s
       | none => s).charge u 2
    else if y.ends < s.now then s
    else
      let r := unitRegion u
      let s := { s with integ := { s.integ with mirrorFail := s.integ.mirrorFail.putD r (satAdd 16 (s.integ.mirrorFail.getD r 0) 1) 0 } }
      (s.abandon (Part.onLane u l y.ends)).charge u 2

/-! ## HBM lines (R26, R367) -/

/-- The first line of each area of R26, in the order of its table, and of the end of the stack. -/
def areaStarts : List Nat :=
  [0, 67108864, 83886080, 88080384, 92274688, 96468992, 130023424, 213909504, 281018368, 297795584, 402653184]

/-- Lines of the stack. -/
def hbmLines : Nat := 402653184

/-- The area of a line, in the row order of R26. -/
def areaOf (line : Nat) : Nat := ((areaStarts.filter (· ≤ line)).length) - 1

/-- The scrub has read its next line; the last one ends the pass (R367, R372). -/
def State.scrubStep (s : State) (line : Nat) : State :=
  if line ≠ s.integ.scrubLine then s
  else if line + 1 = hbmLines then
    { s with integ := { s.integ with
        scrubLine := 0, scrubPasses := satAdd 32 s.integ.scrubPasses 1, scrubMs := (s.now - s.integ.scrubStart) / 1000
        scrubStart := s.now } }
  else { s with integ := { s.integ with scrubLine := line + 1 } }

/-- A lost line of a scratch page of a stream that holds its message: an input of the command, which ends ST_UNIT_FAULT
without rerun (R367). -/
def State.loseInput (s : State) (q id : Nat) : State :=
  match (sortBy ((s.ctxs.filter fun p => !p.2.batch && p.2.q == q && p.2.stream == id && !p.2.phase.decided).map
      fun p => (p.2.seq, p.1))).head? with
  | some (_, i) => match s.ctxs.find i with
    | some c => if c.phase = .waiting then s.refuse i St.unitFault else s.failWith i St.unitFault
    | none => s
  | none => s.abortStream q id

/-- A lost page with the output of a SEAL or OPEN of one packet: ST_ABORTED, logged (R242). -/
def State.loseOutput (s : State) (i : Nat) (c : Ctx) : State :=
  if c.phase.decided then s
  else
    let r := c.region
    let s := { s with integ := { s.integ with contextLost := s.integ.contextLost.putD r (satAdd 16 (s.integ.contextLost.getD r 0) 1) 0 } }
    let s := s.raise Ev.strContextLost (Origin.queue c.q) c.slice c.stream
    let s := c.parts.foldl (fun t p => if p.slab then t.freeLanes i p else t) (s.unseat (c.laneKey i))
    if c.phase = .waiting then s.refuse i St.aborted else s.failWith i St.aborted

/-- A lost line of an operation context or scratch page: an input of the command ends it ST_UNIT_FAULT without rerun;
an intermediate counts as a transient of its unit (R367). Inputs stand at the start of the context (log 60). -/
def State.loseCtx (s : State) (i off : Nat) : State :=
  match s.ctxs.find i with
  | none => s
  | some c =>
    if c.phase.decided then s
    else if c.phase = .waiting then s.refuse i St.unitFault
    else if off < c.payload.length ∨ c.parts.isEmpty then s.failWith i St.unitFault
    else match c.parts.find? fun p => decide (p.phase = .running) || decide (p.phase = .checking) with
      | none => s
      | some p =>
        match (match p.checkUnit with | some v => some v | none => p.unit) with
        | some u => (s.abortUnit u (Part.worksOn u)).charge u 2
        | none => s

/-- A held entry whose staging line is lost is written as ST_UNIT_FAULT; so is its whole chain unless an entry of it has
been written (R367). -/
def loseHeld (chainOpen : Bool) (l : List Held) : List Held :=
  match l with
  | [] => []
  | h :: t =>
    if chainOpen || h.ctx.isNone then h :: t
    else
      let rest := (t.dropWhile fun g => !h.last && decide (g.ctx = h.ctx))
      { h with status := St.unitFault, out := [], cont := false, last := true } :: rest

/-- The owner of the `n`-th scratch page in use: a stream or a context, in the order of their numbers. -/
def State.pageOwner (s : State) (n : Nat) : Option (Option (Nat × Nat) × Nat) :=
  let streams := s.queues.flatMap fun p => p.2.streams.flatMap fun e => List.replicate e.2.pages (some (p.1, e.1), 0)
  let ctxs := s.ctxs.flatMap fun p => List.replicate p.2.pages (none, p.1)
  (streams ++ ctxs)[n]?

/-- What the loss of a scratch page does to its owner, a stream or a command of one packet (R242, R367). -/
def State.losePage (s : State) (owner : Option (Nat × Nat) × Nat) : State :=
  match owner with
  | (some (q, id), _) =>
    (match s.stream q id with
     | some e => if e.opcode = 0x3201 ∨ e.opcode = 0x3202 then s.loseStream q id else s.loseInput q id
     | none => s)
  | (none, i) => match s.ctxs.find i with
    | some c => if c.opcode = 0x3201 ∨ c.opcode = 0x3202 then s.loseOutput i c else s.loseCtx i 0
    | none => s

/-- Removes the `n`-th entry of a cache. -/
def dropNth (n : Nat) (l : List Nat) : List Nat := l.eraseIdx n

/-- What the loss of a line of each area does (R367); `both`: the area's second copy fails too. -/
def State.loseLine (s : State) (line : Nat) (both : Bool) : State :=
  let a := areaOf line
  let off := (line - areaStarts.getD a 0) * 64
  match a with
  | 0 => { s with integ := { s.integ with poison := s.integ.poison.put line 2 } }
  | 1 => s.loseCtx (off / 16384) (off % 16384)
  | 2 => match s.nthStream (off / 1024) with | some (q, id) => s.loseStream q id | none => s
  | 3 => s.setQueue (off / 65536) fun x => { x with held := loseHeld x.chainOpen x.held }
  | 4 => if both then s.alarm 5 0x61 else s
  | 5 => { s with keys := { s.keys with prepared := dropNth (off / 65536) s.keys.prepared } }
  | 6 => s.alarm 4 0x54
  | 7 => { s with stateful := { s.stateful with trees := s.stateful.trees.eraseIdx (off / 67108864) } }
  | 8 => { s with keys := { s.keys with mceCache := dropNth (off / 1048576) s.keys.mceCache } }
  | _ => match s.pageOwner (off / 65536) with
    | some o => s.losePage o
    | none => s

/-- A read of one HBM line: the scrub's next line, or a demand read of another (R367). -/
def execHbmScrubRead (line : Nat) (found : LineState) (s : State) : Out :=
  if !s.ready || decide (hbmLines ≤ line) then .next s
  else
    let s := s.scrubStep line
    let g := s.integ
    match found with
    | .clean => .next s
    | .corrected => .next { s with integ := { g with corrected := satAdd 32 g.corrected 1 } }
    | _ =>
      let s := if found = .tagFail then { s with integ := { g with tagFail := satAdd 16 g.tagFail 1 } }
               else { s with integ := { g with uncorrectable := satAdd 16 g.uncorrectable 1 } }
      let s := s.raise Ev.intHbmLine Origin.atlas (areaOf line) (line * 64 % 2 ^ 32) (line * 64 / 2 ^ 32)
      .next (if s.integ.safe then s else s.loseLine line (decide (found = .copiesFail)))

/-- A stage of the start in which alarms are raised: it runs, or has ended in READY. -/
def State.pastStage (s : State) (k : Nat) : Bool :=
  s.started && decide (k < s.start.stage) && decide (s.start.stage ≤ Stage.ready)

/-- A whole HBM channel or the PHY fails (R367). -/
def execHbmChannelFailure (_phy : Bool) (s : State) : Out :=
  if s.pastStage Stage.verify then .next (s.alarm 5 0x62) else .next s

/-! ## Sensors (R368, R451) -/

/-- Nominal voltages of the rails in mV, in the order of R429. -/
def railNominal : List Nat := [750, 850, 1100, 400, 850, 1200, 1800, 800, 1800]

/-- A voltage lies outside a band of `pct` per cent. -/
def outside (nominal mv pct : Nat) : Bool :=
  decide (100 * mv + pct * nominal < 100 * nominal) || decide (100 * nominal + pct * nominal < 100 * mv)

/-- A rail stays at `mv` for `ns` nanoseconds: the glitch detector, the alarm band and the warning band in the order of
their times (R368, R447). VPP_FUSE at 0 V is not supplied (R429). -/
def execRailVoltageExcursion (rail mv ns : Nat) (s : State) : Out :=
  if 9 ≤ rail then .fault .noSuchSensor
  else if !s.started then .next s
  else
    let nom := railNominal.getD rail 0
    let s := if rail = 8 then { s with lcs := { s.lcs with vpp := decide (1750 ≤ mv ∧ mv ≤ 1890) } } else s
    if rail = 8 ∧ mv = 0 then .next s
    else
      let s := if outside nom mv 15 ∧ 2 ≤ ns then s.alarm 1 (0x10 + rail) else s
      let s := if outside nom mv 10 ∧ 1000 ≤ ns then s.alarm 2 (0x20 + rail) else s
      .next (if outside nom mv 5 ∧ 10000 ≤ ns then s.raise Ev.snsVoltageWarn Origin.atlas rail mv else s)

/-- The hottest of a conversion's sensors. -/
def hottest (l : List Int) : Int := match l with | [] => 0 | t :: r => r.foldl max t
/-- The coldest. -/
def coldest (l : List Int) : Int := match l with | [] => 0 | t :: r => r.foldl min t

/-- A signed value as an event parameter of 32 bits. -/
def param32 (i : Int) : Nat := (i % 2 ^ 32).toNat

/-- The ten junction sensors convert; the hottest and the coldest are tested. A threshold raises its warning or alarm
at the conversion that crosses it (log 61). Every ordering code has the upper limit 105 °C (R15). -/
def execTempSensorConversion (temps : List Int) (s : State) : Out :=
  if temps.length ≠ 10 then .fault .noSuchSensor
  else if !s.started || decide (s.start.stage ≤ Stage.clocks) then .next s
  else
    let before := s.integ.temps
    let s := { s with integ := { s.integ with temps } }
    let s := if 105 < hottest temps ∧ ¬ 105 < hottest before then
        s.raise Ev.snsTempWarn Origin.atlas (param32 (hottest temps)) else s
    let s := if 115 < hottest temps ∧ ¬ 115 < hottest before then s.alarm 2 0x30 else s
    .next (if coldest temps < -30 ∧ ¬ coldest before < -30 then s.alarm 2 0x31 else s)

/-- The stack's own sensor is read (R451). -/
def execHbmStackTempRead (t : Int) (s : State) : Out :=
  if s.pastStage Stage.hbm then .next { s with integ := { s.integ with hbmTemp := t } } else .next s

/-- The 25 MHz reference departs from the on-die oscillator over 100 ms, or stops (R368). -/
def execReferenceClockFault (ppm : Int) (stopNs : Nat) (s : State) : Out :=
  if !s.started || decide (s.start.stage ≤ Stage.clocks) then .next s
  else
    let s := if 20 < ppm ∨ ppm < -20 then s.alarm 2 0x32 else s
    .next (if 1000 < stopNs then s.alarm 2 0x33 else s)

/-- A light sensor triggers (R368). -/
def execLightSensorTrigger (s : State) : Out := if s.started then .next (s.alarm 1 0x02) else .next s

/-- TAMPER_IN_N low for `lowNs` ns: monitored from the end of CLOCKS while PERST_N is deasserted (R441). -/
def execTamperInN (lowNs : Nat) (s : State) : Out :=
  if s.started ∧ Stage.clocks < s.start.stage ∧ 1000 ≤ lowNs then .next (s.alarm 1 0x01) else .next s

/-- THERMTRIP_N asserts at 125 °C in every powered state, and stays until power is removed (R368, R441). -/
def execThermtripN (t : Int) (s : State) : Out :=
  if !s.start.vddGood || decide (t < 125) || s.integ.thermtrip then .next s
  else
    let s := { s with integ := { s.integ with thermtrip := true } }
    .next (if s.started then s.raise Ev.snsThermtrip Origin.atlas (param32 t) else s)

end Sys2Proof.Machine
end

