-- ==== Sys2Proof/Machine/Readiness.lean ====
section
/-! DEFINITION. The last steps of a start: from the ENTROPY stage over DATUM to READY (R281, R395, R396, R404, R405). -/

namespace Sys2Proof.Machine

open Sys2Proof

/-- The bank that was booted. -/
def State.bootBank (s : State) : Bank := s.start.banks.getD s.start.bank Bank.erased

/-- Enters a stage of the start. -/
def State.enterStage (s : State) (k : Nat) : State := { s with start := { s.start with stage := k, stageFrom := s.now } }

/-- READY: the SVN floor rises to the booted bank's MIN_SVN, the Device Readiness Status message is sent and DEV_READY
is raised (R395, R396, R404, R411). -/
def State.becomeReady (s : State) : State :=
  let ms := (s.now - s.start.t0) / 1000
  let b := s.bootBank
  let s := s.enterStage Stage.ready
  let s := { s with start := { s.start with readyMs := ms, drsSent := true, svnFloor := max s.start.svnFloor b.minSvn } }
  s.raise Ev.devReady Origin.atlas ms s.start.bank b.svn

/-- The DATUM stage ends once a token has been applied (R405). -/
def State.acquired (s : State) : State := if s.start.stage = Stage.datum then s.becomeReady else s

/-- Enters the DATUM stage; with ACQ_MS 0 it ends at once (R405). -/
def State.enterDatum (s : State) : State :=
  let s := s.enterStage Stage.datum
  if s.datum.acqMs = 0 then s.becomeReady else s

/-- The atlas INT instance has been instantiated. -/
def State.atlasSeeded (s : State) : Bool := match s.rng.drbgs.find 4 with | some x => x.seeded | none => false

/-- The ENTROPY stage ends once the atlas INT instance has been instantiated (R281). -/
def State.seeded (s : State) : State :=
  if s.start.stage = Stage.entropy ∧ s.atlasSeeded then s.enterDatum else s

end Sys2Proof.Machine
end

