-- ==== Sys2Proof/Machine/Boot.lean ====
section
/-! DEFINITION. The stages of a start, and what a reset leaves (R29, R170, R244 to R249, R276, R290, R384, R394 to R404,
R412, R417 to R420). -/

namespace Sys2Proof.Machine

open Sys2Proof

/-! ## What survives (R29, R398) -/

/-- Everything but eMRAM, fuses and flash is lost (R398); host memory and the commands that wait are not the device's. The
writes of the last second stay counted, since R169 and R388 bound any second of reference time (DEDUCED, log 126). -/
def State.lose (s : State) : State :=
  { State.reset with
    pending := s.pending
    now := s.now
    free := s.free
    host := s.host
    datum := { Datum.reset with tokSeq := s.datum.tokSeq }
    keys := { KeyStore.reset with
      epochs := s.keys.epochs, persistNext := s.keys.persistEnd, persistEnd := s.keys.persistEnd
      helpA := s.keys.helpA, helpB := s.keys.helpB, chain := s.keys.chain, serial := s.keys.serial }
    stateful := { Stateful.reset with
      journal := s.stateful.journal, keyIdCtr := s.stateful.keyIdCtr, ptr := s.stateful.ptr, writes := s.stateful.writes }
    rng := { Rng.reset with cells := s.rng.cells.mapVals fun _ x => { x with ones := 0, balanced := false, since := 0 } }
    log := { s.log.stored with
      queue := [], dropped := 0, overflow := 0, repeatFrom := none, unwritten := 0, opSeconds := s.log.persisted, opTicks := 0 }
    integ := { Integrity.reset with
      mapCopyA := s.integ.mapCopyA, mapCopyB := s.integ.mapCopyB, extended := s.integ.extended, thermtrip := s.integ.thermtrip }
    start := { StartUp.reset with
      vddGood := s.start.vddGood, smbAddr := s.start.smbAddr, banks := s.start.banks, flashA := s.start.flashA
      flashB := s.start.flashB, commits := s.start.commits, tokens := s.start.tokens, svnFloor := s.start.svnFloor }
    lcs := { s.lcs with inForce := none, rightsOpen := false, rightsClosed := false, tdr := 0 }
    emram := s.emram }

/-- The entropy source starts: at power-up, and again at t0 (R276, R394). -/
def State.startSource (s : State) : State :=
  { s with rng := { Rng.reset with
      stage := .balancing, started := s.now, stageFrom := s.now
      cells := (List.range 8).foldl (fun t i =>
        t.put i { t.getD i RngCell.reset with ones := 0, balanced := false, since := s.now }) s.rng.cells } }

/-! ## Ends of a start (R397) -/

/-- The start has stopped in FAILED. -/
def State.failStart (s : State) (code detail : Nat) : State :=
  let s := s.enterStage Stage.failed
  { s with start := { s.start with errCode := code, errDetail := detail, grat := false } }

/-- The start has ended in LOCKED. -/
def State.lockStart (s : State) (code : Nat) : State :=
  let s := s.enterStage Stage.locked
  { s with start := { s.start with errCode := code, errDetail := 0, grat := false } }

/-- The start goes on: it has ended neither in FAILED nor in LOCKED. -/
def State.goesOn (s : State) : Bool := decide (s.start.stage ≠ Stage.failed) && decide (s.start.stage ≠ Stage.locked)

/-- The next stage of a start that goes on. -/
def State.andThen (s : State) (f : State → State) : State := if s.goesOn then f s else s

/-! ## PUF (R244, R245, R412) -/

/-- The root has been regenerated; a block with more than 28 corrections raises the drift warning. -/
def State.rootFrom (s : State) (r : Regenerated) : State :=
  let s := { s with keys := { s.keys with root := r.root, rootReady := true, maxCorrected := r.most, above28 := r.above28 } }
  if 0 < r.above28 then s.raise Ev.kstPufDrift Origin.atlas r.most r.above28 else s

/-- What the two helper copies give from the response; a copy that reads with an error gives nothing. -/
def State.tryCopies (s : State) (e : StartEnv) : Option Regenerated × Option Regenerated :=
  (if e.helperABad then none else regenerate s.keys.helpA e.puf, if e.helperBBad then none else regenerate s.keys.helpB e.puf)

/-- Notes which copies have passed. -/
def State.helpers (s : State) (a b : Bool) : State := { s with keys := { s.keys with helperA := a, helperB := b } }

/-- Enrolment: both copies are written from the response and codewords of random messages, from the source's conditioned
output, and the root is regenerated from copy A (R412). -/
def State.enrol (s : State) (e : StartEnv) : State :=
  let copy := enrolCopy e.puf (drawBytes s.free 6240)
  let s := { s with free := s.free + 1, keys := { s.keys with helpA := copy, helpB := copy } }
  match regenerate copy e.puf with
  | some r => (s.helpers true true).rootFrom r
  | none => s.lockStart 2

/-- The PUF stage: the root is regenerated, or enrolled at the first start in TEST; none is formed in BLANK, SCRAPPED
or with a torn counter. A copy that failed beside a good one is rewritten from it. -/
def State.stagePuf (s : State) (e : StartEnv) : State :=
  let s := s.enterStage Stage.puf
  let k := s.lcs.code
  if k = 0 ∨ k = 5 ∨ k = 7 then s
  else if k = 1 ∧ s.keys.helpA = [] ∧ s.keys.helpB = [] then s.enrol e
  else match s.tryCopies e with
    | (some r, some _) => (s.helpers true true).rootFrom r
    | (some r, none) =>
      (({ s with keys := { s.keys with helpB := s.keys.helpA } }.helpers true false).rootFrom r).raise Ev.kstPufRepair Origin.atlas 1
    | (none, some r) =>
      (({ s with keys := { s.keys with helpA := s.keys.helpB } }.helpers false true).rootFrom r).raise Ev.kstPufRepair Origin.atlas 0
    | (none, none) => s.lockStart 2

/-! ## VERIFY (R403) -/

/-- The octets of a bank of the flash. -/
def State.flash (s : State) (k : Nat) : Bytes := if k = 0 then s.start.flashA else s.start.flashB

/-- Writes a bank record. -/
def State.setBank (s : State) (k : Nat) (b : Bank) : State :=
  { s with start := { s.start with banks := s.start.banks.set k b } }

/-- The record of a valid bank. -/
def bankOf (b : Bytes) : Bank :=
  { seq := Bank.sequenceAt b, svn := Bank.svnAt b, minSvn := Bank.minSvnAt b, signer := Bank.signerAt b
    pages := Bank.pagesAt b, sections := Bank.sectionsAt b, reason := 0 }

/-- A bank is invalid: its record shows the reason alone, and CFG_BANK_INVALID is raised. -/
def State.badBank (s : State) (k reason : Nat) : State :=
  (s.setBank k { Bank.erased with reason := reason }).raise Ev.cfgBankInvalid Origin.atlas k reason

/-- Reads the header of a bank. -/
def State.readHeader (s : State) (e : StartEnv) (k : Nat) : State :=
  let r := s.headerReason (s.flash k) (if k = 0 then e.readErrA else e.readErrB)
  if r = 0 then s.setBank k (bankOf (s.flash k)) else s.badBank k r

/-- The reason of a bank's record. -/
def State.reason (s : State) (k : Nat) : Nat := (s.start.banks.getD k Bank.erased).reason

/-- The order of the candidates: the higher SEQUENCE first, bank A first on equal ones. -/
def State.candidates (s : State) : List Nat :=
  let seq := fun k => (s.start.banks.getD k Bank.erased).seq
  (if seq 0 < seq 1 then [1, 0] else [0, 1]).filter fun k => s.reason k == 0

/-- Verifies the candidates in turn; with none left the start fails with the reason found last. -/
def State.tryBanks (e : StartEnv) : List Nat → Nat → State → State
  | [], last, s => s.failStart 5 last
  | k :: t, _, s =>
    match verifyReason (s.flash k) (if k = 0 then e.readErrA else e.readErrB) with
    | 0 => { s with start := { s.start with bank := k } }
    | r =>
      let s := s.badBank k r
      State.tryBanks e t r { s with start := { s.start with fallback := true } }

/-- The VERIFY stage: with no candidate, the start fails with bank B's header reason. -/
def State.stageVerify (s : State) (e : StartEnv) : State :=
  let s := ((s.enterStage Stage.verify).readHeader e 0).readHeader e 1
  State.tryBanks e s.candidates (s.reason 1) s

/-! ## LOAD (R346, R352, R402) -/

/-- A route and a class of the policy. -/
def State.loadRoute (b : Bytes) (s : State) (c : Nat) : State :=
  let o := 0x2000 + 16 * c
  let k := { s.evClass c with intEn := uAt b o 1 == 1 }
  let s := { s with events := { s.events with classes := s.events.classes.putD c k EvClass.reset } }
  s.setRoute c fun r => { r with target := uAt b (o + 1) 1, prio := uAt b (o + 2) 1, handler := BitVec.ofNat 64 (uAt b (o + 8) 8) }

/-- Writes the policy into the registers and routes. -/
def State.applyPolicy (s : State) (b : Bytes) : State :=
  let f := uAt b 4 4
  let s := { s with
    datum := { s.datum with
      flat := bitOf f 0, ppsEn := bitOf f 2, ptmEn := bitOf f 3, cap := uAt b 8 8, acqMs := uAt b 0x10 2
      authKeys := (List.range (uAt b 0x14 1)).map fun k => bytesAt b (0x100 + 1952 * k) 1952 }
    rng := { s.rng with mode := bitOf f 1, waitMs := uAt b 0x12 2 } }
  (List.range 256).foldl (State.loadRoute b) s

/-- The region and sheet cores leave reset (R290, R395). -/
def State.freeCores (s : State) : State :=
  { s with cores := (List.range 68).foldl (fun t i => t.put (i + 1) { Core.reset with held := false }) s.cores }

/-- The curve rows that fail their checks, and the discarded packs of an image, are logged (R203, R353). -/
def State.badRows (s : State) (code : Nat) (l : List (Nat × Nat)) : State :=
  l.foldl (fun t p => t.raise code Origin.atlas p.1 p.2) s

/-- The pairs of engines that check curve rows: two working engines of one region each (R202). -/
def State.enginePairs (s : State) : List (Nat × Nat) :=
  (List.range 4).flatMap fun r => pairs ((kindUnits r 1).filter s.working)
where
  /-- Neighbours by twos. -/
  pairs : List Nat → List (Nat × Nat)
    | a :: b :: t => (a, b) :: pairs t
    | _ => []

/-- The engines that differ over a row are charged with a failed check; another pair repeats it (R203; the rows take
the pairs in turn, log 120). -/
def State.chargePairs (s : State) (rows : Nat) (l : List Nat) : State :=
  let p := s.enginePairs
  (l.filter (· < rows)).foldl (fun t i => match p[i % p.length]? with
    | some (a, b) => (t.charge a 1).charge b 1
    | none => t) s

/-- The checks of the curve rows of a bank take the bases of their two Miller-Rabin tests from the atlas instance (R202,
R277). -/
def State.curveDraws (s : State) (n next : Nat) : State :=
  { s with free := next
           rng := { s.rng with drbgs := s.rng.drbgs.modify 4 fun x => { x with requests := x.requests + 2 * n } } }

/-- Loads the image of the chosen bank; its packs' curve rows have been checked behind the base rows. -/
def State.takeImage (s : State) (g : PackRun) : State :=
  let b := s.flash s.start.bank
  let s := { s with start := { s.start with image := g.got.image } }
  let s := (((s.badRows Ev.cfgCurveDiscarded g.curves).badRows Ev.cfgPackDiscarded g.bad).applyPolicy (sect b 13)).freeCores
  { s with start := { s.start with loadDone := true } }

/-- The LOAD stage: a section that has changed, or content that fails its checks, makes the bank invalid; the device
returns to VERIFY with the other bank. -/
def State.stageLoad (e : StartEnv) : Nat → State → State
  | 0, s => s
  | n + 1, s =>
    let s := s.enterStage Stage.load
    let k := s.start.bank
    let b := s.flash k
    let diff := if k = 0 then e.secondDiffA else e.secondDiffB
    match loadReason s.free b diff with
    | 0 =>
      let g := loadImage s.lcs s.free b
      let n := (checkedCurves s.lcs b).length
      ((s.chargePairs n e.curveMismatch).curveDraws n g.draw).takeImage g
    | r =>
      let base := rowsOf 512 (sect b 11)
      let s := if r = 8 then
          ((s.chargePairs base.length e.curveMismatch).badRows Ev.cfgCurveDiscarded (badCurves s.free base)).curveDraws base.length (s.free + 2 * base.length)
        else s
      let s := s.badBank k r
      let s := { s with start := { s.start with fallback := true } }
      (State.tryBanks e (s.candidates.filter (· ≠ k)) r (s.enterStage Stage.verify)).andThen (State.stageLoad e n)

/-! ## MEASURE (R246, R247, R249, R423) -/

/-- LC_CLASS (R412). -/
def lcClass (k : Nat) : Nat := if k = 1 then 1 else if k = 4 then 2 else 0

/-- The digest of the chief core's ROM. -/
def romDigest : Bytes := sha384 ((List.range 65536).map Config.romByte)

/-- The bindings of a certificate and its signer (R421). -/
def State.certBound (s : State) (c : DebugCert) : Bool :=
  c.serial == s.keys.serial && c.lcState == s.lcs.code && (s.lcs.code == 2 || s.lcs.code == 3) &&
  s.lcs.signerKey c.signer (bytesAt c.bytes 0x28 2592)

/-- A certificate binds at this start: R421 without the datum test. -/
def State.certBinds (s : State) (c : DebugCert) : Bool :=
  s.certBound c &&
  mldsaOk 0x00110003 (bytesAt c.bytes 0x28 2592) (ascii "MAELARN-DEBUG") (c.bytes.take 0x28) (bytesAt c.bytes 0xA48 4627)

/-- The measurement chain of a list of digests. -/
def measureChain : Nat → Bytes → List Bytes → Bytes
  | _, m, [] => m
  | k, m, d :: t => measureChain (k + 1) (sha384 (m ++ le 4 k ++ d)) t

/-- The MEASURE stage; a pending certificate comes into force or is dropped. -/
def State.stageMeasure (s : State) : State :=
  let s := s.enterStage Stage.measure
  let cert := match s.lcs.cert with | some c => if s.certBinds c then some c else none | none => none
  let s := { s with lcs := { s.lcs with cert := none, inForce := cert } }
  let b := s.flash s.start.bank
  let d6 := match cert with | some c => le 8 c.rights ++ sha384 c.bytes | none => List.replicate 56 0
  let d := (measuredInputs b s.start.image ++ [le 4 s.lcs.code, d6]).map sha384
  let m := measureChain 0 (List.replicate 48 0) d
  let g := sha384 (bk b 0x860 2592)
  let x := s.keys.root
  { s with keys := { s.keys with
      digests := d, measure := m, svn := Bank.svnAt b, signer := Bank.signerAt b
      cdiX := kmac256 32 x m "MAELARN-CDI-X"
      cdiS := kmac256 32 x (g ++ d.getD 5 [] ++ d.getD 6 []) "MAELARN-CDI-S"
      identity := kmac256 88 x (romDigest ++ le 1 (lcClass s.lcs.code) ++ le 1 (b2n cert.isSome)) "MAELARN-IDENTITY" } }

/-! ## SELFTEST (R170, R363) -/

/-- The keys with a valid record. -/
def journalKeys (j : Tab JRec) : List Nat := ((j.vals.filter fun r => !r.bad).map JRec.keyId).eraseDups

/-- A key not marked EXHAUSTED is advanced by two blocks under a new record. -/
def State.advanceKey (s : State) (id : Nat) : State :=
  match s.recOf id with
  | some r =>
    if r.exhausted then s
    else s.journalWrite id r.flags (min (r.nextUnreserved + 2 * r.block) r.total) r.total r.block r.handle
  | none => s

/-- A word whose CHECK fails. -/
def spoilt (b : Bytes) : Bytes := if (jrecOf b).bad then b else b.set 0x3C (~~~ b.getD 0x3C 0)

/-- The journal scan: the words given fail CHECK at this start. -/
def State.scanJournal (s : State) (bad : List Nat) : State :=
  let s := { s with stateful := { s.stateful with
    journal := s.stateful.journal.mapVals fun w b => if bad.contains w then spoilt b else b } }
  let j := s.stateful.records
  let seq := (j.vals.filter fun r => !r.bad).foldl (fun a r => max a r.seq) 0
  let s := { s with stateful := { s.stateful with seqBase := seq } }
  let n := (j.vals.filter JRec.bad).length
  if n = 0 then s
  else
    let ids := (journalKeys j).filter fun id => match currentRec j id with | some r => !r.exhausted | none => false
    let before := s.stateful.writes
    let s := ids.foldl State.advanceKey s
    let s := { s with stateful := { s.stateful with writes := before } }
    s.raise Ev.kstJournalCrc Origin.atlas n ids.length

/-- The SELFTEST stage: the graticule starts with V = 0; units that fail are retired; the journal is scanned. -/
def State.stageSelftest (s : State) (e : StartEnv) : State :=
  let s := s.enterStage Stage.selftest
  let s := { s with start := { s.start with grat := true } }
  let s := (List.range 104).foldl (fun t u => t.setUnit u fun x => { x with lastBench := t.now }) s
  let s := (e.badStores.filter (· < 104)).foldl (fun t u => t.retireUnit u 3) s
  let s := (e.badUnits.filter (· < 104)).foldl (fun t u => t.retireUnit u 4) s
  s.scanJournal e.journalBad

/-- The vault key, the tag key and the context key are made from the atlas INT instance (R25, R28, R223, R277). -/
def State.makeKeys (s : State) : State :=
  let (a, s) := s.drawFrom 4 32
  let (b, s) := s.drawFrom 4 32
  let (c, s) := s.drawFrom 4 32
  { s with keys := { s.keys with vaultKey := a, tagKey := b, ctxKey := c } }

/-- The stages from LOAD to the wait for entropy. -/
def State.afterHbm (s : State) (e : StartEnv) : State :=
  let s := { s with hbm := [], window := [] }.makeKeys
  ((State.stageLoad e 2 s).andThen State.stageMeasure).andThen fun s =>
    ((s.stageSelftest e).enterStage Stage.entropy).seeded

/-- The HBM stage waits for the training to finish, and for the instance that its keys are drawn from (R277, R395). -/
def State.leaveHbm (s : State) : State :=
  match s.start.env with
  | some e => if s.start.stage = Stage.hbm ∧ s.start.hbmTrained ∧ s.atlasSeeded then s.afterHbm e else s
  | none => s

def State.stageHbm (s : State) : State :=
  (s.enterStage Stage.hbm).leaveHbm

/-- The BOOT stage: the flash answers (R399). -/
def State.stageBoot (s : State) (e : StartEnv) : State :=
  let s := s.enterStage Stage.boot
  if e.flashAnswers then (s.stageVerify e).andThen State.stageHbm else s.failStart 4 0

/-! ## FUSES (R412, R417) -/

/-- The retirement map as read: the union of every valid copy (R364). -/
def State.readMap (s : State) (e : StartEnv) : State :=
  let a := e.mapAOk && mapValid s.integ.mapCopyA
  let b := e.mapBOk && mapValid s.integ.mapCopyB
  let s := { s with integ := { s.integ with mapA := a, mapB := b } }
  if !a && !b then s.alarm 5 0x64
  else
    let m := readCopies ((if a then [s.integ.mapCopyA] else []) ++ (if b then [s.integ.mapCopyB] else []))
    let s := m.units.foldl (fun t u => t.setUnit u fun x => { x with retired := true }) s
    ({ s with integ := { s.integ with regions := m.regions, mapLog := m.log, mapSeq := m.seq } }).degradeTest

/-- What follows the counter: LOCKED in BLANK, SCRAPPED or with a torn counter; otherwise BOOT. -/
def State.leaveFuses (s : State) (e : StartEnv) : State :=
  let k := s.lcs.code
  if k = 7 then s.lockStart 3
  else if k = 0 ∨ k = 5 then s.lockStart 0
  else s.stageBoot e

/-- VDD_AON and VPP_FUSE have the margin that a burn needs (R417). -/
def burnMargin (e : StartEnv) : Bool := decide (780 ≤ e.vddAonMv) && decide (1750 ≤ e.vppMv ∧ e.vppMv ≤ 1890)

/-- The fuse groups of a request in order: 1 to 5 the counter's, 6 to 8 the signers' revocation groups (R415, R420). -/
def LcsReq.groups (r : LcsReq) : List Nat :=
  if r.kind = 2 then [5 + r.to_]
  else if r.to_ = 5 then [6, 7, 8] ++ (List.range (5 - r.from_)).map (r.from_ + 1 + ·)
  else [r.from_ + 1]

/-- Erases a bank signed by a customer (R420). -/
def eraseCustomer (b : Bytes) : Bytes := if 1 ≤ Bank.signerAt b ∧ Bank.signerAt b ≤ 3 then [] else b

/-- The wipe of a target state (R420). -/
def State.wipeFor (s : State) (r : LcsReq) : State :=
  if r.kind = 2 ∨ (r.to_ ≠ 4 ∧ r.to_ ≠ 5) then s
  else
    let s := { s with stateful := { s.stateful with journal := [] }, emram := Tab.keep (fun a _ => decide (a < 0xC4000)) s.emram }
    if r.to_ = 4 then
      { s with start := { s.start with flashA := eraseCustomer s.start.flashA, flashB := eraseCustomer s.start.flashB } }
    else
      let zero := fun x : EvRec => { x with p0 := 0, p1 := 0, p2 := 0, p3 := 0 }
      { s with
        stateful := { s.stateful with keyIdCtr := 0 }
        keys := { s.keys with epochs := [], persistNext := 0, persistEnd := 0, chain := [], helpA := [], helpB := [] }
        rng := { s.rng with cells := [] }
        log := { s.log with kept := s.log.kept.mapVals fun _ x => zero x, circ := s.log.circ.mapVals fun _ x => zero x } }

/-- The FUSES stage: the retirement map, then a pending request (R417): it is dropped where FROM no longer fits, else
its wipe runs and its burn begins where the margin holds. -/
def State.stageFuses (s : State) (e : StartEnv) : State :=
  let s := s.enterStage Stage.fuses
  let s := { s with start := { s.start with fuseRead := true }
                    lcs := { s.lcs with vpp := decide (1750 ≤ e.vppMv ∧ e.vppMv ≤ 1890), burnDeferred := false } }
  (s.readMap e).andThen fun s =>
    if !e.fuseAgree then s.lockStart 3
    else match s.lcs.pending with
      | none => s.leaveFuses e
      | some r =>
        let k := s.lcs.code
        if r.from_ ≠ k then
          (({ s with lcs := { s.lcs with pending := none } }).raise Ev.lcsTransition Origin.atlas k k).leaveFuses e
        else
          let s := s.wipeFor r
          if burnMargin e then { s with start := { s.start with burning := r.groups, burnFrom := s.now } }
          else ({ s with lcs := { s.lcs with burnDeferred := true } }).leaveFuses e

/-- A fuse group as read back from the number of its blown fuses (R412). -/
def fuseOf (blown : Nat) : Fuse := if 6 ≤ blown then .burnt else if blown ≤ 1 then .unburnt else .torn

/-- The reading of a group changes. -/
def LifeCycle.burn (l : LifeCycle) (g blown : Nat) : LifeCycle :=
  if g ≤ 5 then { l with groups := l.groups.set (g - 1) (fuseOf blown) }
  else { l with revoked := l.revoked.set (g - 6) (fuseOf blown) }

/-- The end of a burn: the request is deleted, LCS_TRANSITION raised, and the start goes on in the new state; after
BLANK to TEST it enrols first (R417, step 5). -/
def State.burnt (s : State) (e : StartEnv) (r : LcsReq) : State :=
  let k := s.lcs.code
  let enrolled := r.kind = 1 ∧ r.from_ = 1 ∧ r.to_ = 2
  let slot := fun d : Bytes => if zeros d then none else some d
  let s := { s with lcs := { s.lcs with
    pending := none
    signers := if enrolled then r.digests.map slot else s.lcs.signers } }
  let s := s.raise Ev.lcsTransition Origin.atlas r.from_ k
  if r.from_ = 0 ∧ k = 1 then (s.stagePuf e).andThen (State.stageFuses · e) else s.leaveFuses e

end Sys2Proof.Machine
end

