-- ==== Sys2Proof/Machine/Flags.lean ====
section
/-! DEFINITION. The flags of the Casmar cores: Z in bit 0, N in bit 1, C in bit 2, V in bit 3 (R291), the condition
codes (R295), and the flag results of the ALU functions (R300). -/

namespace Sys2Proof.Machine

/-- A flags value from its four bits. -/
def mkFl (z n c v : Bool) : BitVec 4 :=
  BitVec.ofBool v ++ BitVec.ofBool c ++ BitVec.ofBool n ++ BitVec.ofBool z

def flZ (fl : BitVec 4) : Bool := fl.getLsbD 0
def flN (fl : BitVec 4) : Bool := fl.getLsbD 1
def flC (fl : BitVec 4) : Bool := fl.getLsbD 2
def flV (fl : BitVec 4) : Bool := fl.getLsbD 3

/-- The condition codes (R295). -/
def condHolds (cc fl : BitVec 4) : Bool :=
  match cc.toNat with
  | 0 => true
  | 1 => flZ fl
  | 2 => !flZ fl
  | 3 => flN fl != flV fl
  | 4 => flN fl == flV fl
  | 5 => !flC fl
  | 6 => flC fl
  | 7 => flN fl
  | 8 => !flN fl
  | 9 => flV fl
  | 10 => !flV fl
  | 11 => !flZ fl && flN fl == flV fl
  | 12 => flZ fl || flN fl != flV fl
  | 13 => flC fl && !flZ fl
  | 14 => !flC fl || flZ fl
  | _ => false

/-- A sum of two words and a carry with its flags: C is the carry out, V the signed overflow (R300). -/
def addFl {w : Nat} (a b : BitVec w) (cin : Bool) : BitVec w × BitVec 4 :=
  let r := a + b + BitVec.ofNat w cin.toNat
  (r, mkFl (r == 0) r.msb (decide (2 ^ w ≤ a.toNat + b.toNat + cin.toNat)) (a.msb == b.msb && r.msb != a.msb))

/-- A difference with its flags: C is 1 when there is no borrow; `keep` false subtracts one more (R300, SBC). -/
def subFl {w : Nat} (a b : BitVec w) (keep : Bool) : BitVec w × BitVec 4 := addFl a (~~~b) keep

/-- Z and N of a result; C and V are kept (R300). -/
def logicFl (fl : BitVec 4) (r : BitVec 64) : BitVec 64 × BitVec 4 := (r, mkFl (r == 0) r.msb (flC fl) (flV fl))

/-- A 32-bit result sign-extended, with the flags of the 32-bit operation (R300, the W forms). -/
def wordFl (p : BitVec 32 × BitVec 4) : BitVec 64 × BitVec 4 := (p.1.signExtend 64, p.2)

end Sys2Proof.Machine
end

