-- ==== Sys2Proof/Machine/Operands.lean ====
section
/-! DEFINITION. The operands of the Casmar instructions: registers, guards, the instruction word of each format, and the
system status words (R291 to R298, R309, R322, R323). -/

namespace Sys2Proof.Machine

open Sys2Proof

/-! ## Registers (R291) -/

/-- A general register; x0 reads zero. -/
def Core.gx (k : Core) (r : BitVec 5) : BitVec 64 := if r = 0 then 0 else k.x.getD r.toNat 0

/-- Writes a general register; a write of x0 is discarded. -/
def Core.setX (k : Core) (r : BitVec 5) (v : BitVec 64) : Core :=
  if r = 0 then k else { k with x := k.x.putD r.toNat v 0 }

/-- A yield register. -/
def Core.gy (k : Core) (r : BitVec 2) : BitVec 64 := k.y.getD r.toNat 0

/-- Writes a yield register. -/
def Core.setY (k : Core) (r : Nat) (v : BitVec 64) : Core := { k with y := k.y.putD r v 0 }

/-! ## Guards (R291, R294, R298, R322) -/

/-- The vector form of a guard; g0's is all ones. -/
def Core.gvec (k : Core) (n : BitVec 3) : BitVec 256 := if n = 0 then BitVec.allOnes 256 else k.gv.getD n.toNat 0

/-- A guard's scalar value. -/
def Core.guard (k : Core) (n : BitVec 3) : Bool := (k.gvec n).getLsbD 0

/-- A guard has been written since plain mode was entered. -/
def Core.written (k : Core) (n : BitVec 3) : Bool := n == 0 || k.init.getLsbD n.toNat

/-- A guard as the G format reads it: an unwritten one reads 0 in plain mode. -/
def Core.readG (k : Core) (n : BitVec 3) : Bool := if k.plain && !k.written n then false else k.guard n

/-- A guard as a vector mask: an unwritten one masks everything in plain mode. -/
def Core.mask (k : Core) (n : BitVec 3) : BitVec 256 := if k.plain && !k.written n then 0 else k.gvec n

/-- A GOP write: all 256 bits take the result, and the guard is written; a write of g0 is discarded. -/
def Core.setG (k : Core) (n : BitVec 3) (b : Bool) : Core :=
  if n = 0 then k
  else { k with gv := k.gv.putD n.toNat (if b then BitVec.allOnes 256 else 0) 0
                init := k.init ||| (BitVec.ofNat 8 (2 ^ n.toNat)) }

/-- The instruction takes effect: the guard field is a condition in plain mode, and a guard register with INV in normal
service. -/
def Core.takes (k : Core) (g : BitVec 4) : Bool :=
  if k.plain then condHolds g k.fl else k.guard (g.setWidth 3) != g.getLsbD 3

/-! ## Status words (R309) -/

/-- PSTATE. -/
def Core.pstate (k : Core) : BitVec 64 :=
  BitVec.ofNat 64 (b2n k.priv + 2 * b2n k.ie + 4 * b2n k.exl + 8 * b2n k.plain + 16 * b2n k.recov + 256 * k.curPrio.toNat)

/-- The fields of PSTATE that a write reaches. -/
def Core.setPstate (k : Core) (v : BitVec 64) : Core :=
  { k with priv := v.getLsbD 0, ie := v.getLsbD 1, exl := v.getLsbD 2, curPrio := (v >>> 8).setWidth 5 }

/-- GUARDS. -/
def Core.guards (k : Core) : BitVec 64 :=
  let val := ((List.range 8).map fun n => if k.guard (BitVec.ofNat 3 n) then 2 ^ n else 0).sum
  BitVec.ofNat 64 (val + 256 * (1 + 2 * (k.init.toNat / 2)))

/-! ## Words (R293, R323) -/

/-- An instruction word: guard field, major opcode, and the 22 bits of the format. -/
def insnWord (g : BitVec 4) (major : Nat) (low : BitVec 22) : BitVec 32 := g ++ BitVec.ofNat 6 major ++ low

def fmtR (rd rs1 rs2 : BitVec 5) (func : Nat) : BitVec 22 := rd ++ rs1 ++ rs2 ++ BitVec.ofNat 7 func
def fmtI (rd rs1 : BitVec 5) (imm : BitVec 12) : BitVec 22 := rd ++ rs1 ++ imm
def fmtL (rd rs1 : BitVec 5) (sz : BitVec 3) (imm : BitVec 9) : BitVec 22 := rd ++ rs1 ++ sz ++ imm
def fmtS (rs2 rs1 : BitVec 5) (sz : BitVec 2) (imm : BitVec 10) : BitVec 22 := rs2 ++ rs1 ++ sz ++ imm
def fmtW (rd : BitVec 5) (h : Bool) (imm : BitVec 16) : BitVec 22 := rd ++ BitVec.ofBool h ++ imm
def fmtU (rd : BitVec 5) (imm : BitVec 17) : BitVec 22 := rd ++ imm
def fmtG (gd : BitVec 3) (rs1 rs2 : BitVec 5) (cc : BitVec 4) (gfunc : Nat) : BitVec 22 :=
  gd ++ 0#2 ++ rs1 ++ rs2 ++ cc ++ BitVec.ofNat 3 gfunc
def fmtY (r : BitVec 5) (num : BitVec 12) : BitVec 22 := r ++ 0#5 ++ num
def fmtC (cfunc : Nat) (rd rs1 rs2 : BitVec 5) : BitVec 22 := BitVec.ofNat 7 cfunc ++ rd ++ rs1 ++ rs2
def fmtV (vd vs1 vs2 : BitVec 5) (vm : BitVec 3) (func : Nat) : BitVec 22 := vd ++ vs1 ++ vs2 ++ vm ++ BitVec.ofNat 4 func
def fmtVC (gd : BitVec 3) (vs1 vs2 : BitVec 5) (vm : BitVec 3) (func : Nat) : BitVec 22 :=
  0#2 ++ gd ++ vs1 ++ vs2 ++ vm ++ BitVec.ofNat 4 func
def fmtVM (v rs1 rs2 : BitVec 5) (vm : BitVec 3) (sz : BitVec 2) (func : Nat) : BitVec 22 :=
  v ++ rs1 ++ rs2 ++ vm ++ sz ++ BitVec.ofNat 2 func
def fmtVS (rd rs1 : BitVec 5) (imm : BitVec 9) (func : Nat) : BitVec 22 := rd ++ rs1 ++ imm ++ BitVec.ofNat 3 func

/-- A signed immediate scaled by a number of octets. -/
def scaled {n : Nat} (imm : BitVec n) (size : Nat) : BitVec 64 := imm.signExtend 64 * BitVec.ofNat 64 size

/-- The 16-bit constant of LDK and LDKH: zero-extended, or sign-extended when h is 1. -/
def konst (h : Bool) (imm : BitVec 16) : BitVec 64 := if h then imm.signExtend 64 else imm.setWidth 64

/-! ## Cores (R289, R308) -/

/-- The kind of a core: 0 chief, 1 region, 2 sheet. -/
def coreKind (c : Nat) : Nat := if c = 0 then 0 else if c < 5 then 1 else 2

/-- The region of a core. -/
def coreRegion (c : Nat) : Nat := if c = 0 then 0 else if c < 5 then c - 1 else (c - 5) / 16

/-- The unit of a sheet core. -/
def coreUnit (c : Nat) : Nat := 26 * ((c - 5) / 16) + (c - 5) % 16

/-- The coprocessors present on a core (R289). -/
def hasCp (c p : Nat) : Bool := if coreKind c = 1 then p == 6 else coreKind c == 2 && decide (p ≤ 5)

/-- An instruction can be fetched at an address: ROM and instruction SRAM alone (R308). -/
def fetchOk (c : Nat) (pc : BitVec 64) : Bool :=
  let a := pc.toNat
  match coreKind c with
  | 0 => decide (a < 0x10000) || decide (0x100000 ≤ a ∧ a < 0x180000)
  | 1 => decide (a < 0x20000)
  | _ => decide (a < 0x10000)

end Sys2Proof.Machine
end

