-- ==== Sys2Proof/Machine/CpEffects.lean ====
section
/-! DEFINITION. What the coprocessor commands of a sheet do when they run (R318, R335, R336, R338, R339, R349). A
command answers a fault code, or the state after it, its cycles and the value for its rd. -/

namespace Sys2Proof.Machine

open Sys2Proof

/-- What a command answers. -/
abbrev Done := Except Nat (State × Nat × Option (BitVec 64))

/-- A fault code (R338). -/
def CpCmd.faults (_m : CpCmd) (code : Nat) : Done := .error code

/-- Changes a core. -/
def State.onCore (s : State) (c : Nat) (f : Core → Core) : State := s.setCore c (f (s.core c))

/-! ## Sheet SRAM -/

/-- `n` octets from an address lie in sheet SRAM (R308). -/
def inSram (a n : Nat) : Bool := decide (0x200000 ≤ a) && decide (a + n ≤ 0x240000)

/-- Octets of a core's data SRAM. -/
def Core.rdMem (k : Core) (a n : Nat) : Bytes := (List.range n).map fun i => k.dmem.getD (a + i) 0

/-- Writes octets into a core's data SRAM. -/
def Core.wrMem (k : Core) (a : Nat) (b : Bytes) : Core := { k with dmem := putBytes a b k.dmem }

/-- The configuration register of a command, as it stood at issue. -/
def CpCmd.reg (m : CpCmd) (n : Nat) : Nat := (m.cfg.getD n 0).toNat

/-- QMOD at issue. -/
def CpCmd.q (m : CpCmd) : Nat := (m.reg 0) % 2 ^ 32

/-- The operands as addresses or lengths. -/
def CpCmd.x (m : CpCmd) : Nat := m.a.toNat
def CpCmd.y (m : CpCmd) : Nat := m.b.toNat

/-- The words of a polynomial of `n` coefficients. -/
def wordsAt (k : Core) (a n : Nat) : List Nat := (List.range n).map fun i => leNat (k.rdMem (a + 4 * i) 4)

/-- The octets of words. -/
def wordBytes (l : List Nat) : Bytes := (l.map (le 4)).flatten

/-- The least non-negative residue; 0 where the modulus cannot be used (R328). -/
def residue (q : Nat) (v : Int) : Nat := if q < 2 then 0 else (v % (q : Int)).toNat

/-! ## Coprocessor 0: the transform network -/

/-- N. -/
def CpCmd.nttN (m : CpCmd) : Nat := if bitOf (m.reg 0x201) 0 then 512 else 256

/-- LAYERS. -/
def CpCmd.layers (m : CpCmd) : Nat := fieldOf (m.reg 0x201) 1 4

/-- BASEMUL. -/
def CpCmd.pairs (m : CpCmd) : Bool := bitOf (m.reg 0x201) 5

/-- The modulus. -/
def CpCmd.nttQ (m : CpCmd) : Nat := m.reg 0x200

/-- The configuration is legal: Q odd and at least 3, LAYERS in its range. -/
def CpCmd.nttOk (m : CpCmd) : Bool :=
  m.nttQ % 2 == 1 && decide (3 ≤ m.nttQ) && decide (1 ≤ m.layers) && decide (m.layers ≤ if m.nttN = 256 then 8 else 9)

/-- A polynomial operand: in sheet SRAM, aligned to 64 octets. -/
def CpCmd.polyOk (m : CpCmd) (a : Nat) : Bool := a % 64 == 0 && inSram a (4 * m.nttN)

/-- The twiddle tables lie in sheet SRAM. -/
def CpCmd.twOk (m : CpCmd) : Bool := m.reg 0x202 % 4 == 0 && inSram (m.reg 0x202) (10 * m.nttN)

/-- The inverse transform ends with a scale: word 0 of the inverse twiddles (R335, R336). -/
def scaleWords (q z : Nat) (l : List Nat) : List Nat := l.map fun w => w * z % q

/-- NTT.FWD and NTT.INV: the network's own order of twiddles is not laid down, so the transform before the scale is an
uninterpreted function of modulus, configuration, table and polynomial, its outputs taken mod q. -/
def State.nttRun (s : State) (c : Nat) (m : CpCmd) (inverse : Bool) : Done :=
  let k := s.core c
  let n := m.nttN
  if !m.nttOk then m.faults 2
  else if !m.polyOk m.x || !m.twOk then m.faults 1
  else
    let tw := k.rdMem (m.reg 0x202 + if inverse then 4 * n else 0) (4 * n)
    let poly := (wordsAt k m.x n).map (· % m.nttQ)
    let out := fit (4 * n) (Config.prim (if inverse then .nttInverse else .nttForward) (m.reg 0x201) [le 4 m.nttQ, tw, wordBytes poly])
    let z := if inverse then leNat (tw.take 4) else 1
    let r := wordBytes (scaleWords m.nttQ z ((List.range n).map fun i => uAt out (4 * i) 4))
    let cycles := 12 + m.layers * n / 32 + if inverse then n / 16 else 0
    .ok (s.onCore c fun k => k.wrMem m.x r, cycles, none)

/-- Products elementwise. -/
def mulEach (q : Nat) : List Nat → List Nat → List Nat
  | a :: t, b :: u => a * b % q :: mulEach q t u
  | _, _ => []

/-- Products of degree-1 pairs with the pair constants. -/
def mulPairs (q : Nat) : List Nat → List Nat → List Nat → List Nat
  | a0 :: a1 :: t, b0 :: b1 :: u, z :: v =>
    (a0 * b0 + a1 * b1 % q * z) % q :: (a0 * b1 + a1 * b0) % q :: mulPairs q t u v
  | _, _, _ => []

/-- The pointwise product of two operands. -/
def Core.nttProduct (k : Core) (m : CpCmd) : List Nat :=
  let a := wordsAt k m.x m.nttN
  let b := wordsAt k m.y m.nttN
  if m.pairs then mulPairs m.nttQ a b (wordsAt k (m.reg 0x202 + 8 * m.nttN) (m.nttN / 2)) else mulEach m.nttQ a b

/-- Cycles of a product: `base` and N / 16, or 5N / 32 by pairs. -/
def CpCmd.mulCycles (m : CpCmd) (base : Nat) : Nat := base + if m.pairs then 5 * m.nttN / 32 else m.nttN / 16

/-- NTT.PMUL. -/
def State.nttPmul (s : State) (c : Nat) (m : CpCmd) : Done :=
  if !m.nttOk then m.faults 2
  else if !m.polyOk m.x || !m.polyOk m.y || (m.pairs && !m.twOk) then m.faults 1
  else .ok (s.onCore c fun k => k.wrMem m.x (wordBytes (k.nttProduct m)), m.mulCycles 6, none)

/-- Sums modulo q. -/
def addEach (q : Nat) : List Nat → List Nat → List Nat
  | a :: t, b :: u => (a + b) % q :: addEach q t u
  | _, _ => []

/-- NTT.PMACC. -/
def State.nttPmacc (s : State) (c : Nat) (m : CpCmd) : Done :=
  let acc := m.reg 0x203
  if !m.nttOk then m.faults 2
  else if !m.polyOk m.x || !m.polyOk m.y || !m.polyOk acc || (m.pairs && !m.twOk) then m.faults 1
  else
    .ok (s.onCore c fun k => k.wrMem acc (wordBytes (addEach m.nttQ (wordsAt k acc m.nttN) (k.nttProduct m))), m.mulCycles 8, none)

/-! ## Coprocessor 1: the hash unit -/

/-- MODE. -/
def CpCmd.mode (m : CpCmd) : Nat := fieldOf (m.reg 0x210) 0 3

/-- The Keccak rate in octets. -/
def CpCmd.rate (m : CpCmd) : Nat := 8 * fieldOf (m.reg 0x210) 3 5

/-- Octets of a block. -/
def CpCmd.block (m : CpCmd) : Nat := if m.mode = 0 then m.rate else if m.mode = 1 then 64 else 128

/-- P: cycles of one permutation or compression. -/
def CpCmd.perm (m : CpCmd) : Nat := if m.mode = 0 then 12 else if m.mode = 1 then 32 else 40

/-- HASH_CFG is legal. -/
def CpCmd.hashOk (m : CpCmd) : Bool := if m.mode = 0 then decide (72 ≤ m.rate ∧ m.rate ≤ 168) else decide (m.mode ≤ 2)

/-- Octetwise exclusive or of a block into the first octets of a state. -/
def xorInto : Bytes → Bytes → Bytes
  | a :: t, b :: u => (a ^^^ b) :: xorInto t u
  | l, _ => l

/-- The initial hash value of SHA-256 or SHA-512: the state that H.INIT leaves. -/
def shaStart (mode : Nat) : Bytes := sha2Iv (if mode = 1 then 256 else 512)

/-- One compression. -/
def shaBlock (mode : Nat) (st b : Bytes) : Bytes :=
  if mode = 1 then sha256Block (fit 32 st) (fit 64 b) else sha512Block (fit 64 st) (fit 128 b)

/-- One block is processed. -/
def CpCmd.processed (m : CpCmd) (st b : Bytes) : Bytes :=
  if m.mode = 0 then keccakF (xorInto (fit 200 st) b) else shaBlock m.mode (if st = [] then shaStart m.mode else st) b

/-- Processes the whole blocks of a string, `n` of them, and keeps the rest. -/
def CpCmd.blocks (m : CpCmd) : Nat → Bytes → Bytes → Bytes × Bytes
  | 0, st, b => (st, b)
  | n + 1, st, b => m.blocks n (m.processed st (b.take m.block)) (b.drop m.block)

/-- Absorbs a string; a partial block is held. -/
def CpCmd.absorb (m : CpCmd) (u : SheetUnits) (b : Bytes) : SheetUnits × Nat :=
  let all := u.block ++ b
  let n := all.length / m.block
  let (st, rest) := m.blocks n u.hash all
  ({ u with hash := st, block := rest, total := u.total + b.length }, n)

/-- H.ABSORB. -/
def State.hAbsorb (s : State) (c : Nat) (m : CpCmd) : Done :=
  let k := s.core c
  if !m.hashOk then m.faults 2
  else if !inSram m.x m.y then m.faults 1
  else
    let (u, n) := m.absorb k.su (k.rdMem m.x m.y)
    .ok (s.onCore c fun k => { k with su := u }, 2 + m.perm * n, none)

/-- The padding of the last block: Keccak's with DSBYTE, or SHA's with the length in bits. -/
def CpCmd.padding (m : CpCmd) (u : SheetUnits) : Bytes :=
  let n := u.block.length
  if m.mode = 0 then
    let z := 0#8 :: List.replicate (m.rate - n - 1) 0#8
    xorInto (z.take (m.rate - n)) [BitVec.ofNat 8 (fieldOf (m.reg 0x210) 8 8)] |> fun p =>
      p.dropLast ++ [p.getLastD 0 ^^^ 0x80#8]
  else
    let lenBytes := if m.mode = 1 then 8 else 16
    let fill := (m.block - (n + 1 + lenBytes) % m.block) % m.block
    0x80#8 :: List.replicate fill 0#8 ++ (le lenBytes (8 * u.total)).reverse

/-- H.FINAL. -/
def State.hFinal (s : State) (c : Nat) (m : CpCmd) : Done :=
  let u := (s.core c).su
  if !m.hashOk then m.faults 2
  else
    let all := u.block ++ m.padding u
    let (st, _) := m.blocks (all.length / m.block) u.hash all
    .ok (s.onCore c fun k => { k with su := { u with hash := st, block := [], squeezed := 0, final := true } }, 2 + m.perm, none)

/-- `n` octets of the squeeze output from octet `pos` of the current block: the state, the position, the output and the
permutations. -/
def CpCmd.squeeze (m : CpCmd) : Nat → Bytes → Nat → Bytes → Nat → Bytes × Nat × Bytes × Nat
  | 0, st, pos, out, perms => (st, pos, out.reverse, perms)
  | n + 1, st, pos, out, perms =>
    if pos < m.rate then m.squeeze n st (pos + 1) (st.getD pos 0 :: out) perms
    else let st := keccakF st; m.squeeze n st 1 (st.getD 0 0 :: out) (perms + 1)

/-- H.SQUEEZE. -/
def State.hSqueeze (s : State) (c : Nat) (m : CpCmd) : Done :=
  let u := (s.core c).su
  if !m.hashOk then m.faults 2
  else if !inSram m.x m.y then m.faults 1
  else if m.mode = 0 then
    let (st, pos, out, perms) := m.squeeze m.y (fit 200 u.hash) u.squeezed [] 0
    .ok (s.onCore c fun k => { k.wrMem m.x out with su := { u with hash := st, squeezed := pos } }, 2 + m.perm * perms, none)
  else if (if m.mode = 1 then 32 else 64) < m.y then m.faults 5
  else
    let st := if u.hash = [] then shaStart m.mode else u.hash
    .ok (s.onCore c fun k => k.wrMem m.x (st.take m.y), 2, none)

/-- The 256-octet state image; its layout is the model's (log 72). -/
def hashImage (u : SheetUnits) (mode : Nat) : Bytes :=
  let body := if mode = 0 then fit 200 (xorInto (fit 200 u.hash) u.block)
              else fit 200 (fit 64 u.hash ++ fit 128 u.block)
  fit 256 (body ++ le 2 u.block.length ++ le 2 u.squeezed ++ le 1 (b2n u.final) ++ le 1 (b2n (u.hash == [])) ++ le 8 u.total)

/-- The unit that an image restores. -/
def hashOfImage (u : SheetUnits) (mode : Nat) (b : Bytes) : SheetUnits :=
  let n := uAt b 200 2
  { u with
    hash := if uAt b 205 1 = 1 ∧ mode ≠ 0 then [] else if mode = 0 then b.take 200 else if mode = 1 then b.take 32 else b.take 64
    block := if mode = 0 then List.replicate n 0#8 else bytesAt b 64 n
    squeezed := uAt b 202 2, final := uAt b 204 1 == 1, total := uAt b 206 8 }

/-- H.SAVE, refused while KEYED is set. -/
def State.hSave (s : State) (c : Nat) (m : CpCmd) : Done :=
  let u := (s.core c).su
  if !m.hashOk then m.faults 2
  else if u.keyed then m.faults 3
  else if !inSram m.x 256 then m.faults 1
  else .ok (s.onCore c fun k => k.wrMem m.x (hashImage u m.mode), 8, none)

/-- H.LOAD. -/
def State.hLoad (s : State) (c : Nat) (m : CpCmd) : Done :=
  if !m.hashOk then m.faults 2
  else if !inSram m.x 256 then m.faults 1
  else .ok (s.onCore c fun k => { k with su := hashOfImage k.su m.mode (k.rdMem m.x 256) }, 8, none)

/-- H.INIT. -/
def State.hInit (s : State) (c : Nat) : Done :=
  .ok (s.onCore c fun k => { k with su := { k.su with
    hash := [], block := [], total := 0, squeezed := 0, final := false, keyed := false } }, 2, none)

/-! ## Coprocessor 2: the sampler -/

/-- The fields of SMP_CFG. -/
def CpCmd.bits (m : CpCmd) : Nat := fieldOf (m.reg 0x220) 0 5
def CpCmd.eta (m : CpCmd) : Nat := fieldOf (m.reg 0x220) 5 3
def CpCmd.tau (m : CpCmd) : Nat := fieldOf (m.reg 0x220) 8 7
def CpCmd.budget (m : CpCmd) : Nat := fieldOf (m.reg 0x220) 15 5
def CpCmd.unpacks (m : CpCmd) : Bool := bitOf (m.reg 0x220) 20
def CpCmd.gamma (m : CpCmd) : Nat := m.reg 0x222

/-- A sampler's run over `blocks` squeeze blocks: the fault of SHA mode, of an illegal configuration or of a destination
outside sheet SRAM, or its coefficients as `f` makes them from the stream. -/
def State.sample (s : State) (c : Nat) (m : CpCmd) (legal : Bool) (size blocks : Nat) (f : Bytes → List Nat × Nat) : Done :=
  let u := (s.core c).su
  if m.mode ≠ 0 then m.faults 3
  else if !legal || !m.hashOk then m.faults 2
  else if m.x % 4 ≠ 0 || !inSram m.x (4 * size) then m.faults 1
  else
    let (st, pos, out, _) := m.squeeze (blocks * m.rate) (fit 200 u.hash) u.squeezed [] 0
    let (l, n) := f out
    .ok (s.onCore c fun k => { k.wrMem m.x (wordBytes l) with su := { u with hash := st, squeezed := pos, lastCount := n } },
      4 + blocks * (m.perm + 2), none)

/-- The fields of `w` bits of a string, least significant first. -/
def sampleWords (w : Nat) (b : Bytes) : List Nat :=
  let v := leNat b
  (List.range (8 * b.length / w)).map fun i => fieldOf v (w * i) w

/-- SMP.UNIF: candidates below QMOD. -/
def State.smpUnif (s : State) (c : Nat) (m : CpCmd) : Done :=
  if 1023 < m.y then m.faults 5
  else s.sample c m (decide (8 ≤ m.bits ∧ m.bits ≤ 24) && decide (1 ≤ m.budget)) m.y m.budget fun b =>
    let l := ((sampleWords m.bits b).filter (· < m.q)).take m.y
    (l, l.length)

/-- Ones among `n` bits from bit `i`. -/
def onesAt (v i n : Nat) : Nat := ((List.range n).filter fun j => bitOf v (i + j)).length

/-- SMP.CBD: the centred binomial distribution. -/
def State.smpCbd (s : State) (c : Nat) (m : CpCmd) : Done :=
  if 1023 < m.y then m.faults 5
  else s.sample c m (decide (1 ≤ m.eta ∧ m.eta ≤ 4)) m.y (ceilDiv (2 * m.eta * m.y) (8 * m.rate)) fun b =>
    let v := leNat b
    ((List.range m.y).map fun i =>
      residue m.q (onesAt v (2 * m.eta * i) m.eta - onesAt v (2 * m.eta * i + m.eta) m.eta : Int), m.y)

/-- SMP.BOUND: rejection of nibbles in MODE 0, unpacking in MODE 1. -/
def State.smpBound (s : State) (c : Nat) (m : CpCmd) : Done :=
  if 1023 < m.y then m.faults 5
  else if m.unpacks then
    let w := 1 + Nat.log2 m.gamma
    s.sample c m (decide (2 ^ 10 ≤ m.gamma ∧ m.gamma ≤ 2 ^ 20) && m.gamma == 2 ^ Nat.log2 m.gamma) m.y
      (ceilDiv (w * m.y) (8 * m.rate)) fun b =>
        (((sampleWords w b).take m.y).map fun z => residue m.q (m.gamma - z : Int), m.y)
  else
    s.sample c m (decide (1 ≤ m.eta ∧ m.eta ≤ 4) && decide (1 ≤ m.budget)) m.y m.budget fun b =>
      let n := 2 * m.eta + 1
      let l := (((sampleWords 4 b).filter (· < 16 / n * n)).take m.y).map fun z => residue m.q (m.eta - z % n : Int)
      (l, l.length)

/-- SampleInBall over the octets after the signs: `i` is the next position, `t` the number of ones placed. -/
def ballStep (q signs : Nat) : List Byte → Nat → Nat → List Nat → List Nat × Nat
  | [], i, _, l => (l, i)
  | b :: r, i, t, l =>
    if 256 ≤ i then (l, i)
    else if i < b.toNat then ballStep q signs r i t l
    else
      let l := l.set i (l.getD b.toNat 0)
      ballStep q signs r (i + 1) (t + 1) (l.set b.toNat (residue q (if bitOf signs t then -1 else 1)))

/-- SMP.BALL. -/
def State.smpBall (s : State) (c : Nat) (m : CpCmd) : Done :=
  s.sample c m (decide (1 ≤ m.tau ∧ m.tau ≤ 64) && decide (1 ≤ m.budget)) 256 m.budget fun b =>
    ballStep m.q (leNat (b.take 8)) (b.drop 8) (256 - m.tau) 0 (List.replicate 256 0)

/-! ## Coprocessor 3: the binary-field unit -/

/-- The field polynomial. -/
def CpCmd.poly (m : CpCmd) : Nat := m.reg 0x230

/-- Its degree is from 2 to 16. -/
def CpCmd.fieldOk (m : CpCmd) : Bool := decide (4 ≤ m.poly ∧ m.poly < 2 ^ 17)

/-- One step of a product in GF(2^m): `f` counts the bits of `b` still to come. -/
def gfMul (poly : Nat) : Nat → Nat → Nat → Nat → Nat
  | 0, _, _, acc => acc
  | f + 1, a, b, acc =>
    let acc := if b % 2 = 1 then acc ^^^ a else acc
    let a := 2 * a
    let a := if Nat.log2 a = Nat.log2 poly ∧ a ≠ 0 then a ^^^ poly else a
    gfMul poly f a (b / 2) acc

/-- A product of two elements; the bits of an operand beyond the field are ignored. -/
def CpCmd.gf (m : CpCmd) (a b : Nat) : Nat :=
  let n := Nat.log2 m.poly
  gfMul m.poly n (a % 2 ^ n) (b % 2 ^ n) 0

/-- LEN, COLS and D. -/
def CpCmd.len (m : CpCmd) : Nat := fieldOf (m.reg 0x231) 0 16
def CpCmd.cols (m : CpCmd) : Nat := fieldOf (m.reg 0x231) 16 16
def CpCmd.deg (m : CpCmd) : Nat := m.reg 0x232
def CpCmd.dst (m : CpCmd) : Nat := m.reg 0x233

/-- The octets of operand rs1: sheet SRAM, or the secret operand buffer when it is 0. -/
def State.bfOperand (s : State) (c : Nat) (m : CpCmd) (n : Nat) : Bytes :=
  if m.x = 0 then fit n (s.core c).su.secret else (s.core c).rdMem m.x n

/-- Operand rs1 is legal. -/
def CpCmd.bfOk (m : CpCmd) (n : Nat) : Bool := m.x == 0 || (m.x % 2 == 0 && inSram m.x n)

/-- The elements of a string. -/
def elems16 (b : Bytes) : List Nat := (List.range (b.length / 2)).map fun i => uAt b (2 * i) 2

/-- BF.MULV. -/
def State.bfMulv (s : State) (c : Nat) (m : CpCmd) : Done :=
  let n := 2 * m.len
  if !m.fieldOk then m.faults 2
  else if !m.bfOk n || m.y % 2 ≠ 0 || !inSram m.y n then m.faults 1
  else
    let r := (List.zipWith m.gf (elems16 (s.bfOperand c m n)) (elems16 ((s.core c).rdMem m.y n))).map (le 2) |>.flatten
    .ok (s.onCore c fun k =>
      if m.x = 0 then { k with su := { k.su with secret := r ++ k.su.secret.drop n } } else k.wrMem m.x r,
      6 + ceilDiv m.len 16, none)

/-- The octets of bits, least significant first. -/
def packBits (l : List Bool) : Bytes :=
  (List.range (ceilDiv l.length 8)).map fun i =>
    BitVec.ofNat 8 ((List.range 8).map fun j => if l.getD (8 * i + j) false then 2 ^ j else 0).sum

/-- The parity of a number's first `n` bits. -/
def parity (v n : Nat) : Bool := (List.range n).foldl (fun a i => a != bitOf v i) false

/-- BF.MATVEC: rows of whole octets (log 73). -/
def State.bfMatvec (s : State) (c : Nat) (m : CpCmd) : Done :=
  let w := ceilDiv m.cols 8
  if !m.bfOk (m.len * w) || !inSram m.y w || !inSram m.dst (ceilDiv m.len 8) then m.faults 1
  else
    let mat := s.bfOperand c m (m.len * w)
    let v := leNat ((s.core c).rdMem m.y w)
    let r := packBits ((List.range m.len).map fun i => parity (uAt mat (w * i) w &&& v) m.cols)
    .ok (s.onCore c fun k => k.wrMem m.dst r, 6 + m.len * ceilDiv m.cols 1024, none)

/-- BF.EVAL: coefficient i stands at element i. -/
def State.bfEval (s : State) (c : Nat) (m : CpCmd) : Done :=
  let n := 2 * (m.deg + 1)
  if !m.fieldOk || !decide (1 ≤ m.deg ∧ m.deg ≤ 256) then m.faults 2
  else if !m.bfOk n || m.y % 2 ≠ 0 || !inSram m.y (2 * m.len) || m.dst % 2 ≠ 0 || !inSram m.dst (2 * m.len) then m.faults 1
  else
    let co := elems16 (s.bfOperand c m n)
    let r := (elems16 ((s.core c).rdMem m.y (2 * m.len))).map fun p => co.foldr (fun a acc => m.gf acc p ^^^ a) 0
    .ok (s.onCore c fun k => k.wrMem m.dst (r.map (le 2)).flatten, 6 + ceilDiv m.len 16 * (m.deg + 1), none)

/-- BF.BMSTEP: the layout of the iteration's state is not laid down, so its step is an uninterpreted function of the
D + 1 coefficients. -/
def State.bfBmstep (s : State) (c : Nat) (m : CpCmd) : Done :=
  let n := 2 * (m.deg + 1)
  if !m.fieldOk || !decide (1 ≤ m.deg ∧ m.deg ≤ 256) then m.faults 2
  else if m.x % 2 ≠ 0 || !inSram m.x n then m.faults 1
  else
    let r := fit n (Config.prim .bmStep m.y [le 4 m.poly, (s.core c).rdMem m.x n])
    .ok (s.onCore c fun k => k.wrMem m.x r, 4 + 3 * ceilDiv (m.deg + 1) 16, none)

/-! ## Coprocessor 4: the key port (R339) -/

/-- The handle that KEY_A or KEY_B of the sheet's current operation names. -/
def State.portHandle (s : State) (c idx : Nat) : Nat :=
  match (s.unitSt (coreUnit c)).job with
  | .op i => (match s.ctxs.find i with | some x => if idx = 0 then x.keyA else x.keyB | none => 0)
  | .check i => (match s.ctxs.find i with | some x => if idx = 0 then x.keyA else x.keyB | none => 0)
  | .prepare h _ => if idx = 0 then h else 0
  | .treeBatch id _ => if idx = 0 then (match s.stateful.keys.find id with | some x => x.handle | none => 0) else 0
  | _ => 0

/-- The two shares of a resident key that the sheet's operation may take: those it holds since its launch (R144), otherwise
those of its region's key cache. -/
def State.keyShares (s : State) (c h : Nat) : Option Residency :=
  let held := match (s.unitSt (coreUnit c)).job with
    | .op i => (s.ctxs.find i).bind fun x => x.shares.find? fun y => y.handle == h
    | .check i => (s.ctxs.find i).bind fun x => x.shares.find? fun y => y.handle == h
    | _ => none
  match held with
  | some y => some y
  | none => if (s.liveKey h).isSome then s.residency (coreRegion c) h else none

/-- What stands under an index of the key port, in two shares: 0 KEY_A, 1 KEY_B, 2 the draw buffer, whose second share is
zero. -/
def State.portShares (s : State) (c idx : Nat) : Option (Bytes × Bytes) :=
  if idx = 2 then
    let d := (s.core c).su.drawBuf
    if d = [] then none else some (List.replicate d.length 0#8, d)
  else if 2 < idx then none
  else (s.keyShares c (s.portHandle c idx)).map fun y => (y.share0, y.share1)

/-- KP.SEL. -/
def State.kpSel (s : State) (c : Nat) (m : CpCmd) : Done :=
  match s.portShares c m.x with
  | none => m.faults 4
  | some b => .ok (s.onCore c fun k => { k with su := { k.su with sel := some m.x } }, 8, some (BitVec.ofNat 64 b.2.length))

/-- The octets of the selected material that an offset and a length name: the shares arrive apart and are recombined in the
unit that takes them (R339). -/
def State.kpBytes (s : State) (c : Nat) (m : CpCmd) : Option Bytes :=
  match (s.core c).su.sel with
  | none => none
  | some i => match s.portShares c i with
    | none => none
    | some (s0, s1) => if m.x + m.y ≤ s1.length then some (xorBytes (bytesAt s1 m.x m.y) (bytesAt s0 m.x m.y)) else none

/-- KP.ABSORB: into the hash unit, which becomes KEYED. -/
def State.kpAbsorb (s : State) (c : Nat) (m : CpCmd) : Done :=
  if !m.hashOk then m.faults 2
  else match s.kpBytes c m with
    | none => m.faults 4
    | some b =>
      let (u, n) := m.absorb (s.core c).su b
      .ok (s.onCore c fun k => { k with su := { u with keyed := true } }, 4 + (2 + m.perm * n), none)

/-- KP.BFLOAD: into the secret operand buffer. -/
def State.kpBfload (s : State) (c : Nat) (m : CpCmd) : Done :=
  if 16384 < m.y then m.faults 5
  else match s.kpBytes c m with
    | none => m.faults 4
    | some b => .ok (s.onCore c fun k => { k with su := { k.su with secret := b } }, 4 + ceilDiv m.y 64, none)

/-- KP.DROP. -/
def State.kpDrop (s : State) (c : Nat) : Done :=
  .ok (s.onCore c fun k => { k with su := { k.su with sel := none, secret := [] } }, 2, none)

/-! ## Coprocessor 5: the random port (R339) -/

/-- The instance behind the port: the region's INT, or the hatching stream's while the sheet hatches. -/
def State.portDrbg (s : State) (c : Nat) : Nat :=
  if (s.unitSt (coreUnit c)).job = .hatch then 9 + coreRegion c else coreRegion c

/-- RP.MSEED. -/
def State.rpMseed (s : State) (c : Nat) (m : CpCmd) : Done :=
  if !s.serves (s.portDrbg c) then m.faults 0x10
  else
    let (b, s) := s.drawFrom (s.portDrbg c) 32
    .ok (s.onCore c fun k => { k with su := { k.su with maskSeed := some b, rpCtr := 0 } }, 20, none)

/-- RP.DRAW. -/
def State.rpDraw (s : State) (c : Nat) (m : CpCmd) : Done :=
  if m.x < 1 ∨ 128 < m.x then m.faults 5
  else if !s.serves (s.portDrbg c) then m.faults 0x10
  else
    let (b, s) := s.drawFrom (s.portDrbg c) m.x
    .ok (s.onCore c fun k => { k with su := { k.su with drawBuf := b } }, 8 + ceilDiv m.x 16, none)

/-- Word `n` of the mask stream of a seed; a generator without a seed runs on the zeroed one. -/
def maskWord (u : SheetUnits) (n : Nat) : BitVec 32 :=
  BitVec.ofNat 32 (leNat (fit 4 (Config.prim .maskStream n [u.maskSeed.getD (List.replicate 32 0#8)])))

/-- RP.MASKV: the active elements of vd take the next words; C format has no mask field, so every element below the
captured VL is active. -/
def State.rpMaskv (s : State) (c : Nat) (m : CpCmd) : Done :=
  .ok (s.onCore c fun k =>
    { k with
      v := (List.range m.vl).foldl (fun t e => t.putD (256 * m.rd + e) (maskWord k.su (k.su.rpCtr + e)) 0) k.v
      su := { k.su with rpCtr := (k.su.rpCtr + m.vl) % 2 ^ 32 } }, 8 + ceilDiv m.vl 32, none)

/-! ## Coprocessor 6: the big-number engines (R318, R349) -/

/-- The engine number on the device. -/
def bneOf (c i : Nat) : Nat := 4 * coreRegion c + i

/-- Its unit number. -/
def bneUnit (c i : Nat) : Nat := 26 * coreRegion c + 16 + i

/-- The descriptor has no field outside its legal values. -/
def State.descOk (s : State) (d : Bytes) : Bool :=
  let g := s.start.image
  let op := uAt d 0 1
  let fl := uAt d 2 1
  let p := uAt d 4 4
  let ticks := uAt d 8 4
  let lane := uAt d 0x0C 2
  g.hasEntry 4 op && decide (1 ≤ uAt d 1 1 ∧ uAt d 1 1 ≤ 7) && decide (fl < 32) &&
  g.params.any (fun r => uAt r 0 4 == p) && (p / 65536 == 0x20 || p / 65536 == 0x18) &&
  decide (1 ≤ ticks ∧ ticks ≤ 1000) && (paramGroup p != 0x20 || curveForm p != 0 || zeroAt d 0x18 8) && (if bitOf fl 2 then decide (lane < 16) else lane == 0) && zeroAt d 0x0E 2 &&
  zeroAt d 0x28 24

/-- An engine whose TICKS have passed shows DONE, with the number of that tick (R48); an illegal descriptor shows FAULT with it. What the microprogram leaves
in OPS and its verdict are uninterpreted functions of descriptor and operand memory. -/
def State.engineDue (s : State) (e : Nat) : State :=
  let x := s.engine e
  if x.busy ∧ x.ends ≤ s.now then
    let ok := s.descOk x.desc
    let mem := (List.range 64).map fun i => fit 576 (x.ops.getD i [])
    let ops := if ok then (List.range 64).map fun i => (i, fit 576 (Config.prim .enginePart (1 + i) (x.desc :: mem))) else x.ops
    let verdict := ok && uAt (fit 1 (Config.prim .enginePart 0 (x.desc :: mem))) 0 1 % 2 == 1
    let y : EngineSt := { x with busy := false, done := true, fault := !ok, reject := verdict, doneTick := s.datum.v / 1000, ops := ops }
    { s with engines := s.engines.put e y }
  else s

/-- BNLAUNCH: rd = 0 when accepted, 1 when the engine is busy; an accepted operation starts at the next boundary. -/
def State.bnLaunch (s : State) (c : Nat) (m : CpCmd) (cycles : Nat) : Done :=
  if 4 ≤ m.x ∨ m.y % 64 ≠ 0 ∨ m.y < 0x200000 ∨ 0x240000 < m.y + 64 then m.faults 1
  else
    let e := bneOf c m.x
    let s := s.engineDue e
    let x := s.engine e
    if x.busy || x.done || decide (s.now < x.freeAt) || decide ((s.unitSt (bneUnit c m.x)).job ≠ .idle) ||
       !s.working (bneUnit c m.x) then .ok (s, cycles, some 1)
    else
      let d := (s.core c).rdMem m.y 64
      let y : EngineSt := { x with busy := true, desc := d, ends := s.now + 1 + uAt d 8 4, reject := false, fault := false }
      .ok ({ s with engines := s.engines.put e y }, cycles, some 0)

/-- BNPOLL: the completion word. -/
def State.bnPoll (s : State) (c : Nat) (m : CpCmd) (cycles : Nat) : Done :=
  if 4 ≤ m.x then m.faults 1
  else
    let s := s.engineDue (bneOf c m.x)
    let x := s.engine (bneOf c m.x)
    let w := b2n x.done + 2 * b2n x.reject + 4 * b2n x.fault + 2 ^ 32 * (if x.done then x.doneTick % 2 ^ 32 else 0)
    .ok (s, cycles, some (BitVec.ofNat 64 w))

/-- BNCLEAR: acknowledges DONE; the engine is free from the next boundary. -/
def State.bnClear (s : State) (c : Nat) (m : CpCmd) (cycles : Nat) : Done :=
  if 4 ≤ m.x then m.faults 1
  else
    let e := bneOf c m.x
    let s := s.engineDue e
    let x := s.engine e
    let y : EngineSt := if x.done then { x with done := false, reject := false, fault := false, freeAt := s.now + 1 } else x
    .ok ({ s with engines := s.engines.put e y }, cycles, none)

/-! ## Dispatch by coprocessor and cfunc -/

/-- The effect of a command on coprocessor `p`. The spec gives coprocessor 6 no cycle counts: its commands take from 1 to
64 cycles, as R317 bounds them, and `free` picks them. -/
def State.cpEffect (s : State) (c p : Nat) (m : CpCmd) : Done :=
  let free := (Config.freeWord s.free).toNat % 64 + 1
  match p, m.fn with
  | 0, 0x01 => s.nttRun c m false
  | 0, 0x02 => s.nttRun c m true
  | 0, 0x03 => s.nttPmul c m
  | 0, 0x04 => s.nttPmacc c m
  | 1, 0x01 => s.hInit c
  | 1, 0x02 => s.hAbsorb c m
  | 1, 0x03 => s.hFinal c m
  | 1, 0x04 => s.hSqueeze c m
  | 1, 0x05 => s.hSave c m
  | 1, 0x06 => s.hLoad c m
  | 2, 0x01 => s.smpUnif c m
  | 2, 0x02 => s.smpCbd c m
  | 2, 0x03 => s.smpBound c m
  | 2, 0x04 => s.smpBall c m
  | 3, 0x01 => s.bfMulv c m
  | 3, 0x02 => s.bfMatvec c m
  | 3, 0x03 => s.bfEval c m
  | 3, 0x04 => s.bfBmstep c m
  | 4, 0x01 => s.kpSel c m
  | 4, 0x02 => s.kpAbsorb c m
  | 4, 0x03 => s.kpBfload c m
  | 4, 0x04 => s.kpDrop c
  | 5, 0x01 => s.rpMseed c m
  | 5, 0x02 => s.rpDraw c m
  | 5, 0x03 => s.rpMaskv c m
  | 6, 0x01 => { s with free := s.free + 1 }.bnLaunch c m free
  | 6, 0x02 => { s with free := s.free + 1 }.bnPoll c m free
  | 6, 0x03 => { s with free := s.free + 1 }.bnClear c m free
  | _, _ => .ok (s, 1, none)

/-- The commands that return a value in an x register (R318, R336). -/
def returnsX (p fn : Nat) : Bool := (p == 4 && fn == 1) || (p == 6 && (fn == 1 || fn == 2))

end Sys2Proof.Machine
end

