-- ==== Sys2Proof/Machine/Graticule.lean ====
section
/-! DEFINITION. The datum and the tick (R35 to R47, R58). -/

namespace Sys2Proof.Machine

open Sys2Proof

/-! ## What a boundary does once its datum is settled -/

/-- A waiting command whose deadline this boundary decides (R58). -/
def State.deadlineOf (s : State) (c : Ctx) : Option Nat :=
  if decide (c.phase = .waiting) && !s.blocked c then s.deadlineTest c else none

/-- Decides every waiting command whose deadline has passed or cannot be decided (R58). -/
def State.deadlineSweep (s : State) : State :=
  s.ctxs.foldl (fun t p => match s.deadlineOf p.2 with | some st => t.refuse p.1 st | none => t) s

/-- The last work of a boundary: deadlines, then debug rights (R58, R423). -/
def State.boundaryEnd (s : State) : State :=
  if s.unsettled then s else if s.serving then s.deadlineSweep.debugRights else s.debugRights

/-- The datum enters UNTRUSTED when U reaches the cap (R45). -/
def State.capTest (s : State) : State :=
  if s.trusted && decide (s.datum.cap ≤ s.datum.unc) then
    let s := { s with datum := { s.datum with st := .untrusted } }
    s.raise Ev.dtmUntrusted Origin.atlas (s.datum.cap / 1000000)
  else s

/-! ## TICK_BOUNDARY -/

/-- The datum one tick later (R36, R45): the bounds move with V once a token has been applied, and every 50th tick
since then a widening falls due. -/
def Datum.tick (d : Datum) : Datum :=
  if d.st = .unset then { d with v := d.v + 1000 }
  else { d with v := d.v + 1000, lo := d.lo + 1000, hi := d.hi + 1000, since := d.since + 1
                widenDue := (d.since + 1) % 50 == 0 }

/-- The operating seconds one microsecond later (R385). -/
def Recorder.tick (l : Recorder) : Recorder :=
  if l.opTicks + 1 = 1000000 then { l with opTicks := 0, opSeconds := l.opSeconds + 1 }
  else { l with opTicks := l.opTicks + 1 }

/-- A working unit that runs nothing at a boundary at which its benchmark falls due (R54). -/
def State.benchDue (s : State) (u : Nat) : Bool :=
  s.serving && s.mayLaunch u && s.jobFree u && (decide (unitKind u < 2) || s.lanesFree u) &&
  decide ((s.unitSt u).lastBench + 2000 ≤ s.now)

/-- Hatching takes one tick; a sheet clears itself at its end (R53, R341). -/
def State.endHatching (s : State) : State :=
  ((List.range 104).filter fun u => (s.unitSt u).job == .hatch && decide ((s.unitSt u).ends ≤ s.now)).foldl State.endUnit s

/-- The benchmarks that a boundary launches on units that run nothing: never more than 2,000 ticks after the last (R54). -/
def State.dueBenchmarks (s : State) : State :=
  ((List.range 104).filter s.benchDue).foldl (fun t u => t.startBench u ((t.unitSt u).currentSet u) false) s

/-- The engines whose launches by their region cores end at this boundary (R318, R349). -/
def State.enginesDue (s : State) : State := (List.range 16).foldl State.engineDue s

/-- One microsecond of reference time: a tick boundary while the graticule runs (R36, R48). Without power nothing
moves; a boundary waits for the datum work of the one before it (R38). -/
def execTickBoundary (s : State) : Out :=
  if !s.start.vddGood || s.unsettled then .next s
  else
    let s := { s with now := s.now + 1, log := s.log.tick
                      start := { s.start with tokenTicks := s.start.tokenTicks + 1 } }
    let s := s.sweepKeys.releaseDrained.clearWaits.endHatching
    if s.start.grat then .next ({ s with datum := s.datum.tick }).enginesDue.dueBenchmarks.boundaryEnd
    else .next s

/-- A token is to be applied at this boundary. -/
def State.tokenDue (s : State) : Bool := s.datum.tokens.any fun t => decide (t.accepted < s.now)

/-- The bounds spread by 1 ns at each 50th tick since the last applied token (R45). A token due at the same boundary goes
first and restarts the count (R38). -/
def execDatumHoldoverWiden (s : State) : Out :=
  if s.datum.widenDue && !s.tokenDue then
    let d := s.datum
    let s := { s with datum := { d with lo := d.lo - 1, hi := d.hi + 1, widenDue := false } }
    .next s.capTest.boundaryEnd
  else .next s

/-! ## Challenges and tokens -/

/-- Draws a challenge from the atlas INT instance; it voids the open one (R40). -/
def State.newChallenge (s : State) : Bytes × State :=
  let (c, s) := s.drawFrom 4 16
  (c ++ le 8 s.datum.v, { s with datum := { s.datum with chal := some (c, s.now) } })

/-- The SMBus paths of DATUM_CHALLENGE and DATUM_TOKEN are open from the DATUM stage on (R406); the status before. -/
def State.smbDatum (s : State) : Option Nat :=
  if s.integ.safe then some St.integrityAlarm
  else if s.start.stage < Stage.datum then some St.busy
  else none

/-- SMBus answers device commands: a start runs and is neither FAILED nor LOCKED (R397). -/
def State.smbOpen (s : State) : Bool :=
  s.started && decide (s.start.stage ≠ Stage.locked) && decide (s.start.stage ≠ Stage.failed) &&
  decide (s.start.stage ≠ 0)

def execDatumChallenge (via : Via) (s : State) : Out :=
  match via with
  | .queue i =>
    .next (s.runCore i 0x6001 fun _ s =>
      match s.drawState 4 with
      | .failed => s.refuse i St.entropyFailed
      | .waits => s.awaitDraw i
      | .serves => let (out, s) := s.newChallenge; s.answer i out)
  | .smbus p =>
    if !s.smbOpen then .next s
    else match s.smbDatum with
      | some st => .next (s.smbAnswer st)
      | none =>
        if p.length ≠ 0 then .next (s.smbAnswer St.malformed)
        else match s.drawState 4 with
          | .failed => .next (s.smbAnswer St.entropyFailed)
          | .waits => .next (s.smbAnswer St.entropyWait)
          | .serves => let (out, s) := s.newChallenge; .next (s.smbAnswer St.ok out)

/-- The fields of a datum token that R42 tests, other than its signature. The challenge of a token that only awaits its
boundary is taken, and its sequence number counts as the counter's (R43): that token is applied first, and closes the
challenge (DEDUCED, log 122). -/
def tokenFields (d : Datum) (p : Bytes) : Bool :=
  uAt p 0x00 2 == 1 && uAt p 0x02 2 == 0 && uAt p 0x1C 4 == 0 &&
  decide (uAt p 0x18 4 ≤ uAt p 0x10 8) && decide (uAt p 0x10 8 < 2 ^ 63) &&
  decide (uAt p 0x04 4 < d.authKeys.length) &&
  (match d.chal with | some (c, _) => decide (bytesAt p 0x20 16 = c) | none => false) &&
  d.tokens.all (fun t => decide (t.chal ≠ bytesAt p 0x20 16) && decide (t.seq < uAt p 0x08 8)) &&
  decide (d.tokSeq < uAt p 0x08 8) && decide (0 < uAt p 0x18 4) && decide (uAt p 0x18 4 < d.cap)

/-- The token's signature (R41). -/
def tokenSigned (d : Datum) (p : Bytes) : Bool :=
  mldsaOk 0x00110002 (d.authKeys.getD (uAt p 0x04 4) []) (ascii "MAELARN-DATUM") (bytesAt p 0 0x30) (p.drop 0x30)

/-- The token that an accepted payload becomes. -/
def tokenOf (d : Datum) (p : Bytes) (now : Nat) (ctx : Option Nat) : Token :=
  { seq := uAt p 0x08 8, time := uAt p 0x10 8, unc := uAt p 0x18 4, keyId := uAt p 0x04 4,
    issued := (match d.chal with | some (_, b) => b | none => 0), accepted := now, ctx, chal := bytesAt p 0x20 16 }

/-- A rejected token counts and raises its event (R42, R60, R392). -/
def State.rejectToken (s : State) (p : Bytes) : State :=
  let s := { s with datum := { s.datum with rejected := satAdd 16 s.datum.rejected 1 } }
  s.raise Ev.dtmTokenRejected Origin.atlas (uAt p 0x04 4)

/-- The status that decides a token at once, or none when it is accepted (R42). -/
def tokenVerdict (d : Datum) (p : Bytes) : Option Nat :=
  if p.length ≠ 3357 then some St.malformed
  else if tokenFields d p && tokenSigned d p then none
  else some St.inputRejected

/-- An accepted token waits for its boundary (R42, R44). -/
def State.acceptToken (s : State) (p : Bytes) (ctx : Option Nat) : State :=
  { s with datum := { s.datum with tokens := s.datum.tokens ++ [tokenOf s.datum p s.now ctx] } }

def execDatumToken (via : Via) (s : State) : Out :=
  match via with
  | .queue i =>
    .next (s.runCore i 0x6002 fun c s =>
      match tokenVerdict s.datum c.payload with
      | none => (s.acceptToken c.payload (some i)).setCtx i fun c => { c with phase := .running, progress := s.now }
      | some st => (if st = St.inputRejected then s.rejectToken c.payload else s).refuse i st)
  | .smbus p =>
    if !s.smbOpen then .next s
    else match s.smbDatum with
      | some st => .next (s.smbAnswer st)
      | none =>
        match tokenVerdict s.datum p with
        | none => .next (s.acceptToken p none)
        | some st => .next ((if st = St.inputRejected then s.rejectToken p else s).smbAnswer st)

/-- Rounds up to a whole microsecond, half nanoseconds included: `x2` is twice the time. -/
def ceilUs2 (x2 : Nat) : Nat := ceilDiv x2 2000 * 1000

/-- The reference time elapsed since the challenge with its drift bound (R44). -/
def tokenDelay (issued now : Nat) : Nat := ceilDiv ((now - issued) * 1000 * 50001) 50000

/-- The token interval I (R44). -/
def tokenLow (t : Token) : Nat := t.time - t.unc
def tokenHigh (t : Token) (now : Nat) : Nat := t.time + tokenDelay t.issued now + t.unc

/-- The token interval meets the bounds. -/
def tokenMeets (d : Datum) (t : Token) (now : Nat) : Bool :=
  decide (max (tokenLow t) d.lo ≤ min (tokenHigh t now) d.hi)

/-- The datum after the oldest accepted token (R44), the events apart. -/
def Datum.applyToken (d : Datum) (t : Token) (now : Nat) : Datum :=
  let joined := decide (d.st = .trusted) && tokenMeets d t now
  let lo := if joined then max (tokenLow t) d.lo else tokenLow t
  let hi := if joined then min (tokenHigh t now) d.hi else tokenHigh t now
  let v := max d.v (ceilUs2 (lo + hi))
  let hi := max hi v
  { d with v, lo, hi, st := if max (v - lo) (hi - v) < d.cap then .trusted else .untrusted
           tokSeq := t.seq, vAtToken := v, since := 0, widenDue := false, tokens := d.tokens.drop 1
           chal := match d.chal with
                   | some (c, b) => if c = t.chal then none else some (c, b)
                   | none => none }

/-- A token whose interval misses the trusted bounds (R44). -/
def State.conflictEvent (s : State) (t : Token) : State :=
  if s.trusted && !tokenMeets s.datum t s.now then
    let s := { s with datum := { s.datum with conflicts := satAdd 16 s.datum.conflicts 1 } }
    s.raise Ev.dtmConflict Origin.atlas t.seq t.keyId
  else s

/-- The events of a change of state by a token (R45). -/
def State.stateEvent (s : State) (old : DatumState) (seq : Nat) : State :=
  if s.datum.st = old then s
  else match s.datum.st with
    | .trusted => s.raise Ev.dtmTrusted Origin.atlas (min (s.unc / 1000) (maxOf 32)) seq
    | .untrusted => s.raise Ev.dtmUntrusted Origin.atlas (s.datum.cap / 1000000)
    | .unset => s

/-- Answers the token's sender with the snapshot (R39, R406). -/
def State.tokenReply (s : State) (t : Token) : State :=
  match t.ctx with
  | some i => s.answer i s.datum.snapshot
  | none => s.smbAnswer St.ok s.datum.snapshot

def execDatumTokenApply (s : State) : Out :=
  match s.datum.tokens with
  | [] => .next s
  | t :: _ =>
    if s.now ≤ t.accepted then .next s
    else
      let old := s.datum.st
      let s := s.conflictEvent t
      let s := { s with datum := s.datum.applyToken t s.now }
      .next ((s.stateEvent old t.seq).tokenReply t).acquired.boundaryEnd

/-- A challenge closes 10 s of reference time after its issue (R40). -/
def execDatumChallengeExpire (s : State) : Out :=
  match s.datum.chal with
  | some (_, b) =>
    if b + 10000000 ≤ s.now then .next { s with datum := { s.datum with chal := none } } else .next s
  | none => .next s

/-- DATUM_READ answers the snapshot at its boundary (R39, R446). -/
def execDatumRead (ctx : Nat) (s : State) : Out :=
  .next (s.runCore ctx 0x6003 fun _ s => s.answer ctx s.datum.snapshot)

/-! ## Phase refinement (R47) -/

/-- The nearest whole second; a time half a second from two of them goes to the later (DESIGN CHOICE, log 123: R47 says
only "nearest"). -/
def nearestSecond (ns : Nat) : Nat := (ns + 500000000) / 1000000000 * 1000000000

/-- A refinement is applied: TRUSTED, S above e and at most HI (R47). -/
def Datum.refinable (d : Datum) (r : Refine) : Bool :=
  decide (d.st = .trusted) && decide (r.sample8 < 8 * r.target) && decide (r.target ≤ d.hi)

/-- Counts an ignored refinement of a source. -/
def Datum.ignored (d : Datum) (pps : Bool) : Datum :=
  if pps then { d with ppsIgnored := satAdd 8 d.ppsIgnored 1 } else { d with ptmIgnored := satAdd 8 d.ptmIgnored 1 }

/-- A sample waits for the next boundary, which evaluates it against the bounds that the boundary's token leaves (R38). -/
def Datum.offer (d : Datum) (pps : Bool) (target e8 now : Nat) : Datum :=
  { d with refine := d.refine ++ [{ pps, target, sample8 := e8, accepted := now }] }

/-- A rising edge `subNs` ns after the last boundary: V at the edge is V at that boundary (R38). -/
def execDatumPpsEdge (subNs : Nat) (s : State) : Out :=
  if !s.start.grat || !s.datum.ppsEn then .next s
  else
    let at' := s.now * 1000 + subNs
    let d := s.datum
    let inTime := match d.lastPps with
      | none => true
      | some b => decide (b + 900000000 ≤ at' ∧ at' ≤ b + 1100000000)
    if inTime then
      .next { s with datum := ({ d with lastPps := some at' }).offer true (nearestSecond d.v) (8 * d.v) s.now }
    else .next { s with datum := d.ignored true }

/-- A PTM exchange whose request left `cycles` sheet cycles after the last boundary. -/
def execPtmExchange (master : Nat) (cycles : Nat) (ok : Bool) (s : State) : Out :=
  if !s.start.grat || !s.datum.ptmEn then .next s
  else
    let d := s.datum
    let at' := s.now * 1000 + cycles * 5 / 8
    let early := match d.lastPtmTry with
      | none => false
      | some b => decide (at' < b + 1000000000)
    if early then .next s
    else
      let d := { d with lastPtmTry := some at' }
      if ok then
        .next { s with datum := ({ d with lastPtm := some at' }).offer false master (8 * d.v + 5 * cycles) s.now }
      else .next { s with datum := d }

/-- What a refinement makes of the datum at its boundary: V moves forward by S - e rounded up to whole microseconds. -/
def Datum.refineBy (d : Datum) (r : Refine) : Datum :=
  let step := ceilDiv (8 * r.target - r.sample8) 8000 * 1000
  if d.refinable r then
    if r.pps then { d with v := d.v + step, ppsApplied := satAdd 8 d.ppsApplied 1 }
    else { d with v := d.v + step, ptmApplied := satAdd 8 d.ptmApplied 1 }
  else d.ignored r.pps

def execDatumRefineApply (s : State) : Out :=
  match s.datum.refine with
  | [] => .next s
  | r :: rest =>
    if s.now ≤ r.accepted || s.datum.widenDue || s.tokenDue then .next s
    else .next ({ s with datum := ({ s.datum with refine := rest }).refineBy r }).capTest.boundaryEnd

end Sys2Proof.Machine
end

