-- ==== Sys2Proof/Machine/Schedule.lean ====
section
/-! DEFINITION. The work of sheets and engines on the graticule: launches, completions, checks, reruns, legs and benchmarks
(R48 to R51, R54, R55, R358 to R363). -/

namespace Sys2Proof.Machine

open Sys2Proof

/-! ## OPERATION_LAUNCH -/

/-- Runs `go` on unit `u` once randomness, the lane of an EdDSA signature and a benchmark that comes first allow it (R54,
R152, R206). -/
def State.onUnit (s : State) (i u : Nat) (draws lane : Bool) (piece set : Nat) (go : State → State) : State :=
  match (if draws then s.drawState (unitRegion u) else DrawState.serves) with
  | .failed => s
  | .waits => s.awaitDraw i
  | .serves =>
    if !lane then s
    else match s.benchFirst u piece set with
    | some b => s.startBench u b false
    | none => go s

/-- The lane that a part needs beside its engine is there. -/
def State.laneThere (s : State) (c : Ctx) (p : Part) (r : Nat) : Bool := !c.laneFor p || (s.laneToReserve r).isSome

/-- The tests that come before the free unit: those of a stateful signature (R167); of another command they run at its
launch boundary (R143). -/
def State.earlyGate (s : State) (i : Nat) (c : Ctx) : Gate :=
  if c.opcode = 0x1302 ∨ c.opcode = 0x1402 then s.gate i c else .passed s

/-- The first launch of a command. At the boundary at which it would launch, it runs the tests of R143 and R167; then its
first part starts. -/
def State.firstLaunch (s : State) (i u : Nat) (c : Ctx) : State :=
  let plan := s.plan c
  let r := unitRegion u
  if !s.ripeAny c || plan.isEmpty || !s.slabsDone c || s.anchorWaits c then s
  else match s.deadlineTest c with
    | some st => s.refuse i st
    | none =>
      if !(plan.all fun p => s.anyR19 p.kind) then s.refuse i St.unitFault
      else match s.earlyGate i c with
      | .refused st => s.refuse i st
      | .waits => s
      | .passed _ =>
        let parts := plan ++ c.parts
        match nextPart false (unitKind u) parts with
        | none => s
        | some k =>
          match parts[k]? with
          | none => s
          | some p =>
            if p.draws ≠ 0 ∧ s.drawState r = .failed then s.refuse i St.entropyFailed
            else if !s.unitFree u || !(plan.all fun p => s.meetsR19 r p.kind) || !s.keysReady c r ||
                (!c.parts.isEmpty && decide (r ≠ c.region) && s.meetsR19 c.region p.kind) then s
            else s.onUnit i u (p.draws != 0) (s.laneThere c p r) p.firstPiece p.fam fun s =>
              match s.gate i c with
              | .refused st => s.refuse i st
              | .waits => s
              | .passed t => (((t.anchorReserve c).setCtx i fun c => { c with parts := parts }).markLaunch i).startPart i k u p 0

/-- The launch of a further part of a command, in the region of the first (R141, R190). A dropped command launches no more
(R192). -/
def State.laterLaunch (s : State) (i u : Nat) (c : Ctx) : State :=
  let parts := s.moreParts c ++ c.parts
  match nextPart false (unitKind u) parts with
  | none => s
  | some k =>
    match parts[k]? with
    | none => s
    | some p =>
      let r := unitRegion u
      let here := decide (r = c.region) || !s.meetsR19 c.region p.kind
      if c.drop then s
      else if !s.anyR19 p.kind then s.failWith i St.unitFault
      else if p.draws ≠ 0 ∧ s.drawState r = .failed then s.failWith i St.entropyFailed
      else if !s.unitFree u || !here || !s.meetsR19 r p.kind || !s.keysReady c r then s
      else s.onUnit i u (p.draws != 0) (s.laneThere c p r) p.firstPiece p.fam fun s =>
        (s.setCtx i fun c => { c with parts := parts }).startPart i k u p 0

/-- What OPERATION_LAUNCH does with a command, whoever's turn it is. -/
def State.launchOn (s : State) (i u : Nat) : State :=
  match s.ctxs.find i with
  | none => s
  | some c =>
    if c.phase = .waiting then s.firstLaunch i u c
    else if c.phase = .running ∧ s.serving ∧ !s.unsettled then s.laterLaunch i u c
    else s

/-! ## OPERATION_COMPLETE -/

/-- A part that ends on its unit at this boundary. -/
def Part.endsNow (now : Nat) (p : Part) : Bool := !p.slab && decide (p.phase = .running) && decide (p.ends ≤ now)

/-- The rejection-loop cap has been reached (R137): 256 iterations are not enough. -/
def State.capped (s : State) (c : Ctx) (p : Part) : Bool := p.mergeable && decide (256 < s.loopsOf c p p.draw)

/-- What is left of a part at the end of a leg. RSA key generation goes on with another candidate, or with the finishing of
the key once the candidates drawn make one (R209). -/
def Part.nextPieces (p : Part) (e : Nat) : List Nat :=
  if p.left.isEmpty && p.rsaLoop && !p.finishing then
    (if (p.rsaKey e).isSome then defaultLegs p.ticks else [p.iter])
  else p.left

/-- The unit of a part ends its leg: a further leg follows, or the part awaits its check, or the loop cap counts as a
transient of the unit (R49, R51, R137). -/
def State.endLeg (s : State) (i k u : Nat) (c : Ctx) (p : Part) : State :=
  let s := s.freeUnit u
  let next := p.nextPieces (keygenE c.payload)
  if !next.isEmpty then
    let q := { p with phase := .between, left := next, finishing := p.finishing || (p.rsaKey (keygenE c.payload)).isSome }
    s.setCtx i fun c => { c with parts := c.parts.set k q, progress := s.now }
  else if s.capped c p then (((s.endUnit u).clearEngine u).charge u 5).withhold i k
  else ((s.endUnit u).clearEngine u).setCtx i fun c => { c with parts := c.parts.set k { p with phase := .done }, progress := s.now }

/-- A unit finishes a part of a command; RANDOM_BYTES, which takes no unit, ends its formation time (R286). -/
def execOperationComplete (ctx : Nat) (s : State) : Out :=
  match s.ctxs.find ctx with
  | none => .next s
  | some c =>
    if c.phase ≠ .running then .next s
    else if c.parts.isEmpty then
      match c.bearingEnd with
      | some b => if b ≤ s.now then .next (s.settle ctx) else .next s
      | none => .next s
    else match firstIdx (Part.endsNow s.now) c.parts with
      | none => .next s
      | some k =>
        match c.parts[k]? with
        | none => .next s
        | some p =>
          match p.unit with
          | none => .next s
          | some u => .next (s.endLeg ctx k u c p)

/-! ## Checks -/

/-- Launches the check of part `k` on unit `u`. -/
def State.startCheck (s : State) (i k u : Nat) (c : Ctx) (p : Part) : State :=
  let draw := drawBytes s.free p.checkDraws
  let s := s.drawFor (unitRegion u) u p.checkDraws
  let (leg, left) := match defaultLegs p.check with | t :: l => (t, l) | [] => (0, [])
  let q := { p with phase := .checking, checkUnit := some u, ends := s.now + leg, left := left }
  let s := s.loadEngine c u p.fam draw (p.checkDraws != 0)
  let s := s.setUnit u fun x => x.takes (.check i) (s.now + leg) p.fam
  s.setCtx i fun c => { c with parts := c.parts.set k q, progress := s.now, waitFrom := none }

/-- The check of a finished part launches on a partner: another working unit of its kind in its region (R18, R51,
R359). Where the region has none left, the part is rerun elsewhere (R360). -/
def State.tryCheck (s : State) (i k u v : Nat) (c : Ctx) (p : Part) : State :=
  let r := unitRegion v
  if !s.meetsR19 r p.kind then s.withhold i k
  else if unitRegion u ≠ r ∨ unitKind u ≠ p.kind ∨ u = v then s
  else if p.checkDraws ≠ 0 ∧ s.drawState r = .failed then s.failWith i St.entropyFailed
  else if !s.unitFree u || s.passedOver u v then s
  else
    let l := match defaultLegs p.check with | t :: _ => t | [] => 0
    s.onUnit i u (p.checkDraws != 0) true l p.fam fun s => s.startCheck i k u c p

/-- What CHECK_LAUNCH does with a command, whoever's turn it is. -/
def State.checkOn (s : State) (i u : Nat) : State :=
  match s.ctxs.find i with
  | none => s
  | some c =>
    if c.phase ≠ .running || !s.serving || s.unsettled then s
    else match firstIdx (fun p => !p.slab && decide (p.phase = .done)) c.parts with
      | none => s
      | some k =>
        match c.parts[k]? with
        | none => s
        | some p =>
          match p.unit with
          | none => s
          | some v => s.tryCheck i k u v c p

/-- A part whose check ends at this boundary. -/
def Part.checkEnds (now : Nat) (p : Part) : Bool := !p.slab && decide (p.phase = .checking) && decide (p.ends ≤ now)

/-- The check of part `k` ends with the verdict given; a mismatch charges both units (R51, R358). -/
def State.endCheck (s : State) (i k u v : Nat) (p : Part) (ok : Bool) : State :=
  let s := s.freeUnit u
  if !p.left.isEmpty then
    s.setCtx i fun c => { c with parts := c.parts.set k { p with phase := .between }, progress := s.now }
  else
    let s := (s.endUnit u).clearEngine u
    if ok then (s.setCtx i fun c => { c with parts := c.parts.set k { p with phase := .passed }, progress := s.now }).settle i
    else ((s.charge v 1).charge u 1).withhold i k

def execCheckComplete (ctx : Nat) (ok : Bool) (s : State) : Out :=
  match s.ctxs.find ctx with
  | none => .next s
  | some c =>
    if c.phase ≠ .running then .next s
    else match firstIdx (Part.checkEnds s.now) c.parts with
      | none => .next s
      | some k =>
        match c.parts[k]? with
        | none => .next s
        | some p =>
          match p.unit, p.checkUnit with
          | some v, some u => .next (s.endCheck ctx k u v p ok)
          | _, _ => .next s

/-! ## Reruns (R360, R361) -/

/-- The rerun of a withheld part on another unit, in the launching region while that takes such work, otherwise in
another region that does. -/
def State.tryRerun (s : State) (i k u : Nat) (c : Ctx) (p : Part) : State :=
  let r := unitRegion u
  if c.drop then s
  else if !s.anyR19 p.kind then s.failWith i St.unitFault
  else if p.draws ≠ 0 ∧ s.drawState r = .failed then s.failWith i St.entropyFailed
  else if !s.unitFree u || unitKind u ≠ p.kind || p.unit == some u || !s.meetsR19 r p.kind ||
      (decide (r ≠ c.region) && s.meetsR19 c.region p.kind) || !s.keysReady c r then s
  else s.onUnit i u (p.draws != 0) (s.laneThere c p r) p.firstPiece p.fam fun s => s.startPart i k u p (p.retries + 1)

/-- What RERUN_LAUNCH does with a command, whoever's turn it is. -/
def State.rerunOn (s : State) (i u : Nat) : State :=
  match s.ctxs.find i with
  | none => s
  | some c =>
    if c.phase ≠ .running || !s.serving || s.unsettled then s
    else match firstIdx (fun p => !p.slab && decide (p.phase = .withheld)) c.parts with
      | none => s
      | some k =>
        match c.parts[k]? with
        | none => s
        | some p => s.tryRerun i k u c p

/-! ## Legs (R49, R54, R148) -/

/-- The unit that a part between two legs holds. -/
def Part.holder (p : Part) : Option Nat := match p.checkUnit with | some u => some u | none => p.unit

/-- The next leg of part `k` starts on its unit, after a benchmark where one is due. A further RSA candidate is drawn
fresh (R209, R217). -/
def State.startLeg (s : State) (i k u : Nat) (p : Part) : State :=
  let x := s.unitSt u
  let r := unitRegion u
  let checking := p.checkUnit.isSome
  let fresh := p.rsaLoop && !p.finishing && !checking
  let l := match p.left with | t :: _ => t | [] => 0
  if fresh ∧ s.drawState r = .failed then (s.clearEngine u).failWith i St.entropyFailed
  else s.onUnit i u fresh true l p.fam fun s =>
    let n := s.free
    let s := if fresh then (s.drawFrom r (rsaLen p.fam / 2)).2 else s
    let room := x.lastBench + 2000 - s.now
    let (leg, left) := if checking then (l, p.left.tail) else p.nextLeg room p.left
    let q := { p with phase := if checking then .checking else .running, ends := s.now + leg, left := left
                      cands := if fresh then p.cands ++ [n] else p.cands }
    let s := s.setUnit u fun x => x.takes (if checking then .check i else .op i) (s.now + leg) p.fam
    s.setCtx i fun c => { c with parts := c.parts.set k q, progress := s.now, waitFrom := none }

def execLegLaunch (ctx : Nat) (s : State) : Out :=
  match s.ctxs.find ctx with
  | none => .next s
  | some c =>
    if c.phase ≠ .running || !s.serving || s.unsettled then .next s
    else match firstIdx (fun p => decide (p.phase = .between)) c.parts with
      | none => .next s
      | some k =>
        match c.parts[k]? with
        | none => .next s
        | some p =>
          match p.holder with
          | none => .next s
          | some u => if s.mayLaunch u && s.jobFree u then .next (s.startLeg ctx k u p) else .next s

/-! ## Benchmarks and hatching -/

/-- BENCHMARK_LAUNCH: the benchmark of the unit's current family, or the confirming re-run of the one that mismatched
(R52, R54, R362). `fam` is the family's number. -/
def execBenchmarkLaunch (u fam : Nat) (s : State) : Out :=
  if 104 ≤ u then .fault .noSuchUnit
  else if !s.serving || !s.start.grat then .next s
  else
    let x := s.unitSt u
    match x.job with
    | .bench p true =>
      if x.ends = 0 ∧ famOf p = fam ∧ s.working u then .next (s.startBench u p true) else .next s
    | _ =>
      if s.mayLaunch u && s.jobFree u && (decide (unitKind u < 2) || s.lanesFree u) &&
          famOf (x.currentSet u) == fam then .next (s.startBench u (x.currentSet u) false)
      else .next s

/-- A benchmark mismatch (R362, R372). -/
def State.mismatch (s : State) (u : Nat) (f : UnitSt → UnitSt) : State :=
  let s := s.setUnit u f
  { s with integ := { s.integ with mismatches := satAdd 32 s.integ.mismatches 1 } }

/-- The benchmark of a unit ends: a mismatch is confirmed by the same benchmark once more; a confirmed one retires the
unit (R362, R363). -/
def execBenchmarkComplete (u : Nat) (ok : Bool) (s : State) : Out :=
  if 104 ≤ u then .fault .noSuchUnit
  else
    let x := s.unitSt u
    match x.job with
    | .bench p confirm =>
      if x.ends = 0 ∨ s.now < x.ends then .next s
      else
      let s := s.clearSheet u
      if ok then
        if confirm then .next ((s.setUnit u fun x => { x with job := .idle, mode := .suspect }).charge u 6)
        else .next (s.setUnit u fun x => { x with job := .idle, needBench := false })
      else if confirm then .next (s.mismatch u fun x => { x with job := .idle, needBench := false })
      else .next (s.mismatch u fun x => { x with job := .bench p true, ends := 0, mode := .confirming, needBench := true })
    | _ => .next s

end Sys2Proof.Machine
end

