-- ==== Sys2Proof/Machine/Entropy.lean ====
section
/-! DEFINITION. The entropy source, its health tests, the DRBG instances and the random commands (R272 to R288). -/

namespace Sys2Proof.Machine

open Sys2Proof

/-- Changes the entropy source. -/
def State.setRng (s : State) (f : Rng → Rng) : State := { s with rng := f s.rng }

/-- RNG_STATUS.STATE (R288). -/
def Rng.code (g : Rng) : Nat :=
  match g.stage with
  | .off => 0
  | .balancing => if g.restart then 4 else 1
  | .startupTest => if g.restart then 4 else 2
  | .running => 3
  | .halted => 5

/-- The health failures of the last 1,000 ms. -/
def Rng.recent (g : Rng) (now : Nat) : List Nat := g.failures.filter fun b => decide (now ≤ b + 1000000)

/-! ## Halting (R285) -/

/-- Every command that waits for randomness fails (R285). -/
def State.failWaiting (s : State) : State :=
  s.ctxs.foldl (fun t p =>
    if !p.2.awaits then t
    else if p.2.phase = .waiting then t.refuse p.1 St.entropyFailed
    else t.failWith p.1 St.entropyFailed) s

/-- Random service halts for a reason: 0 halt mode, 1 third failure, 2 DRBG fault. -/
def State.haltRandom (s : State) (reason : Nat) : State :=
  let s := (s.setRng fun g => { g with stage := .halted, restart := false, fresh := [] }).failWaiting
  let s := { s with integ := { s.integ with alarmOut := true } }
  s.raise Ev.rngHalted Origin.atlas reason

/-- A DRBG fault (R279). -/
def State.drbgFault (s : State) (d : Nat) : State :=
  let s := (s.setRng fun g => { g with drbgFault := true }).raise Ev.rngDrbgFault
    (if d = 4 then Origin.atlas else Origin.region (if d < 4 then d else (d - 5) % 4)) d
  if s.rngHalted then s else s.haltRandom 2

/-! ## Demands for conditioned output (R280) -/

/-- Bits of conditioned output that a RANDOM_BYTES needs: 384 for a reseed with prediction resistance, whole blocks for
FRESH (R286). -/
def freshBits (b : Bytes) : Nat :=
  match randomKind b with
  | 1 => 384
  | 2 => 256 * ceilDiv (uAt b 0 4) 32
  | _ => 0

/-- The bits that the waiting demand of an instance still needs: 512 to instantiate it, 384 to reseed it. -/
def Drbg.needs (x : Drbg) : Nat := if !x.seeded then 512 - x.got else if x.due then 384 - x.got else 0

/-- An instance that has received its bits. -/
def Drbg.filled (x : Drbg) (now : Nat) : Drbg :=
  { x with seeded := true, last := now, requests := 0, kat := if x.seeded then x.kat else now, reseeds := if x.seeded then satAdd 32 x.reseeds 1 else x.reseeds
           stopped := false, due := false, got := 0 }

/-- Gives an instance up to `n` bits; answers what is left of them. -/
def Drbg.take (x : Drbg) (now n : Nat) : Drbg × Nat :=
  let k := min n x.needs
  if k = 0 then (x, n)
  else if k = x.needs then (x.filled now, n - k)
  else ({ x with got := x.got + k }, n - k)

/-- An instance that has no entry yet. -/
def State.drbg (s : State) (d : Nat) : Drbg := s.rng.drbgs.getD d Drbg.reset

/-- Serves the demands of a list of instances, in order, when `p` holds of them. -/
def serveList (now : Nat) (p : Drbg → Bool) : List Nat → Nat → Tab Drbg → Nat × Tab Drbg
  | [], n, t => (n, t)
  | d :: l, n, t =>
    let x := t.getD d Drbg.reset
    if p x then
      let (y, m) := x.take now n
      serveList now p l m (t.put d y)
    else serveList now p l n t

/-- Serves DRBG_PR and FRESH in order of arrival. -/
def serveFresh : List (Nat × Nat) → Nat → List (Nat × Nat)
  | [], _ => []
  | (i, k) :: l, n => (i, k - min k n) :: serveFresh l (n - min k n)

/-- Gives 256 bits to the waiting demands in the order of R280: instantiations, then the reseeds of the atlas INT, region
INT, HOST and HATCH instances, then DRBG_PR and FRESH; what none needs is discarded. -/
def Rng.allot (g : Rng) (now : Nat) : Rng :=
  let order := [4, 0, 1, 2, 3, 5, 6, 7, 8, 9, 10, 11, 12]
  let (n, t) := serveList now (fun x => !x.seeded) order 256 g.drbgs
  let (n, t) := serveList now (fun x => x.seeded && x.due) order n t
  { g with drbgs := t, fresh := serveFresh g.fresh n }

/-! ## Health failures (R274 to R276, R283, R284) -/

/-- The code of a test in RNG_TEST_FAIL. -/
def testCode : HealthTest → Nat
  | .rct => 0
  | .apt => 1
  | .balance => 2

/-- Counts a failure by its test. -/
def Rng.count (g : Rng) (t : HealthTest) : Rng :=
  match t with
  | .rct => { g with rct := satAdd 8 g.rct 1 }
  | .apt => { g with apt := satAdd 8 g.apt 1 }
  | .balance => { g with balance := satAdd 8 g.balance 1 }

/-- The bits in hand of every demand are discarded (R283). -/
def State.discardBits (s : State) : State :=
  s.setRng fun g => { g with
    drbgs := g.drbgs.mapVals fun _ x => { x with got := 0 }
    fresh := g.fresh.map fun p => (p.1, match s.ctxs.find p.1 with | some c => freshBits c.payload | none => p.2) }

/-- A health failure of the source: blocks not yet delivered are discarded; the source restarts, or halts in halt mode
and at the third failure within 1,000 ms. -/
def State.healthFail (s : State) (t : HealthTest) (cell : Nat) : State :=
  let l := s.rng.recent s.now ++ [s.now]
  let s := s.discardBits.setRng fun g => { g.count t with failures := l }
  let s := s.raise Ev.rngTestFail Origin.atlas (testCode t) cell l.length
  if s.rng.mode then s.haltRandom 0
  else if 3 ≤ l.length then s.haltRandom 1
  else s.setRng fun g =>
    { g with stage := .balancing, restart := true, stageFrom := s.now
             cells := g.cells.mapVals fun _ x => { x with balanced := false, since := s.now } }

/-- The source has been started and has not halted. -/
def State.sourceOn (s : State) : Bool := decide (s.rng.stage ≠ .off) && decide (s.rng.stage ≠ .halted)

/-- The continuous tests run on the samples of this stage; while balancing only the balance itself is watched. -/
def State.testsRun (s : State) (t : HealthTest) : Bool :=
  s.sourceOn && (decide (t = .balance) || decide (s.rng.stage ≠ .balancing))

/-- A test of a cell fails (R274, R275): a run of 61 equal bits, 811 samples of 1,024 that equal the first, a trim at a
limit. -/
def State.testFails (s : State) (t : HealthTest) (cell value : Nat) : Bool :=
  let trim := (s.rng.cells.getD cell RngCell.reset).trim
  match t with
  | .rct => decide (61 ≤ value)
  | .apt => decide (811 ≤ value ∧ value ≤ 1024)
  | .balance => trim == 0 || trim == 4095

/-- What a test of a cell's samples shows: the length of a run, the count of a window. -/
def execHealthFailure (test : HealthTest) (cell : Nat) (s : State) (value : Nat := 0) : Out :=
  if 8 ≤ cell then .fault .noSuchSensor
  else if s.testsRun test && s.testFails test cell value then .next (s.healthFail test cell)
  else .next s

/-- The trim after a window: unchanged at equal counts; otherwise the loop's step is not given, and it is a free value
(R272). -/
def State.newTrim (s : State) (x : RngCell) (ones : Nat) : Nat × State :=
  if ones = 512 then (x.trim, s) else ((Config.freeWord s.free).toNat % 4096, { s with free := s.free + 1 })

/-- A trim within the balance range (R275). -/
def inRange (trim : Nat) : Bool := decide (1 ≤ trim ∧ trim ≤ 4094)

/-- A balancing has lasted 36 ms (R276). -/
def State.balancedOut (s : State) : Bool := decide (s.rng.stage = .balancing) && decide (s.rng.stageFrom + 36000 ≤ s.now)

/-- A window of 1,024 samples of a cell, one each microsecond, ends; a trim at a limit is a balance failure (R272, R275). A
cell converges with the first window of a balancing that leaves it within its range, by 36 ms (R276; log 43). -/
def execBalanceWindow (cell ones : Nat) (s : State) : Out :=
  if 8 ≤ cell then .fault .noSuchSensor
  else
    let x := s.rng.cells.getD cell RngCell.reset
    if !s.sourceOn || decide (1024 < ones) || decide (s.now < x.since + 1024) then .next s
    else
      let (trim, s) := s.newTrim x ones
      let y : RngCell := { trim := trim, ones := ones, balanced := x.balanced || !s.balancedOut, since := s.now }
      if inRange trim then .next (s.setRng fun g => { g with cells := g.cells.put cell y })
      else .next ((s.setRng fun g => { g with cells := g.cells.put cell { y with balanced := false } }).healthFail .balance cell)

/-- A cell that has not converged 36 ms into balancing (R276, R284); a balancing that has gone beyond that has not
converged either. -/
def execBalanceTimeout (cell : Nat) (s : State) : Out :=
  if 8 ≤ cell then .fault .noSuchSensor
  else if s.balancedOut ∧ (!(s.rng.cells.getD cell RngCell.reset).balanced ∨ s.rng.stageFrom + 36000 < s.now) then
    .next (s.healthFail .balance cell)
  else .next s

/-- Every cell has counted a window in this balancing and lies within its range. -/
def State.converged (s : State) : Bool := (List.range 8).all fun i => (s.rng.cells.getD i RngCell.reset).balanced

/-- The source's next stage: the start-up tests once every cell has converged, within 36 ms; running once they have taken
1.024 ms and the known-answer tests have passed, which ends a restart (R276, R284). `failed` names the known-answer test
that fails: that of an instance's AES core, or 13 for SHA-384 conditioning; it is a DRBG fault (R279), that of the
conditioning reported for the atlas instance (log 119). -/
def execSourceStageComplete (s : State) (failed : Option Nat := none) : Out :=
  match s.rng.stage with
  | .balancing =>
    if s.converged && decide (s.now ≤ s.rng.stageFrom + 36000) then
      .next (s.setRng fun g => { g with stage := .startupTest, stageFrom := s.now })
    else .next s
  | .startupTest =>
    if s.now < s.rng.stageFrom + 1024 then .next s
    else match failed with
    | some d => .next (s.drbgFault (if d < 13 then d else 4))
    | none =>
      let again := s.rng.restart
      let s := s.setRng fun g =>
        { g with stage := .running, restart := false, stageFrom := s.now, blockFrom := s.now
                 restarts := satAdd 8 g.restarts (b2n again), restartsTotal := g.restartsTotal + b2n again }
      .next (if again then s.raise Ev.rngRestarted Origin.atlas s.rng.restartsTotal else s)
  | _ => .next s

/-! ## Conditioned output and the DRBG instances (R273, R277 to R280) -/

/-- A block of 768 raw bits is conditioned, 96 µs after the one before it; the 13th instantiation seeds the service. -/
def execConditionedBlock (s : State) : Out :=
  if s.rng.stage ≠ .running ∨ s.now < s.rng.blockFrom + 96 then .next s
  else
    let before := s.everySeeded
    let s := s.setRng fun g => { g.allot s.now with blockFrom := s.now }
    let s := if !before && s.everySeeded then s.raise Ev.rngSeeded Origin.atlas ((s.now - s.rng.started) / 1000) else s
    .next (if s.start.stage = Stage.hbm then s.leaveHbm else s.seeded)

/-- The reseed period of an instance, in µs. -/
def reseedPeriod (d : Nat) : Nat := if d < 9 then 10000 else 1000000

def execDrbgReseed (d : Nat) (s : State) : Out :=
  if 13 ≤ d then .fault .noSuchSensor
  else
    let x := s.drbg d
    if x.seeded && !s.rngHalted && !x.due && decide (x.last + reseedPeriod d ≤ s.now) then
      .next (s.setRng fun g => { g with drbgs := g.drbgs.put d { x with due := true } })
    else .next s

/-- An INT or HOST instance at its reseed limit stops serving until it reseeds (R278). -/
def execDrbgReseedLimit (d : Nat) (s : State) : Out :=
  if 13 ≤ d then .fault .noSuchSensor
  else
    let x := s.drbg d
    if x.seeded && x.past d s.now then
      .next (s.setRng fun g => { g with drbgs := g.drbgs.put d { x with stopped := true, due := true } })
    else .next s

/-- A test of an instance is due: its known-answer test every 60 s while it runs and when it is being instantiated, the
comparison of its pair at every output (R279). -/
def State.drbgTested (s : State) (d : Nat) (t : DrbgTest) : Bool :=
  let x := s.drbg d
  match t with
  | .periodic => x.seeded && decide (x.kat + 60000000 ≤ s.now)
  | .instantiation => !x.seeded && decide (s.rng.stage = .running)
  | .pair => x.seeded

/-- A test of an instance ends; a failed one is a DRBG fault (R279). -/
def execDrbgPeriodicKat (d : Nat) (test : DrbgTest) (s : State) (ok : Bool := true) : Out :=
  if 13 ≤ d then .fault .noSuchSensor
  else if !s.drbgTested d test then .next s
  else if !ok then .next (s.drbgFault d)
  else if test = .pair then .next s
  else .next (s.setRng fun g => { g with drbgs := g.drbgs.put d { s.drbg d with kat := s.now } })

/-! ## Waiting commands (R282) -/

/-- A command has waited RNG_WAIT for a draw that random service still cannot give; a deadline that falls at the same
boundary comes first (R58). -/
def execRngWaitExpire (ctx : Nat) (s : State) : Out :=
  match s.ctxs.find ctx with
  | none => .next s
  | some c =>
    match c.waitFrom with
    | none => .next s
    | some b =>
      if c.phase.decided || s.unsettled || s.drawReady ctx c || decide (s.now < b + 1000 * s.rng.waitMs) then .next s
      else
        let s := s.setRng fun g => { g with fresh := g.fresh.filter fun p => p.1 ≠ ctx }
        if c.phase = .waiting then .next (s.refuse ctx ((s.deadlineTest c).getD St.entropyWait))
        else .next (s.failWith ctx St.entropyWait)

/-! ## RANDOM_BYTES and RANDOM_STATUS (R286, R287) -/

/-- Launches a RANDOM_BYTES whose bits are in hand: its bytes, of the HOST instance or fresh, leave after the generation
time. -/
def State.launchRandom (s : State) (i : Nat) (c : Ctx) : State :=
  let n := uAt c.payload 0 4
  let d := 5 + c.region
  let x := s.drbg d
  let pr := randomKind c.payload == 1
  let y := if pr then x.filled s.now else x
  let z := if randomKind c.payload = 2 then x else { y with requests := y.requests + ceilDiv n 65536 }
  let out := drawBytes s.free n
  let t := { s with free := s.free + 1 }
  let t := t.setRng fun g => { g with drbgs := g.drbgs.modify d fun _ => z, fresh := g.fresh.filter fun p => p.1 ≠ i }
  (t.setCtx i fun c => { c with phase := .running, result := some (Result.output out), waitFrom := none,
                                bearingEnd := some (s.now + max 1 (ceilDiv n 16384)) }).markLaunch i

/-- A DRBG_PR or FRESH request joins the demands, after those that arrived no later (R280). -/
def State.demand (s : State) (i : Nat) (c : Ctx) : State :=
  if s.rng.fresh.any fun p => p.1 == i then s
  else
    let earlier := fun p : Nat × Nat => match s.ctxs.find p.1 with | some d => decide (d.accepted ≤ c.accepted) | none => true
    s.setRng fun g => { g with fresh := g.fresh.takeWhile earlier ++ (i, freshBits c.payload) :: g.fresh.dropWhile earlier }

def execRandomBytes (ctx : Nat) (s : State) : Out :=
  .next (s.runCore ctx 0x5001 fun c s =>
    match s.chargeSlice 0x5001 c.slice with
    | .error st => s.refuse ctx st
    | .ok t =>
      if s.rngHalted then s.refuse ctx St.entropyFailed
      else if randomKind c.payload = 0 then
        (if s.serves (5 + c.region) then t.launchRandom ctx c else s.awaitDraw ctx)
      else if s.everySeeded && s.inHand ctx then t.launchRandom ctx c
      else (s.demand ctx c).awaitDraw ctx)

/-- Every instance of a region is seeded. -/
def State.regionSeeded (s : State) (r : Nat) : Bool := (s.drbg r).seeded && (s.drbg (5 + r)).seeded && (s.drbg (9 + r)).seeded

/-- The seeded mask: bit 0 the atlas INT instance, bits 1 to 4 the regions. -/
def State.seededMask (s : State) : Nat :=
  b2n (s.drbg 4).seeded + ((List.range 4).map fun r => 2 ^ (r + 1) * b2n (s.regionSeeded r)).sum

def execRandomStatus (ctx : Nat) (s : State) : Out :=
  .next (s.runCore ctx 0x5002 fun _ s =>
    s.answer ctx (le 4 s.rng.code ++ le 4 (b2n s.rng.mode) ++ le 4 (s.rng.recent s.now).length ++ le 4 s.seededMask))

end Sys2Proof.Machine
end

