-- ==== Sys2Proof/Machine/EventCtl.lean ====
section
/-! DEFINITION. The event controller's commands: coalescing timers, masks and class routing (R375 to R378, R382). -/

namespace Sys2Proof.Machine

open Sys2Proof

/-- The timer of a vector runs out: the vector fires at the first boundary at or after start + TIMER_US (R377). Vectors from
0x700 on coalesce nothing. -/
def execCoalesceTimerExpire (v : Nat) (s : State) : Out :=
  if 0x700 ≤ v then .next s
  else
    let c := s.coalOf v
    if s.ready && decide (0 < c.seen) && decide (c.started + c.timer ≤ s.now) then .next (s.fire v) else .next s

/-- A vector's mask bit takes a value; clearing the last mask over a pending vector sends one message (R377, R378). -/
def State.maskVector (v : Nat) (mask : Bool) (s : State) : State :=
  let s := { s with events := { s.events with
    msix := s.events.msix.putD v { s.msixEntry v with mask := mask } MsixEntry.reset } }
  if mask then s else s.releasePending v

/-- A write of Vector Control. Beyond the table of 2,048 entries it is ignored, as every reserved offset's is (R376, R393). -/
def execMsixVectorMaskWrite (v : Nat) (mask : Bool) (s : State) : Out :=
  if 2048 ≤ v then .next s
  else if !s.ready then .next s
  else .next (s.maskVector v mask)

/-- Function Mask (R376, R377): clearing it releases every pending vector whose own mask is clear. -/
def execMsixFunctionMaskWrite (mask : Bool) (s : State) : Out :=
  if !s.ready then .next s
  else
    let s := { s with events := { s.events with fnMask := mask } }
    .next (if mask then s else s.events.pba.keys.foldl State.releasePending s)

/-- A vector belongs to a slice's MSI-X block. -/
def State.inSliceBlock (s : State) (v : Nat) : Bool := (s.vectorSlice v).isSome

/-- HOST_SOURCE and HOST_EN of a class are written, unless the source is a slice's or internal (R375). -/
def State.classWrite (cl w : Nat) (s : State) : State :=
  let src := fieldOf w 0 11
  if 0x700 ≤ src || s.inSliceBlock src then
    { s with events := { s.events with routeErr := satAdd 16 s.events.routeErr 1 } }
  else
    let k := { s.evClass cl with hostSource := src, hostEn := bitOf w 11 }
    { s with events := { s.events with classes := s.events.classes.putD cl k EvClass.reset } }

/-- A write of EVC_CLASS[c] by the host; INT_EN is locked. Beyond the 256 entries it is ignored (R393). -/
def execEvcClassWrite (cl : Nat) (v : BitVec 32) (s : State) : Out :=
  if 256 ≤ cl then .next s
  else if !s.ready then .next s
  else .next (s.classWrite cl v.toNat)

/-- A write of EVC_INT_ROUTE[c].MASK: only the chief core's takes effect (R382); beyond the 256 entries none does. -/
def execEvcIntRouteMaskWrite (cl : Nat) (mask chief : Bool) (s : State) : Out :=
  if 256 ≤ cl then .next s
  else if chief && s.start.fuseRead then .next (s.setRoute cl fun r => { r with mask := mask })
  else .next s

end Sys2Proof.Machine
end

