-- ==== Sys2Proof/Machine/Registers.lean ====
section
/-! DEFINITION. The registers of the control window: what each one reads, which fields a read clears, and what a write
does (R10 to R13, R24, R60, R123, R124, R243, R271, R288, R354, R372, R376, R393, R397, R411, R424). -/

namespace Sys2Proof.Machine

open Sys2Proof

/-- A register as it reads: whether it is 64 bits wide, and its value. -/
abbrev RegVal := Bool × Nat

/-- A 32-bit register that reads 0 until a condition holds. -/
def r32 (valid : Bool) (v : Nat) : Option RegVal := some (false, if valid then v % 2 ^ 32 else 0)

/-- A 64-bit register that reads 0 until a condition holds. -/
def r64 (valid : Bool) (v : Nat) : Option RegVal := some (true, if valid then v % 2 ^ 64 else 0)

/-- The number whose bit `i` is `p i`, for `i` below `n`. -/
def bitsOf (n : Nat) (p : Nat → Bool) : Nat := ((List.range n).map fun i => if p i then 2 ^ i else 0).sum

/-- The number whose field `i` of `w` bits is `f i`, for `i` below `n`. -/
def fieldsOf (w n : Nat) (f : Nat → Nat) : Nat := ((List.range n).map fun i => f i % 2 ^ w * 2 ^ (w * i)).sum

/-! ## Values -/

/-- DEV_IDENT: part, stepping A1, family Maelarn (R24). -/
def devIdent : Nat := 0x01A16424

/-- DEV_STRUCT (R24). -/
def State.devStruct (s : State) : Nat :=
  let n := fun k => ((List.range 4).map (s.workingIn · k)).sum
  n 0 + n 1 * 2 ^ 7 + n 2 * 2 ^ 12 + n 3 * 2 ^ 17 + bitsOf 4 (fun r => !s.regionRetired r) * 2 ^ 21 +
  b2n (decide (n 0 < 16)) * 2 ^ 25

/-- RGN_UNIT_STATE[r] (R24). -/
def State.rgnUnitState (s : State) (r : Nat) : Nat :=
  bitsOf 26 (fun n => !(s.unitSt (26 * r + n)).retired) + b2n (s.regionRetired r) * 2 ^ 31

/-- A reference time in ns lies less than 1.1 s back (R60). -/
def State.lately (s : State) (t : Option Nat) : Bool :=
  match t with | some ns => decide (s.now * 1000 < ns + 1100000000) | none => false

/-- DTM_STATUS. -/
def State.dtmStatus (s : State) : Nat :=
  s.datum.st.code + 4 * b2n s.datum.chal.isSome + 8 * b2n (s.lately s.datum.lastPps) + 16 * b2n (s.lately s.datum.lastPtm)

/-- The five datum registers of the snapshot as they stand. -/
def State.datumNow (s : State) : DatumSnap :=
  { v := s.datum.v, lo := s.datum.lo, hi := s.datum.hi, u := s.unc, status := s.dtmStatus }

/-- The five datum registers as they read (R60). -/
def State.datumShown (s : State) : DatumSnap := s.datum.snap.getD s.datumNow

/-- Slots in a state. -/
def State.slotsIn (s : State) (p : SlotSt → Bool) : Nat := (s.keys.slots.vals.filter fun x => p x.st).length

/-- KST_STATUS (R271): the first three bits are valid from the end of PUF regeneration. -/
def State.kstStatus (s : State) : Nat :=
  b2n s.keys.rootReady + 2 * b2n s.keys.helperA + 4 * b2n s.keys.helperB +
  (if s.ready then
    8 * b2n s.keys.vaultReady + 16 * b2n (s.keys.chain != []) +
    32 * b2n (lcClass s.lcs.code == 0 && s.lcs.inForce.isNone) + 64 * s.keys.signer
  else 0)
/-- An instance has been instantiated. -/
def State.seededDrbg (s : State) (d : Nat) : Bool := match s.rng.drbgs.find d with | some x => x.seeded | none => false

/-- RNG_STATUS. -/
def State.rngStatus (s : State) : Nat :=
  s.rng.code + 8 * b2n (s.seededDrbg 4) +
  16 * bitsOf 4 (fun r => s.seededDrbg r && s.seededDrbg (5 + r) && s.seededDrbg (9 + r)) +
  256 * min 3 (s.rng.recent s.now).length + 1024 * b2n s.rng.drbgFault +
  65536 * bitsOf 8 (fun c => inRange (s.rng.cells.getD c RngCell.reset).trim)

/-- RNG_RESEEDS[d]. -/
def State.rngReseeds (s : State) (d : Nat) : Nat :=
  match s.rng.drbgs.find d with
  | some x => min x.reseeds (maxOf 32) + 2 ^ 32 * min ((s.now - x.last) / 1000) 0xFFFF
  | none => 0

/-- Commands that wait for random service (R288). -/
def State.rngWaiting (s : State) : Nat :=
  (s.ctxs.vals.filter Ctx.awaits).length

/-- An MCV_ register of store kind `k` (R354). -/
def State.mcv (s : State) (k : Nat) : Nat :=
  let g := s.start.image
  g.versions.getD k 0 % 65536 + 65536 * g.words.getD k 0 + 2 ^ 32 * g.digests.getD k 0

/-- DEV_INTEGRITY (R372). -/
def State.devIntegrity (s : State) : Nat :=
  b2n s.integ.safe + 2 * s.integ.firstClass + 16 * (s.integ.classes % 32) + 512 * b2n s.integ.alarmOut +
  1024 * b2n s.integ.zeroised + 65536 * s.integ.cause

/-- A signed temperature in a byte. -/
def tempByte (t : Int) : Nat := (t % 256).toNat

/-- DEV_RETIRE_MAP. -/
def State.retireMap (s : State) : Nat :=
  s.integ.mapSeq % 2 ^ 32 + 2 ^ 32 * ((List.range 104).filter fun u => (s.unitSt u).retired).length +
  2 ^ 40 * bitsOf 4 s.regionRetired + 2 ^ 44 * b2n s.integ.mapA + 2 ^ 45 * b2n s.integ.mapB

/-- The mode code of a unit (R372). -/
def UnitSt.modeCode (x : UnitSt) : Nat :=
  if x.retired then 0
  else match x.mode with
    | .inService => 0
    | .suspect => 1
    | .confirming => 2
    | .reloading => 3

/-- A lane runs a slab until the slab's last boundary (R243). -/
def Lane.runs (y : Lane) (now : Nat) : Bool := y.busy.isSome && decide (now < y.ends)

/-- Busy work lanes of the pipes from ordinal `o` on, of `n` pipes (R243). -/
def State.busyLanes (s : State) (r o n : Nat) : Nat :=
  bitsOf (4 * n) fun i => ((s.unitSt (26 * r + o + i / 4)).lane (i % 4)).runs s.now

/-- Streams of a region with a slab ready and no lane (R243). -/
def State.streamsWaiting (s : State) (r : Nat) : Nat := (s.ctxs.vals.filter fun c => c.region == r && s.slabReady c).length

/-- LCS_STATE (R424). -/
def State.lcsState (s : State) : Nat :=
  s.lcs.code + 8 * bitsOf 5 (fun n => s.lcs.groups.getD n .unburnt == .burnt) +
  256 * bitsOf 5 (fun n => s.lcs.groups.getD n .unburnt == .torn)

/-- LCS_STATUS. -/
def State.lcsStatus (s : State) : Nat :=
  b2n s.lcs.pending.isSome + 2 * (match s.lcs.pending with | some r => r.to_ | none => 0) + 16 * b2n s.lcs.burnDeferred +
  32 * b2n s.lcs.vpp + 64 * b2n s.lcs.cert.isSome + 128 * b2n s.lcs.inForce.isSome + 256 * b2n s.lcs.rightsOpen

/-- LCS_SIGNERS. -/
def State.lcsSigners (s : State) : Nat :=
  bitsOf 3 (fun k => (s.lcs.signers.getD k none).isSome) + 8 * bitsOf 3 fun k => s.lcs.revoked.getD k .unburnt == .burnt

/-- DEV_START_ERR (R411). -/
def State.startErr (s : State) : Nat := s.start.errCode + 256 * s.start.errDetail

/-- A commit is in progress: its stream is still open (R408). -/
def State.commitActive (s : State) : Bool :=
  match s.start.commit with
  | none => false
  | some c => match s.stream 0 c.stream with
    | some e => decide (e.st = .opened) && e.first == c.first
    | none => false

/-- The bank record of a bank. -/
def State.bankRec (s : State) (k : Nat) : Bank := s.start.banks.getD k Bank.erased

/-- EVC_CLASS[c] (R393). -/
def State.evcClass (s : State) (c : Nat) : Nat :=
  let k := s.evClass c
  (if s.ready then k.hostSource + 2048 * b2n k.hostEn + 8192 * b2n (evCodes.contains c) else 0) +
  (if s.start.fuseRead then 4096 * b2n k.intEn else 0)

/-- EVC_INT_ROUTE[c]. -/
def State.intRoute (s : State) (c : Nat) : Nat :=
  let k := s.route c
  k.target + 16 * k.prio + 256 * b2n k.mask + 512 * b2n k.pending + 1024 * b2n k.active

/-! ## The map -/

/-- The registers of one region. -/
def State.regionReg (s : State) (r o : Nat) : Option RegVal :=
  match o with
  | 0x000 => r32 s.ready (s.rgnUnitState r)
  | 0x400 => r32 s.ready (s.busyLanes r 20 4 + 65536 * s.busyLanes r 24 2)
  | 0x404 => r32 s.ready (s.streamsWaiting r % 65536)
  | 0x408 => r32 s.ready (s.integ.switches.getD r 0)
  | 0x40C => r32 s.ready (s.integ.mirrorFail.getD r 0 + 65536 * s.integ.contextLost.getD r 0)
  | 0x600 => r64 s.ready (fieldsOf 2 26 fun n => min 2 ((s.unitSt (26 * r + n)).inWindow s.now).length)
  | 0x608 => r64 s.ready (fieldsOf 2 26 fun n => (s.unitSt (26 * r + n)).modeCode)
  | _ => none

/-- The replicated registers of the low blocks. -/
def State.indexed (s : State) (o : Nat) : Option RegVal :=
  if 0x3100 ≤ o ∧ o < 0x3250 ∧ o % 8 = 0 then
    let i := (o - 0x3100) / 8
    r64 s.ready (uAt (s.keys.digests.getD (i / 6) []) (8 * (i % 6)) 8)
  else if 0x10000 ≤ o ∧ o ≤ 0x12000 ∧ o % 8 = 0 then
    r64 s.ready (if o = 0x10000 then 0 else s.keys.epochs.getD ((o - 0x10000) / 8) 0)
  else if 0x6020 ≤ o ∧ o < 0x6040 ∧ o % 4 = 0 then
    let x := s.rng.cells.getD ((o - 0x6020) / 4) RngCell.reset
    r32 s.ready (x.trim + 65536 * x.ones)
  else if 0x6040 ≤ o ∧ o < 0x6068 ∧ o % 8 = 0 then r64 s.ready (s.rngReseeds ((o - 0x6040) / 8))
  else if 0x7000 ≤ o ∧ o < 0x7028 ∧ o % 8 = 0 then r64 s.start.loadDone (s.mcv ((o - 0x7000) / 8))
  else if 0x7200 ≤ o ∧ o < 0x7280 ∧ o % 8 = 0 then
    let p := s.start.image.packIds.getD ((o - 0x7200) / 8) (0, 0)
    r64 s.start.loadDone (p.1 + 2 ^ 32 * p.2)
  else none

/-- The registers below 0x2000 and those of the datum, the key store, the entropy source, the stores, integrity, the
HBM, the log, the image and the life cycle. -/
def State.lowReg (s : State) (o : Nat) : Option RegVal :=
  let d := s.datumShown
  match o with
  | 0x0000 => r32 s.start.fuseRead devIdent
  | 0x0010 => r32 s.ready s.devStruct
  | 0x0020 => r32 true s.start.stage
  | 0x0024 => r32 true s.startErr
  | 0x0028 => r32 s.ready (s.start.readyMs % 65536)
  | 0x2000 => r64 true d.v
  | 0x2008 => r64 true d.lo
  | 0x2010 => r64 true d.hi
  | 0x2018 => r64 true d.u
  | 0x2020 => r32 true d.status
  | 0x2028 => r64 true s.datum.cap
  | 0x2030 => r64 true s.datum.tokSeq
  | 0x2038 => r64 true s.datum.vAtToken
  | 0x2040 => r32 true (s.datum.rejected + 65536 * s.datum.conflicts)
  | 0x2044 => r32 true (s.datum.ppsApplied + 256 * s.datum.ppsIgnored + 65536 * s.datum.ptmApplied + 2 ^ 24 * s.datum.ptmIgnored)
  | 0x2048 => r32 true (b2n s.datum.ppsEn + 2 * b2n s.datum.ptmEn)
  | 0x204C => r32 true s.datum.acqMs
  | 0x2050 => r32 true (b2n s.datum.flat + 65536 * 2000)
  | 0x3000 => r32 true s.kstStatus
  | 0x3004 => r32 true (s.keys.maxCorrected + 256 * s.keys.above28)
  | 0x3008 => r32 s.ready s.keys.svn
  | 0x3010 => r64 s.ready s.keys.serial
  | 0x3018 => r64 s.ready (s.slotsIn (fun x => decide (x = .live)) + 2 ^ 32 * s.slotsIn fun x => decide (x = .orphaned ∨ x = .dead))
  | 0x3020 => r32 s.ready s.extentsAll
  | 0x3024 => r32 s.ready s.keys.prepared.length
  | 0x3028 => r64 s.ready (fieldsOf 16 4 fun r => (s.keys.resident.getD r []).length)
  | 0x3030 => r32 s.ready s.keys.reclaimed
  | 0x3038 => r64 s.ready s.keys.persistEnd
  | 0x6000 => r32 true s.rngStatus
  | 0x6004 => r32 s.ready (b2n s.rng.mode)
  | 0x6008 => r32 s.ready s.rng.waitMs
  | 0x600C => r32 true (s.rng.rct + 256 * s.rng.apt + 65536 * s.rng.balance + 2 ^ 24 * s.rng.restarts)
  | 0x6070 => r64 s.ready s.rng.hostBytes
  | 0x6078 => r32 s.ready s.rngWaiting
  | 0x7028 => r32 s.start.loadDone (s.start.image.locked + 32 * s.start.image.packCode)
  | 0x702C => r32 s.start.loadDone (s.integ.storeCorrected + 65536 * s.integ.storeReloads)
  | 0x7100 => r32 s.start.loadDone
      (s.start.image.params.length + 2 ^ 11 * s.start.image.formats.length + 2 ^ 22 * s.start.image.curves.length)
  | 0x7104 => r32 s.start.loadDone (s.start.image.loadedPacks + 65536 * s.start.image.discardedPacks)
  | 0x8000 => r32 s.start.fuseRead s.devIntegrity
  | 0x8008 => r64 s.start.fuseRead s.integ.alarmV
  | 0x8010 => r64 s.ready (s.integ.transients + 2 ^ 32 * s.integ.mismatches)
  | 0x8018 => r64 s.ready (s.integ.retriesOne + 2 ^ 32 * s.integ.retriesTwo)
  | 0x8020 => r64 s.ready s.integ.unitFaults
  | 0x8028 => r64 s.ready s.retireMap
  | 0x8030 => r32 s.ready
      (tempByte (hottest s.integ.temps) + 256 * tempByte (coldest s.integ.temps) + 65536 * tempByte s.integ.hbmTemp)
  | 0x9000 => r64 s.ready (s.integ.scrubPasses % 2 ^ 32 + 2 ^ 32 * s.integ.scrubMs)
  | 0x9008 => r64 s.ready (s.integ.corrected + 2 ^ 32 * s.integ.uncorrectable + 2 ^ 48 * s.integ.tagFail)
  | 0xA000 => r64 s.start.fuseRead s.log.total
  | 0xA008 => r32 s.start.fuseRead (s.log.keptCount + 512 * b2n s.log.repeatFrom.isSome)
  | 0xA00C => r32 s.start.fuseRead s.log.dropped
  | 0xA010 => r32 s.start.fuseRead s.log.opSeconds
  | 0xA014 => r32 s.start.fuseRead s.log.powerCycles
  | 0xB000 => r32 s.ready (s.start.bank + 2 * b2n s.start.fallback + 4 * s.bootBank.signer)
  | 0xB004 => r32 s.ready ((s.bankRec 0).reason + 16 * (s.bankRec 1).reason + 256 * b2n s.commitActive)
  | 0xB008 => r64 s.ready (s.bankRec 0).seq
  | 0xB010 => r64 s.ready (s.bankRec 1).seq
  | 0xB018 => r64 s.ready (s.start.svnFloor + 2 ^ 32 * s.bootBank.minSvn)
  | 0xB020 => r64 s.ready (s.start.commits % 2 ^ 32 + 2 ^ 32 * s.start.tokens)
  | 0xB028 => r32 s.ready (s.bootBank.pages + 2 ^ 13 * s.bootBank.sections)
  | 0xC000 => r32 s.start.fuseRead s.lcsState
  | 0xC004 => r32 s.start.fuseRead s.lcsStatus
  | 0xC008 => r32 s.start.fuseRead s.lcsSigners
  | 0xC010 => r64 s.start.fuseRead (match s.lcs.inForce with | some c => c.rights | none => 0)
  | 0xC018 => r64 s.start.fuseRead (match s.lcs.inForce with | some c => c.notAfter | none => 0)
  | _ => s.indexed o

/-- Word `k` of an MSI-X entry (R376). -/
def State.msixWord (s : State) (v k : Nat) : Nat :=
  let e := s.msixEntry v
  match k with
  | 0 => e.addr % 2 ^ 32
  | 1 => e.addr / 2 ^ 32
  | 2 => e.data
  | _ => b2n e.mask

/-- The event controller's registers, by offset from 0x0100_0000. -/
def State.evcReg (s : State) (o : Nat) : Option RegVal :=
  if o < 0x8000 then (if o % 4 = 0 then r32 s.ready (s.msixWord (o / 16) (o % 16 / 4)) else none)
  else if o < 0x8100 then
    (if o % 8 = 0 then r64 s.ready (bitsOf 64 fun n => s.events.pba.getD (8 * (o - 0x8000) + n) false) else none)
  else if o = 0x9000 then r32 s.ready ((s.events.pba.vals.filter id).length + 2048 * b2n s.events.fnMask)
  else if o = 0x9004 then r32 s.ready s.events.strayEoi
  else if o = 0x9008 then r32 s.ready s.events.routeErr
  else if 0x9010 ≤ o ∧ o < 0x9030 then
    (if o % 8 = 0 then r64 s.ready (bitsOf 64 fun n => (s.route (8 * (o - 0x9010) + n)).pending) else none)
  else if 0x9030 ≤ o ∧ o < 0x9050 then
    (if o % 8 = 0 then r64 s.ready (bitsOf 64 fun n => (s.route (8 * (o - 0x9030) + n)).active) else none)
  else if 0x10000 ≤ o ∧ o < 0x10000 + 4 * 1792 then
    (if o % 4 = 0 then let c := s.coalOf ((o - 0x10000) / 4); r32 s.ready (c.count + 256 * c.timer) else none)
  else if 0x20000 ≤ o ∧ o < 0x20400 then (if o % 4 = 0 then r32 true (s.evcClass ((o - 0x20000) / 4)) else none)
  else if 0x30000 ≤ o ∧ o < 0x31000 then
    (if o % 16 = 0 then r32 s.start.fuseRead (s.intRoute ((o - 0x30000) / 16))
     else if o % 16 = 8 then r64 s.start.fuseRead ((s.route ((o - 0x30000) / 16)).handler.toNat / 4 * 4)
     else none)
  else none

/-- A slice's registers (R123); those of an absent slice read zero. -/
def State.sliceReg (s : State) (n o : Nat) : Option RegVal :=
  let b := match s.slices.find n with | some y => s.sliceBlock n y | none => []
  if [0x08, 0x10, 0x28, 0x30, 0x38, 0x40, 0x50, 0x58].contains o then r64 true (uAt b o 8)
  else if [0x00, 0x04, 0x18, 0x1C, 0x20, 0x24, 0x48, 0x60, 0x64].contains o then r32 true (uAt b o 4)
  else none

/-- A queue's registers (R124); the fields of the disabled queue 0 read as written (log 64). -/
def State.queueReg (s : State) (q o : Nat) : Option RegVal :=
  let wide := [0x08, 0x18, 0x20].contains o
  let narrow := [0x00, 0x04, 0x10, 0x28, 0x2C, 0x30, 0x34, 0x38, 0x3C, 0x40, 0x44].contains o
  let b := match s.queues.find q with
    | some x => s.queueBlock q x
    | none => if q = 0 ∧ [0x10, 0x18, 0x20].contains o then s.queueBlock 0 s.enq0 else []
  if wide then r64 true (uAt b o 8) else if narrow then r32 true (uAt b o 4) else none

/-- The register at an offset of the control window; none at a reserved offset. -/
def State.regAt (s : State) (o : Nat) : Option RegVal :=
  if o < 0x00100000 then s.lowReg o
  else if o < 0x00500000 then s.regionReg (o / 0x100000 - 1) (o % 0x100000)
  else if o < 0x01000000 then none
  else if o < 0x02000000 then s.evcReg (o - 0x01000000)
  else if o < 0x02401000 then s.sliceReg ((o - 0x02000000) / 0x1000) (o % 0x1000)
  else if o < 0x02800000 then none
  else if o < 0x03000000 then s.queueReg ((o - 0x02800000) / 0x800) (o % 0x800)
  else none

/-- In FAILED and LOCKED the window serves these alone (R397). -/
def servedStopped (o : Nat) : Bool := [0x0000, 0x0020, 0x0024, 0x8000].contains o || decide (0xA000 ≤ o ∧ o < 0xA018)

/-- The start has ended without READY. -/
def State.stopped (s : State) : Bool := decide (s.start.stage = Stage.failed) || decide (s.start.stage = Stage.locked)

/-- The register at an offset as the window serves it. -/
def State.served (s : State) (o : Nat) : Option RegVal := if s.stopped && !servedStopped o then none else s.regAt o

/-! ## RC fields (R13) -/

/-- Clears the RC fields of the register at an offset. -/
def State.clearRc (s : State) (o : Nat) : State :=
  if o = 0x2040 then { s with datum := { s.datum with rejected := 0, conflicts := 0 } }
  else if o = 0x2044 then
    { s with datum := { s.datum with ppsApplied := 0, ppsIgnored := 0, ptmApplied := 0, ptmIgnored := 0 } }
  else if o = 0x3030 then { s with keys := { s.keys with reclaimed := 0 } }
  else if o = 0x600C then { s with rng := { s.rng with rct := 0, apt := 0, balance := 0, restarts := 0 } }
  else if o = 0x702C then { s with integ := { s.integ with storeCorrected := 0, storeReloads := 0 } }
  else if o = 0x8010 then { s with integ := { s.integ with transients := 0, mismatches := 0 } }
  else if o = 0x8018 then { s with integ := { s.integ with retriesOne := 0, retriesTwo := 0 } }
  else if o = 0x8020 then { s with integ := { s.integ with unitFaults := 0 } }
  else if o = 0x9008 then { s with integ := { s.integ with corrected := 0, uncorrectable := 0, tagFail := 0 } }
  else if o = 0xA00C then { s with log := { s.log with dropped := 0 } }
  else if o = 0x01009004 then { s with events := { s.events with strayEoi := 0 } }
  else if o = 0x01009008 then { s with events := { s.events with routeErr := 0 } }
  else if 0x00100000 ≤ o ∧ o < 0x00500000 ∧ o % 0x100000 = 0x408 then
    { s with integ := { s.integ with switches := s.integ.switches.drop (o / 0x100000 - 1) } }
  else if 0x00100000 ≤ o ∧ o < 0x00500000 ∧ o % 0x100000 = 0x40C then
    { s with integ := { s.integ with mirrorFail := s.integ.mirrorFail.drop (o / 0x100000 - 1),
                                     contextLost := s.integ.contextLost.drop (o / 0x100000 - 1) } }
  else if 0x02000000 ≤ o ∧ o < 0x02401000 ∧ o % 0x1000 = 0x64 then
    s.setSlice ((o - 0x02000000) / 0x1000) fun y => { y with ideDrops := 0 }
  else if 0x02800000 ≤ o ∧ o < 0x03000000 ∧ o % 0x800 = 0x44 then
    s.setQueue ((o - 0x02800000) / 0x800) fun x => { x with invalid := 0, malformed := 0 }
  else s

/-! ## Reads (R11, R12, R60) -/

/-- The datum registers that R60's snapshot covers. -/
def snapReg (o : Nat) : Bool := [0x2000, 0x2008, 0x2010, 0x2018, 0x2020].contains o

/-- A read that reaches DTM_VALUE's low word takes a snapshot. -/
def State.takeSnap (s : State) : State := { s with datum := { s.datum with snap := some s.datumNow } }

/-- A 32-bit read: its data and the state after it. -/
def State.read32 (s : State) (o : Nat) : Nat × State :=
  let s := if o = 0x2000 ∧ !s.stopped then s.takeSnap else s
  match s.served o with
  | some (true, v) =>
    let s := if snapReg o then s else { s with bus := { s.bus with latch := s.bus.latch.putD o (BitVec.ofNat 32 (v / 2 ^ 32)) 0 } }
    (v % 2 ^ 32, s.clearRc o)
  | some (false, v) => (v, s.clearRc o)
  | none =>
    if o % 8 ≠ 4 then (0, s)
    else match s.served (o - 4) with
      | some (true, v) => if snapReg (o - 4) then (v / 2 ^ 32, s) else ((s.bus.latch.getD (o - 4) 0).toNat, s)
      | _ => (0, s)

/-- A read of the control window of 32 or 64 bits; a misaligned one returns zero (R11). A naturally aligned 64-bit access over
two 32-bit registers, of which R11 says nothing, is two accesses of 32 bits, the low one first (DESIGN CHOICE, log 110). -/
def State.readReg (s : State) (o : Nat) (wide : Bool) : Nat × State :=
  if o % 4 ≠ 0 ∨ (wide ∧ o % 8 ≠ 0) then (0, s)
  else if !wide then s.read32 o
  else
    let s := if o = 0x2000 ∧ !s.stopped then s.takeSnap else s
    match s.served o with
    | some (true, v) => (v, s.clearRc o)
    | _ =>
      let (a, s) := s.read32 o
      let (b, s) := s.read32 (o + 4)
      (a + 2 ^ 32 * b, s)

/-! ## Writes (R12, R13) -/

/-- RWL fields that lock at READY take a write of the chief core before it; a value out of the field's range is ignored
(log 65). -/
def State.writePolicyReg (s : State) (o w : Nat) : State :=
  if o = 0x2028 then (if 1000000 ≤ w ∧ w ≤ 10000000000 then { s with datum := { s.datum with cap := w } } else s)
  else if o = 0x2048 then { s with datum := { s.datum with ppsEn := bitOf w 0, ptmEn := bitOf w 1 } }
  else if o = 0x204C then (if w % 256 ≤ 100 then { s with datum := { s.datum with acqMs := w % 256 } } else s)
  else if o = 0x2050 then { s with datum := { s.datum with flat := bitOf w 0 } }
  else if o = 0x6004 then { s with rng := { s.rng with mode := bitOf w 0 } }
  else if o = 0x6008 then
    (if 10 ≤ w % 2048 ∧ w % 2048 ≤ 1000 then { s with rng := { s.rng with waitMs := w % 2048 } } else s)
  else if 0x01020000 ≤ o ∧ o < 0x01020400 then
    let c := (o - 0x01020000) / 4
    { s with events := { s.events with
        classes := s.events.classes.putD c { s.evClass c with intEn := bitOf w 12 } EvClass.reset } }
  else if 0x01030000 ≤ o ∧ o < 0x01031000 ∧ o % 16 = 0 then
    s.setRoute ((o - 0x01030000) / 16) fun r => { r with target := fieldOf w 0 3, prio := fieldOf w 4 4 }
  else if 0x01030000 ≤ o ∧ o < 0x01031000 ∧ o % 16 = 8 then
    s.setRoute ((o - 0x01030000) / 16) fun r => { r with handler := BitVec.ofNat 64 (w / 4 * 4) }
  else s

/-- A word of an MSI-X entry is written (R376). -/
def State.writeMsix (s : State) (v k w : Nat) : State :=
  let e := s.msixEntry v
  let put := fun e => { s with events := { s.events with msix := s.events.msix.putD v e MsixEntry.reset } }
  match k with
  | 0 => put { e with addr := e.addr / 2 ^ 32 * 2 ^ 32 + w / 4 * 4 }
  | 1 => put { e with addr := e.addr % 2 ^ 32 + 2 ^ 32 * w }
  | 2 => put { e with data := w }
  | _ => s.maskVector v (bitOf w 0)

/-- EVC_COAL[v] is written: a 0 sets 1, and a timer above 1,000 sets 1,000 (R393). -/
def State.writeCoal (s : State) (v w : Nat) : State :=
  let c := { s.coalOf v with count := max 1 (w % 256), timer := min 1000 (max 1 (fieldOf w 8 10)) }
  { s with events := { s.events with coal := s.events.coal.putD v c Coal.reset } }

/-- A field of the disabled queue 0 (R96, R124). -/
def State.writeQueue0 (s : State) (o w : Nat) : State :=
  if (s.queues.find 0).isSome then s
  else if o = 0x00 then s.enableQueue0 (bitOf w 0)
  else if o = 0x10 then
    { s with enq0 := { s.enq0 with sqLog2 := fieldOf w 0 5, cqLog2 := fieldOf w 8 5, vector := fieldOf w 16 11 } }
  else if o = 0x18 then { s with enq0 := { s.enq0 with cqAddr := w } }
  else if o = 0x20 then { s with enq0 := { s.enq0 with shadowAddr := w } }
  else s

/-- A whole register is written with a value; the chief core's writes reach the fields that the host's do not (R382,
R402). -/
def State.writeAt (s : State) (chief : Bool) (o w : Nat) : State :=
  let s := if chief && decide (s.start.stage < Stage.ready) then s.writePolicyReg o w else s
  let s := if chief && decide (0x01030000 ≤ o ∧ o < 0x01031000 ∧ o % 16 = 0) then
      s.setRoute ((o - 0x01030000) / 16) fun r => { r with mask := bitOf w 8 }
    else s
  if !s.ready then s
  else if 0x01000000 ≤ o ∧ o < 0x01008000 then s.writeMsix ((o - 0x01000000) / 16) (o % 16 / 4) w
  else if 0x01010000 ≤ o ∧ o < 0x01010000 + 4 * 1792 then s.writeCoal ((o - 0x01010000) / 4) w
  else if 0x01020000 ≤ o ∧ o < 0x01020400 then s.classWrite ((o - 0x01020000) / 4) w
  else if 0x02800000 ≤ o ∧ o < 0x02800800 then s.writeQueue0 (o - 0x02800000) w
  else s

/-- A 64-bit register is written whole; a held low word goes. -/
def State.writeWide (s : State) (chief : Bool) (o w : Nat) : State :=
  { s with bus := { s.bus with heldLow := s.bus.heldLow.drop o } }.writeAt chief o w

/-- A 32-bit write: the low word of a 64-bit register is held, its high word commits it with the low word held or the
register's own (R12). -/
def State.write32 (s : State) (chief : Bool) (o w : Nat) : State :=
  match s.served o with
  | some (true, _) => { s with bus := { s.bus with heldLow := s.bus.heldLow.put o (BitVec.ofNat 32 w) } }
  | some (false, _) => s.writeAt chief o w
  | none =>
    if o % 8 ≠ 4 then s
    else match s.served (o - 4) with
      | some (true, v) =>
        let lo := match s.bus.heldLow.find (o - 4) with | some x => x.toNat | none => v % 2 ^ 32
        s.writeWide chief (o - 4) (lo + 2 ^ 32 * w)
      | _ => s

/-- A write of the control window of 32 or 64 bits; a narrower or misaligned one has no effect (R11). -/
def State.writeReg (s : State) (chief : Bool) (o : Nat) (wide : Bool) (w : Nat) : State :=
  if o % 4 ≠ 0 ∨ (wide ∧ o % 8 ≠ 0) then s
  else if !wide then s.write32 chief o (w % 2 ^ 32)
  else match s.served o with
    | some (true, _) => s.writeWide chief o (w % 2 ^ 64)
    | _ => (s.write32 chief o (w % 2 ^ 32)).write32 chief (o + 4) (w / 2 ^ 32 % 2 ^ 32)

end Sys2Proof.Machine
end

