-- ==== Sys2Proof/Machine/ConfigOps.lean ====
section
/-! DEFINITION. The commands of configuration: bank status, commits and their tokens, and the SMBus identity and stage
requests (R406 to R409, R413, R439). -/

namespace Sys2Proof.Machine

open Sys2Proof

/-! ## CONFIG_STATUS (R407) -/

/-- The 32-byte record of a bank. -/
def State.bankRecord (s : State) (k : Nat) : Bytes :=
  let b := s.bankRec k
  le 8 b.seq ++ le 4 b.svn ++ le 4 b.minSvn ++ le 2 b.signer ++ le 1 b.reason ++ le 1 (b2n (s.start.bank == k)) ++
  le 4 b.pages ++ le 8 0

def execConfigStatus (ctx : Nat) (s : State) : Out :=
  .next (s.runCore ctx 0x0140 fun _ s =>
    s.answer ctx (s.bankRecord 0 ++ s.bankRecord 1 ++ le 4 s.start.commits ++ le 4 s.start.tokens ++
      le 4 s.start.svnFloor ++ le 4 0))

/-! ## CONFIG_COMMIT (R408) -/

/-- Step 3, the signature apart: reasons 1 to 3 of the header, its page count against DECLARED_LEN, and its SEQUENCE against
the booted bank's. -/
def State.commitHeaderOk (s : State) (b : Bytes) (declared : Nat) : Bool :=
  headerFieldsOk b && s.signerOk b &&
  decide (s.start.svnFloor ≤ Bank.svnAt b) && decide (Bank.minSvnAt b ≤ Bank.svnAt b) &&
  Bank.pagesAt b * 4096 == declared && decide (s.bootBank.seq < Bank.sequenceAt b)

/-- Steps 2 and 3 before the signature. -/
def State.commitEarly (s : State) (b : Bytes) (declared : Nat) : Option Nat :=
  if s.commitActive then some St.busy
  else if s.start.tokens = 0 then some St.quota
  else if !s.commitHeaderOk b declared then some St.inputRejected
  else none

/-- Writes the flash of a bank. -/
def State.setFlash (s : State) (k : Nat) (b : Bytes) : State :=
  if k = 0 then { s with start := { s.start with flashA := b } } else { s with start := { s.start with flashB := b } }

/-- The flash of a target while its pages up to `n` have been programmed: its header stays erased. -/
def commitFlash (old img : Bytes) (n : Nat) : Bytes :=
  let m := max 12288 (4096 * n)
  List.replicate 12288 0xFF#8 ++ (img.take (4096 * n)).drop 12288 ++ bk old m (old.length - m)

/-- The complete pages from `k` on that match the page-check table, up to `n`. -/
def goodPages (img : Bytes) (n : Nat) : Nat → Nat → Nat
  | 0, k => k
  | f + 1, k => if n ≤ k then k else if k < 7 ∨ pageCheckOk img k then goodPages img n f (k + 1) else k

/-- The commit ends without success; its target stays invalid. -/
def State.endCommit (s : State) (ctx status : Nat) : State :=
  { s with start := { s.start with commit := none } }.refuse ctx status

/-- A flash program or read-back error (R408). -/
def State.flashFails (s : State) (ctx target : Nat) : State :=
  (s.badBank target 10).endCommit ctx St.unitFault

/-- Step 4 for the bytes of one packet, and steps 5 and 6 at FINAL. -/
def State.programPages (s : State) (ctx : Nat) (c : Ctx) (target : Nat) (flashOk : Bool) : State :=
  let img := c.payload
  let n := img.length / 4096
  let g := goodPages img n 4096 (c.pos / 4096)
  let old := s.flash target
  if !flashOk then s.flashFails ctx target
  else if g < n then (s.setFlash target (commitFlash old img g)).endCommit ctx St.inputRejected
  else
    let s := s.setFlash target (commitFlash old img n)
    if !c.final then s.answer ctx []
    else if bk img 0x30 48 ≠ sha384 (img.drop 12288) then s.endCommit ctx St.inputRejected
    else
      let s := (s.setFlash target (img ++ old.drop img.length)).setBank target (bankOf img)
      let s := { s with start := { s.start with commit := none } }.answer ctx []
      if 50000 ≤ s.start.commits ∧ s.start.commits % 1000 = 0 then s.raise Ev.cfgCommitWarn Origin.atlas s.start.commits else s

/-- Steps 2 to 4 on the first packet (step 1 is part of the packet's format checks). -/
def State.beginCommit (s : State) (ctx : Nat) (c : Ctx) (declared : Nat) (flashOk : Bool) : State :=
  match s.commitEarly c.payload declared with
  | some st => s.refuse ctx st
  | none =>
    if !signatureOk c.payload then s.refuse ctx St.inputRejected
    else
    let target := 1 - s.start.bank
    let s := { s with start := { s.start with
      tokens := s.start.tokens - 1, commits := s.start.commits + 1
      commit := some { stream := c.stream, first := c.seq, target } } }
    (s.setBank target Bank.erased).programPages ctx c target flashOk

/-- An earlier packet of the stream has not been decided. -/
def State.earlierOpen (s : State) (c : Ctx) : Bool :=
  s.ctxs.vals.any fun d => d.q == c.q && d.stream == c.stream && decide (d.seq < c.seq) && !d.phase.decided

/-- The stream that a packet opens. -/
def State.opensStream (s : State) (i : Nat) : Option Stream :=
  match s.ctxs.find i with
  | none => none
  | some c => match s.stream c.q c.stream with
    | some e => if e.first = c.seq then some e else none
    | none => none

/-- One packet of a CONFIG_COMMIT stream; `flashOk`: the flash programs and reads back what it is given. -/
def execConfigCommit (ctx : Nat) (flashOk : Bool) (s : State) : Out :=
  match s.opensStream ctx with
  | some e =>
    .next (s.runVerified ctx 0x0141 (fun c s => s.commitEarly c.payload e.declared) fun c s =>
      s.beginCommit ctx c e.declared flashOk)
  | none =>
    .next (s.runCore ctx 0x0141 fun c s =>
      if s.earlierOpen c then s
      else match s.start.commit with
        | some k => if s.commitActive && k.stream == c.stream then s.programPages ctx c k.target flashOk else s
        | none => s)

/-! ## Tokens (R409) -/

/-- 60 s of powered reference time earn one token, up to 16. -/
def execCommitTokenGain (s : State) : Out :=
  if s.start.vddGood ∧ 60000000 ≤ s.start.tokenTicks then
    .next { s with start := { s.start with
      tokens := min 16 (s.start.tokens + 1), tokenTicks := s.start.tokenTicks - 60000000 } }
  else .next s

/-! ## SMBus (R406, R413, R439) -/

/-- SMB_ALERT_N is asserted in FAILED and LOCKED, and in the safe state (R439). -/
def State.smbAlert (s : State) : Bool :=
  s.started && (decide (s.start.stage = Stage.failed) || decide (s.start.stage = Stage.locked) || s.integ.safe)

/-- STAGE_GET, from the end of CLOCKS on, in every stage. -/
def execStageGet (s : State) : Out :=
  if s.started ∧ Stage.clocks < s.start.stage then
    .next (s.smbAnswer St.ok (le 4 s.start.stage ++ le 4 s.startErr ++ le 4 (if s.start.fuseRead then s.devIntegrity else 0)))
  else .next s

/-- IDENT_GET: DEV_IDENT, KST_SERIAL and the identity chain where one is held. -/
def execIdentGet (s : State) : Out :=
  if s.started ∧ Stage.clocks < s.start.stage then
    .next (s.smbAnswer St.ok (le 4 devIdent ++ le 8 s.keys.serial ++ s.keys.chain))
  else .next s

/-- The bus time-out ends a stalled transaction: a request that stalls never becomes a command, and a response that
stalls is not delivered (log 66). -/
def execSmbusTimeout (s : State) : Out := .next { s with bus := { s.bus with smbus := none } }

end Sys2Proof.Machine
end

