-- ==== Sys2Proof/Machine/CoreOps.lean ====
section
/-! DEFINITION. The frame of every Casmar instruction: pending writes, interlocks, the coprocessor queues, exceptions
and recovery entry, and the order in which an instruction meets them (R289, R296, R305, R306, R310 to R317, R325 to
R327, R337, R338). -/

namespace Sys2Proof.Machine

open Sys2Proof

/-! ## Pending writes -/

/-- One multiplier write lands. -/
def Core.landOne (k : Core) (m : MulWrite) : Core :=
  if m.toY then k.setY m.reg m.val else k.setX (BitVec.ofNat 5 m.reg) m.val

/-- The multiplier writes whose landing cycle has come land in issue order (R305, R306). -/
def Core.land (k : Core) (i : Nat) : Core :=
  let l := k.mulq
  let k := (l.filter fun m => decide (m.land ≤ i)).foldl Core.landOne k
  { k with mulq := l.filter fun m => decide (i < m.land) }

/-- Writes one element of a vector register. -/
def Core.setElem (k : Core) (r e : Nat) (w : BitVec 32) : Core := { k with v := k.v.putD (256 * r + e) w 0 }

/-- Element `e` of a vector register. -/
def Core.elem (k : Core) (r : BitVec 5) (e : Nat) : BitVec 32 := k.v.getD (256 * r.toNat + e) 0

/-- Writes bit `e` of a guard's vector form; the guard is written (R322). -/
def Core.setMaskBit (k : Core) (n e : Nat) (b : Bool) : Core :=
  let v := k.gv.getD n 0
  let one := BitVec.ofNat 256 1 <<< e
  { k with gv := k.gv.putD n (if b then v ||| one else v &&& ~~~one) 0, init := k.init ||| BitVec.ofNat 8 (2 ^ n) }

/-- A beat leaves its pipe: its elements are written (R325). Registers from 32 on are the guards. -/
def Core.leave (k : Core) (b : Beat) : Core :=
  b.elems.foldl (fun k e => if b.reg < 32 then k.setElem b.reg e.1 e.2 else k.setMaskBit (b.reg - 32) e.1 (e.2 != 0)) k

/-- The beats that have left by the start of cycle `i` have written. -/
def Core.leaveDue (k : Core) (i : Nat) : Core :=
  let l := k.beats
  let k := (l.filter fun b => decide (b.leave < i)).foldl Core.leave k
  { k with beats := l.filter fun b => decide (i ≤ b.leave) }

/-- Everything that is due at the start of cycle `i`. -/
def Core.settleTo (k : Core) (i : Nat) : Core := (k.land i).leaveDue i

/-- The core stalls until a cycle. -/
def Core.stallTo (k : Core) (i : Nat) : Core := { k with cycle := max k.cycle i }

/-! ## Coprocessor queues (R317, R337, R338) -/

/-- A coprocessor of a core. -/
def Core.cp (k : Core) (p : Nat) : CpState := k.cps.getD p { queue := [], fault := none, freeAt := 0 }

/-- Changes a coprocessor. -/
def Core.setCp (k : Core) (p : Nat) (f : CpState → CpState) : Core := { k with cps := k.cps.put p (f (k.cp p)) }

/-- The coprocessors whose commands are ordered with those of `p`: 1 to 5 form one group. -/
def cpGroup (p : Nat) : List Nat := if 1 ≤ p ∧ p ≤ 5 then [1, 2, 3, 4, 5] else [p]

/-- The next command of a group: the earliest-issued of the queues' heads. -/
def Core.cpNext (k : Core) (p : Nat) : Option (Nat × CpCmd) :=
  (cpGroup p).foldl (fun a q => match (k.cp q).queue.head? with
    | none => a
    | some m => match a with
      | some (_, n) => if m.seq < n.seq then some (q, m) else a
      | none => some (q, m)) none

/-- The cycle at which the next command of a group may start. -/
def Core.cpFree (k : Core) (p : Nat) : Nat := (cpGroup p).foldl (fun a q => max a (k.cp q).freeAt) 0

/-- The next command runs to its end: the state, and the cycle at which it ends. A faulted command has no effect, and
the commands behind it are discarded. -/
def State.cpRun (s : State) (c p : Nat) (m : CpCmd) : State × Nat :=
  let k := s.core c
  let start := max (m.issued + 1) (k.cpFree p)
  let s := s.onCore c fun k => k.setCp p fun x => { x with queue := x.queue.tail }
  if (k.cp p).fault.isSome then (s, start)
  else match s.cpEffect c p m with
    | .error code => (s.onCore c fun k => k.setCp p fun x => { x with fault := some code, freeAt := start + 1 }, start + 1)
    | .ok (t, n, v) =>
      let t := t.onCore c fun k => k.setCp p fun x => { x with freeAt := start + n }
      let t := match v with
        | some w => t.onCore c fun k => k.setX (BitVec.ofNat 5 m.rd) w
        | none => t
      (t, start + n)

/-- The commands of a group that have ended by cycle `i`. -/
def State.cpDue (c p i : Nat) : Nat → State → State
  | 0, s => s
  | f + 1, s => match (s.core c).cpNext p with
    | none => s
    | some (q, m) =>
      let (t, stop) := s.cpRun c q m
      if stop ≤ i then State.cpDue c p i f t else s

/-- Runs the commands of a group while `wait` holds; the core stalls for them. -/
def State.cpWait (c p : Nat) (wait : Core → Bool) : Nat → State → State
  | 0, s => s
  | f + 1, s =>
    if wait (s.core c) then
      match (s.core c).cpNext p with
      | none => s
      | some (q, m) =>
        let (t, stop) := s.cpRun c q m
        State.cpWait c p wait f (t.onCore c fun k => let k := k.stallTo stop; k.settleTo k.cycle)
    else s

/-- Commands that can stand in a core's queues at once. -/
abbrev cpFuel : Nat := 48

/-- A queued command of `p` has yet to write one of the x registers given. -/
def Core.awaitsX (regs : List (BitVec 5)) (p : Nat) (k : Core) : Bool :=
  (k.cp p).queue.any fun m => returnsX p m.fn && m.rd != 0 && regs.contains (BitVec.ofNat 5 m.rd)

/-- A queued RP.MASKV has yet to write one of the v registers given. -/
def Core.awaitsV (regs : List Nat) (k : Core) : Bool := (k.cp 5).queue.any fun m => m.fn == 3 && regs.contains m.rd

/-- A queued command of `p` has yet to write a register. -/
def Core.awaitsAny (p : Nat) (k : Core) : Bool :=
  (k.cp p).queue.any fun m => (returnsX p m.fn && m.rd != 0) || (p == 5 && m.fn == 3)

/-! ## Settling and interlocks -/

/-- What is due at the core's cycle. -/
def State.settleCore (s : State) (c : Nat) : State :=
  let i := (s.core c).cycle
  let s := [0, 1, 6].foldl (fun t p => State.cpDue c p i cpFuel t) s
  s.onCore c fun k => k.settleTo i

/-- The interlocks of the x registers that an instruction reads and writes: coprocessor results, then loads. -/
def State.sync (s : State) (c : Nat) (reads writes : List (BitVec 5)) : State :=
  let s := s.settleCore c
  let s := [4, 6].foldl (fun t p => State.cpWait c p (Core.awaitsX (reads ++ writes) p) cpFuel t) s
  s.onCore c fun k =>
    let k := if k.loadRd ≠ 0 ∧ reads.contains (BitVec.ofNat 5 k.loadRd) then k.stallTo k.loadAt else k
    k.settleTo k.cycle

/-- The waits of R311: multiplier writes, loads and coprocessor results. -/
def State.quiesce (s : State) (c : Nat) : State :=
  let s := [4, 5, 6].foldl (fun t p => State.cpWait c p (Core.awaitsAny p) cpFuel t) (s.settleCore c)
  s.onCore c fun k =>
    let k := (k.mulq.foldl (fun a m => max a m.land) k.loadAt) |> k.stallTo
    k.settleTo k.cycle

/-- The waits of R327: every beat has left its pipe. -/
def State.quiesceAll (s : State) (c : Nat) : State :=
  (s.quiesce c).onCore c fun k =>
    let k := k.stallTo (k.beats.foldl (fun a b => max a (b.leave + 1)) 0)
    k.settleTo k.cycle

/-- Waits for the beats that write the guards given. -/
def State.waitGuards (s : State) (c : Nat) (l : List (BitVec 3)) : State :=
  s.onCore c fun k =>
    let regs := l.map fun n => 32 + n.toNat
    let k := k.stallTo ((k.beats.filter fun b => regs.contains b.reg).foldl (fun a b => max a (b.leave + 1)) 0)
    k.settleTo k.cycle

/-! ## Interrupt presentation (R380, R381, R383) -/

/-- The route of a class points at a core; those of a retired region's core point at the chief. -/
def State.routedTo (s : State) (c : Nat) (r : IntRoute) : Bool :=
  if c = 0 then r.target == 1 || (decide (2 ≤ r.target ∧ r.target ≤ 5) && s.regionRetired (r.target - 2))
  else decide (c ≤ 4) && r.target == c + 1 && !s.regionRetired (c - 1)

/-- The class presented to a core: pending, unmasked, inactive, of the lowest priority number, then of the lowest
source number. -/
def State.presented (s : State) (c : Nat) : Option (Nat × Nat) :=
  s.events.routes.foldl (fun a p =>
    if p.2.pending && !p.2.mask && !p.2.active && s.routedTo c p.2 then
      match a with
      | some (q, _) => if p.2.prio < q then some (p.2.prio, p.1) else a
      | none => some (p.2.prio, p.1)
    else a) none

/-- An event of a priority that the core would take is pending. -/
def State.eventPending (s : State) (c : Nat) : Bool :=
  match s.presented c with
  | some (p, _) => decide (p < (s.core c).curPrio.toNat)
  | none => false

/-- The wait of a core ends after a free number of cycles (log 81). -/
def State.endWait (s : State) (c : Nat) : State :=
  { s with free := s.free + 1 }.onCore c fun k =>
    { k with waiting := false, cycle := k.cycle + (Config.freeWord s.free).toNat }

/-- A core that waits with interrupts disabled goes on once such an event is pending (R314). -/
def State.wake (s : State) (c : Nat) : State :=
  let k := s.core c
  if k.waiting && !k.ie && s.eventPending c then s.endWait c else s

/-! ## Exceptions (R310, R311, R315) -/

/-- The core halts; the core-fault event has the consequence of its kind (R315, R358, R365, R369). -/
def State.haltCore (s : State) (c : Nat) : State :=
  let s := s.onCore c fun k => { k with halted := true }
  match coreKind c with
  | 0 => s.alarm 3 0x41
  | 1 => s.regionFault (coreRegion c) 3
  | _ => if s.working (coreUnit c) then (s.abortUnit (coreUnit c) (Part.worksOn (coreUnit c))).charge (coreUnit c) 4 else s

/-- A recovery entry. -/
def State.recovery (s : State) (c code : Nat) : State :=
  s.onCore c fun k =>
    { k with dfpc := k.pc, dfcause := BitVec.ofNat 8 code, plain := true, recov := true, priv := true, ie := false
             init := 0, pc := k.recovVec, cycle := k.cycle + 1 }

/-- An exception of the instruction at PC: its entry, a double fault's recovery entry, or a halt while RECOV is 1. `next`:
EPC is the next instruction. -/
def State.except (s : State) (c code : Nat) (info : BitVec 64) (next : Bool := false) : State :=
  let k := s.core c
  if k.recov then s.haltCore c
  else if k.exl then s.recovery c 11
  else
    (s.quiesceAll c).onCore c fun k =>
      { k with epstate := k.pstate, epc := (if next then k.pc + 4 else k.pc), einfo := info, ecause := BitVec.ofNat 64 code
               priv := true, ie := false, exl := true, pc := k.vbase + BitVec.ofNat 64 (64 * code), cycle := k.cycle + 1 }

/-- GECC: a recovery entry whatever EXL is; a halt while RECOV is 1. -/
def State.guardError (s : State) (c : Nat) : State :=
  if (s.core c).recov then s.haltCore c else s.recovery c 10

/-! ## The order of an instruction (R296, R310) -/

/-- The next instruction. -/
def State.advance (s : State) (c : Nat) : State := s.onCore c fun k => { k with pc := k.pc + 4, cycle := k.cycle + 1 }

/-- A jump. -/
def State.jumpTo (s : State) (c : Nat) (t : BitVec 64) : State := s.onCore c fun k => { k with pc := t, cycle := k.cycle + 1 }

/-- What is due, and the guard that the guard field reads in normal service. -/
def State.atGuard (s : State) (c : Nat) (g : BitVec 4) : State :=
  let s := s.settleCore c
  if (s.core c).plain then s else s.waitGuards c [g.setWidth 3]

/-- An instruction on core `c` with guard field `g` and word `w`: FETCH and ILLEGAL come before the guard, PRIV and the
rest after it. A core that is held in reset, halted or waiting issues nothing. -/
def State.insn (s : State) (c : Nat) (g : BitVec 4) (w : BitVec 32) (illegal priv : Bool) (body : State → State) : Out :=
  if 69 ≤ c then .fault .noSuchCore
  else
    let s := s.wake c
    let k := s.core c
    if k.held || k.halted || k.waiting then .next s
    else if !fetchOk c k.pc then .next (s.except c 5 k.pc)
    else if illegal then .next (s.except c 1 (w.setWidth 64))
    else
      let s := s.atGuard c g
      if !(s.core c).takes g then .next (s.advance c)
      else if priv && !(s.core c).priv then .next (s.except c 2 (w.setWidth 64))
      else .next (body s)

/-- An instruction that reads and writes x registers and changes only its core. -/
def State.plainInsn (s : State) (c : Nat) (g : BitVec 4) (w : BitVec 32) (reads writes : List (BitVec 5)) (f : Core → Core) :
    Out :=
  s.insn c g w false false fun s => ((s.sync c reads writes).onCore c f).advance c

end Sys2Proof.Machine
end

