-- ==== Sys2Proof/Machine/Control.lean ====
section
/-! DEFINITION. Branches and jumps (R299). -/

namespace Sys2Proof.Machine

open Sys2Proof

/-- The target of B and BL. -/
def Core.branchTo (k : Core) (imm : BitVec 22) : BitVec 64 := k.pc + scaled imm 4

/-- B. -/
def execB (c : Nat) (g : BitVec 4) (imm : BitVec 22) (s : State) : Out :=
  s.insn c g (insnWord g 0x18 imm) false false fun s => s.jumpTo c ((s.core c).branchTo imm)

/-- BL: x1 = PC + 4. -/
def execBl (c : Nat) (g : BitVec 4) (imm : BitVec 22) (s : State) : Out :=
  s.insn c g (insnWord g 0x19 imm) false false fun s =>
    let s := s.sync c [] [1]
    let k := s.core c
    (s.onCore c fun k => k.setX 1 (k.pc + 4)).jumpTo c (k.branchTo imm)

/-- JR: the target is formed before rd is written; one with either low bit set is ALIGN. -/
def execJr (c : Nat) (g : BitVec 4) (rd rs1 : BitVec 5) (imm : BitVec 12) (s : State) : Out :=
  s.insn c g (insnWord g 0x1A (fmtI rd rs1 imm)) false false fun s =>
    let s := s.sync c [rs1] [rd]
    let k := s.core c
    let t := k.gx rs1 + scaled imm 4
    if t.toNat % 4 ≠ 0 then s.except c 3 t else (s.onCore c fun k => k.setX rd (k.pc + 4)).jumpTo c t

end Sys2Proof.Machine
end

