-- ==== Sys2Proof/Machine/Coproc.lean ====
section
/-! DEFINITION. The coprocessor block of the cores: issue, CPSTAT, CPSYNC, the completion of a command, and the commands
of coprocessor 6 (R316 to R318, R337, R338). -/

namespace Sys2Proof.Machine

open Sys2Proof

/-- The store kind of a coprocessor that has a control store. -/
def storeKind (p : Nat) : Option Nat :=
  match p with
  | 0 => some 0
  | 1 => some 1
  | 3 => some 2
  | 4 => some 3
  | _ => none

/-- The control-store entry of a cfunc is loaded; coprocessors without a store have none (R342). -/
def State.entryLoaded (s : State) (p fn : Nat) : Bool :=
  match storeKind p with
  | some k => s.start.image.hasEntry k fn
  | none => true

/-- Task mode cannot execute the commands of coprocessors 4 and 6. -/
def cpPriv (p : Nat) : Bool := p == 4 || p == 6

/-- The configuration that a command carries: the coprocessor registers and QMOD at issue. -/
def Core.cpCfg (k : Core) : Tab (BitVec 64) := k.cpregs.putD 0 (k.qmod.setWidth 64) 0

/-- A command joins its queue; issue to a full queue stalls for one command. -/
def State.cpIssue (s : State) (c p fn : Nat) (rd rs1 rs2 : BitVec 5) : State :=
  let s := State.cpWait c p (fun k => decide (8 ≤ (k.cp p).queue.length)) cpFuel s
  let k := s.core c
  let m : CpCmd := { seq := k.issues, issued := k.cycle, fn := fn, rd := rd.toNat, a := k.gx rs1, b := k.gx rs2
                     vl := k.vl, cfg := k.cpCfg }
  (s.onCore c fun k => { k.setCp p fun x => { x with queue := x.queue ++ [m] } with issues := k.issues + 1 }).advance c

/-- A command row in the C format: a cfunc whose entry is not loaded is ILLEGAL, and an absent coprocessor is CP_ABSENT.
-/
def State.cpRow (s : State) (c : Nat) (g : BitVec 4) (p fn : Nat) (rd rs1 rs2 : BitVec 5) : Out :=
  s.insn c g (insnWord g (0x30 + p) (fmtC fn rd rs1 rs2)) (hasCp c p && !s.entryLoaded p fn) (cpPriv p) fun s =>
    if !hasCp c p then s.except c 6 (BitVec.ofNat 64 p)
    else (s.sync c [rs1, rs2] (if returnsX p fn then [rd] else [])).cpIssue c p fn rd rs1 rs2

/-- The status word. -/
def CpState.status (x : CpState) : BitVec 64 :=
  BitVec.ofNat 64 (b2n (!x.queue.isEmpty) + 2 * b2n x.fault.isSome + 16 * (x.fault.getD 0 % 256) + 65536 * x.queue.length)

/-- CPSTAT: the status word without waiting for the commands. -/
def execCpstat (c : Nat) (g : BitVec 4) (cp : BitVec 4) (rd : BitVec 5) (s : State) : Out :=
  let p := cp.toNat
  s.insn c g (insnWord g (0x30 + p) (fmtC 0x78 rd 0 0)) false (cpPriv p) fun s =>
    if !hasCp c p then s.except c 6 (BitVec.ofNat 64 p)
    else ((s.sync c [] [rd]).onCore c fun k => k.setX rd (k.cp p).status).advance c

/-- CPSYNC: it waits for every earlier command; a fault is read, which clears it, and raises CP_FAULT. -/
def execCpsync (c : Nat) (g : BitVec 4) (cp : BitVec 4) (rd : BitVec 5) (s : State) : Out :=
  let p := cp.toNat
  s.insn c g (insnWord g (0x30 + p) (fmtC 0x7F rd 0 0)) false (cpPriv p) fun s =>
    if !hasCp c p then s.except c 6 (BitVec.ofNat 64 p)
    else
      let s := State.cpWait c p (fun k => !(k.cp p).queue.isEmpty) cpFuel (s.sync c [] [rd])
      match ((s.core c).cp p).fault with
      | some f => (s.onCore c fun k => k.setCp p fun x => { x with fault := none }).except c 7 (BitVec.ofNat 64 (p + 16 * f))
      | none => (s.onCore c fun k => k.setX rd (k.cp p).status).advance c

/-- A queued command ends: one that has ended by the core's cycle, or the next one of a core that issues nothing. -/
def execCoprocessorCommandComplete (c cp : Nat) (s : State) : Out :=
  if 69 ≤ c then .fault .noSuchCore
  else match (s.core c).cpNext cp with
    | none => .next s
    | some (q, m) =>
      let (t, stop) := s.cpRun c q m
      let k := s.core c
      if q ≠ cp then .next s
      else if stop ≤ k.cycle then .next t
      else if k.waiting || k.halted then .next (t.onCore c fun k => k.stallTo stop)
      else .next s

/-! ## Coprocessor 6 (R318) -/

/-- BNLAUNCH. -/
def execBnlaunch (c : Nat) (g : BitVec 4) (rd rs1 rs2 : BitVec 5) (s : State) : Out := s.cpRow c g 6 0x01 rd rs1 rs2

/-- BNPOLL. -/
def execBnpoll (c : Nat) (g : BitVec 4) (rd rs1 : BitVec 5) (s : State) : Out := s.cpRow c g 6 0x02 rd rs1 0

/-- BNCLEAR. -/
def execBnclear (c : Nat) (g : BitVec 4) (rs1 : BitVec 5) (s : State) : Out := s.cpRow c g 6 0x03 0 rs1 0

end Sys2Proof.Machine
end

