-- ==== Sys2Proof/Machine/Guard.lean ====
section
/-! DEFINITION. The guard instructions (R303). -/

namespace Sys2Proof.Machine

open Sys2Proof

/-- A GOP: it waits for the beats that write the guards it names; a write of g0 is discarded. -/
def State.gopRow (s : State) (c : Nat) (g : BitVec 4) (w : BitVec 32) (reads : List (BitVec 5)) (guards : List (BitVec 3))
    (gd : BitVec 3) (f : Core → Bool) : Out :=
  s.insn c g w false false fun s =>
    (((s.sync c reads []).waitGuards c (gd :: guards)).onCore c fun k => k.setG gd (f k)).advance c

/-- GCMP: cc on the flags of rs1 - rs2. -/
def execGcmp (c : Nat) (g : BitVec 4) (gd : BitVec 3) (rs1 rs2 : BitVec 5) (cc : BitVec 4) (s : State) : Out :=
  s.gopRow c g (insnWord g 0x0E (fmtG gd rs1 rs2 cc 0)) [rs1, rs2] [] gd fun k =>
    condHolds cc (subFl (k.gx rs1) (k.gx rs2) true).2

/-- GSET: cc on FL. -/
def execGset (c : Nat) (g : BitVec 4) (gd : BitVec 3) (cc : BitVec 4) (s : State) : Out :=
  s.gopRow c g (insnWord g 0x0E (fmtG gd 0 0 cc 1)) [] [] gd fun k => condHolds cc k.fl

/-- A logical function of two guards; cc[0] and cc[1] invert them. -/
def State.glogRow (s : State) (c : Nat) (g : BitVec 4) (gfunc : Nat) (gd gs1 gs2 : BitVec 3) (inv1 inv2 : Bool)
    (op : Bool → Bool → Bool) : Out :=
  s.gopRow c g (insnWord g 0x0E (fmtG gd (gs1.setWidth 5) (gs2.setWidth 5) (0#2 ++ BitVec.ofBool inv2 ++ BitVec.ofBool inv1) gfunc))
    [] [gs1, gs2] gd fun k => op (k.readG gs1 != inv1) (k.readG gs2 != inv2)

def execGand (c : Nat) (g : BitVec 4) (gd gs1 gs2 : BitVec 3) (inv1 inv2 : Bool) (s : State) : Out :=
  s.glogRow c g 2 gd gs1 gs2 inv1 inv2 fun a b => a && b

def execGor (c : Nat) (g : BitVec 4) (gd gs1 gs2 : BitVec 3) (inv1 inv2 : Bool) (s : State) : Out :=
  s.glogRow c g 3 gd gs1 gs2 inv1 inv2 fun a b => a || b

def execGxor (c : Nat) (g : BitVec 4) (gd gs1 gs2 : BitVec 3) (inv1 inv2 : Bool) (s : State) : Out :=
  s.glogRow c g 4 gd gs1 gs2 inv1 inv2 fun a b => a != b

/-- GFROMX: rs1[0], inverted by cc[0]. -/
def execGfromx (c : Nat) (g : BitVec 4) (gd : BitVec 3) (rs1 : BitVec 5) (inv : Bool) (s : State) : Out :=
  s.gopRow c g (insnWord g 0x0E (fmtG gd rs1 0 ((BitVec.ofBool inv).setWidth 4) 5)) [rs1] [] gd fun k => (k.gx rs1).getLsbD 0 != inv

end Sys2Proof.Machine
end

