-- ==== Sys2Proof/Machine/HashCode.lean ====
section
/-! DEFINITION. The results of the hash-based and code-based commands (R153 to R161, R167, R171, R173 to R176). -/

namespace Sys2Proof.Machine

open Sys2Proof

/-! ## SLH-DSA (R153 to R156) -/

/-- The stored secret is SK.seed, SK.prf and PK.seed as drawn, then PK.root (R153). -/
def execSlhdsaKeygen (ctx : Nat) (s : State) : Out :=
  .next (s.compute ctx 0x1201 fun c s =>
    let p := s.setOf c
    let seeds := (c.drawn p).take (3 * slhN p)
    let m := seeds ++ fit (slhN p) (Config.prim .slhPublic p [seeds])
    s.createdResult c m [] (pubOf p m) 0 0)

/-- A deterministic signature uses PK.seed in place of opt_rand (FIPS 205). -/
def execSlhdsaSign (ctx : Nat) (s : State) : Out :=
  .next (s.compute ctx 0x1202 fun c s =>
    let p := s.setOf c
    let h := s.headOf c
    let key := s.secretIn c c.keyA
    let rnd := if uAt h 3 1 = 0 then (c.drawn p).take (slhN p) else bytesAt key (2 * slhN p) (slhN p)
    Result.output (fit (setRow p).out (Config.prim .slhSign p [key, signedString h 16 (s.messageOf c), rnd])))

def execSlhdsaVerify (ctx : Nat) (s : State) : Out :=
  .next (s.compute ctx 0x1203 fun c s =>
    let p := s.setOf c
    let m' := signedString (s.headOf c) (s.sigOff c p + (setRow p).out) (s.messageOf c)
    Result.verdict (Config.verdict .slhVerify p [s.pkOf c 16 p, m', s.sigOf c p]))

def execSlhdsaPublic (ctx : Nat) (s : State) : Out := .next (s.compute ctx 0x1204 fun c s => s.publicResult c)

/-! ## Stateful keys: generation (R160, R161, R166, R171) -/

/-- The seed of a stateful key (R248): under CDI_X or CDI_S as the SEAL field says. -/
def State.statefulSeed (s : State) (c : Ctx) (keyId : Nat) : Bytes :=
  let b := c.payload
  let cdi := if (policyOf b).sealBy = 0 then s.keys.cdiX else s.keys.cdiS
  kmac256 32 cdi (le 2 c.slice ++ le 8 keyId ++ bytesAt b 0x60 32) "MAELARN-STATEFUL"

/-- The material of a stateful key: its seed and the first 24 bytes of its key block (log 29). -/
def State.statefulMaterial (s : State) (c : Ctx) (keyId : Nat) : Bytes := s.statefulSeed c keyId ++ bytesAt c.payload 64 24

/-- Leaves of one reservation (R160). -/
def blockOf (b : Bytes) (total : Nat) : Nat :=
  let n := if uAt b 0x44 4 = 0 then 65536 else uAt b 0x44 4
  min n total

/-- The first execution of a stateful key generation: the tests, the slot, the KEY_ID and the counters whose trees the
builds then cache. -/
def State.startStateful (s : State) (i : Nat) (c : Ctx) : State :=
  match s.keyTests c with
  | .error st => s.refuse i st
  | .ok t =>
    match t.reserveFor i c with
    | none => s.refuse i St.quota
    | some t =>
      let p := s.setOf c
      let id := t.stateful.keyIdCtr + 1
      let m := t.statefulMaterial c id
      let total := totalLeaves p m
      let h := match t.ctxs.find i with | some d => d.reserved.getD 0 | none => 0
      let l : Leaves := { next := 0, reservedEnd := 0, total := total, block := blockOf c.payload total
                          heights := heightsOf p m, handle := h }
      let t := { t with stateful := { t.stateful with keyIdCtr := id, keys := t.stateful.keys.put id l } }
      t.setCtx i fun c => { c with phase := .running, leaf := some id, launchV := t.datum.v, launchTick := t.now, progress := t.now }

/-- The end of a stateful key generation: its trees are cached, its first record is written within the budget, and the
key goes into its slot. -/
def State.finishStateful (s : State) (i : Nat) (c : Ctx) (id : Nat) : State :=
  match s.stateful.keys.find id with
  | none => s.failWith i St.unitFault
  | some l =>
    if c.drop then (s.removeStateful id).failWith i St.aborted
    else if !s.treesCached id || !s.journalRoom then s
    else
      let p := s.setOf c
      let m := s.statefulMaterial c id
      let pub := statefulPub p m
      let n := min l.block l.total
      if c.outLimit < 8 + pub.length then (s.removeStateful id).failWith i St.outLimit
      else if c.orphaned then (s.removeStateful id).failWith i St.keyOrphaned
      else
        let s := s.journalWrite id 0 n l.total l.block l.handle
        let s := { s with stateful := { s.stateful with keys := s.stateful.keys.put id { l with reservedEnd := n } } }
        s.releaseResult i c (s.createdResult c m pub pub 16 id)

/-- A stateful key generation: its row runs once to begin and again until its trees are cached. -/
def State.statefulKeygen (s : State) (i opcode : Nat) : State :=
  match s.ctxs.find i with
  | none => s
  | some c =>
    if c.opcode ≠ opcode then s
    else if c.phase = .waiting then s.runCore i opcode fun c s => s.startStateful i c
    else if c.phase = .running && s.serving && !s.unsettled then
      match c.leaf with
      | some id => s.finishStateful i c id
      | none => s
    else s

def execLmsKeygen (ctx : Nat) (s : State) : Out := .next (s.statefulKeygen ctx 0x1301)
def execXmssKeygen (ctx : Nat) (s : State) : Out := .next (s.statefulKeygen ctx 0x1401)

/-! ## Stateful keys: signing, verification, PUBLIC and STATE -/

def execLmsSign (ctx : Nat) (s : State) : Out :=
  .next (s.compute ctx 0x1302 fun c s =>
    Result.output (fit (s.statefulSigLen c.keyA)
      (Config.prim .hssSign (s.setOf c) [s.secretIn c c.keyA, le 8 (c.leaf.getD 0), s.messageOf c])))

def execXmssSign (ctx : Nat) (s : State) : Out :=
  .next (s.compute ctx 0x1402 fun c s =>
    Result.output (fit (s.statefulSigLen c.keyA)
      (Config.prim .xmssSign (s.setOf c) [s.secretIn c c.keyA, le 8 (c.leaf.getD 0), s.messageOf c])))

def execLmsVerify (ctx : Nat) (s : State) : Out :=
  .next (s.compute ctx 0x1303 fun c s =>
    let pk := s.statefulVerifyKey c
    let sig := s.statefulVerifySig c
    Result.verdict (hssShape pk sig && Config.verdict .hssVerify 0x00130001 [pk, s.messageOf c, sig]))

def execXmssVerify (ctx : Nat) (s : State) : Out :=
  .next (s.compute ctx 0x1403 fun c s =>
    let p := s.setOf c
    let pk := s.statefulVerifyKey c
    let sig := s.statefulVerifySig c
    Result.verdict (xmssShape p pk sig && Config.verdict .xmssVerify p [pk, s.messageOf c, sig]))

/-- PUBLIC and STATE of a stateful key run on the chief core after the tests of R143, steps 1 to 3 (R171). -/
def State.chiefKeyed (s : State) (i opcode : Nat) (f : Ctx → State → Bytes) : State :=
  s.runCore i opcode fun c s =>
    match s.keyTests c with
    | .error st => s.refuse i st
    | .ok t => t.answer i (f c t)

/-- KEY_ID, next leaf, total leaves, reserved end. -/
def State.statefulState (s : State) (c : Ctx) : Bytes :=
  let id := s.keyIdOf c.keyA
  match s.stateful.keys.find id with
  | some l => le 8 id ++ le 8 l.next ++ le 8 l.total ++ le 8 l.reservedEnd
  | none =>
    let n := totalLeaves (s.policyOfKey c.keyA).param (s.secretOf c.keyA)
    le 8 id ++ le 8 n ++ le 8 n ++ le 8 n

def execLmsPublic (ctx : Nat) (s : State) : Out := .next (s.chiefKeyed ctx 0x1304 fun c s => s.publicOf c.keyA)
def execXmssPublic (ctx : Nat) (s : State) : Out := .next (s.chiefKeyed ctx 0x1404 fun c s => s.publicOf c.keyA)
def execLmsState (ctx : Nat) (s : State) : Out := .next (s.chiefKeyed ctx 0x1305 fun c s => s.statefulState c)
def execXmssState (ctx : Nat) (s : State) : Out := .next (s.chiefKeyed ctx 0x1405 fun c s => s.statefulState c)

/-! ## Classic McEliece and HQC (R173 to R176) -/

/-- Generation of a code-based key: the stored secret is the whole secret key. -/
def State.codeKey (s : State) (c : Ctx) (f : Prim) : Result :=
  let p := s.setOf c
  let m := fit (setRow p).secret (Config.prim f p [(c.drawn p).take (seedLen p)])
  s.createdResult c m [] (pubOf p m) 0 0

def execMceKeygen (ctx : Nat) (s : State) : Out := .next (s.compute ctx 0x1501 fun c s => s.codeKey c .mceSecret)
def execHqcKeygen (ctx : Nat) (s : State) : Out := .next (s.compute ctx 0x1511 fun c s => s.codeKey c .hqcSecret)

/-- Octets that an encapsulation draws before its mask (R181). -/
def encapsSeed (_ : Nat) (draw : Bytes) : Bytes := draw.take (draw.length - 32)

/-- An encapsulation to a code-based key; a key of the payload passes its padding check (R175). -/
def State.codeEncaps (s : State) (c : Ctx) (ok : Verdict) (ct key : Prim) : Result :=
  let p := s.setOf c
  let pk := if c.keyA = 0 then s.messageOf c else s.publicOf c.keyA
  let e := encapsSeed p (c.drawn p)
  if c.keyA = 0 ∧ !Config.verdict ok p [pk] then Result.bare St.inputRejected
  else s.childResult c (fit (setRow p).shared (Config.prim key p [pk, e])) true (fit (setRow p).out (Config.prim ct p [pk, e]))

def execMceEncaps (ctx : Nat) (s : State) : Out :=
  .next (s.compute ctx 0x1502 fun c s => s.codeEncaps c .mceKeyOk .mceEncapsCt .mceEncapsKey)
def execHqcEncaps (ctx : Nat) (s : State) : Out :=
  .next (s.compute ctx 0x1512 fun c s => s.codeEncaps c .hqcKeyOk .hqcEncapsCt .hqcEncapsKey)

/-- A decapsulation: a ciphertext that fails re-encryption yields the implicit-rejection secret. -/
def State.codeDecaps (s : State) (c : Ctx) (f : Prim) : Result :=
  let p := s.setOf c
  s.childResult c (fit (setRow p).shared (Config.prim f p [s.secretIn c c.keyA, c.payload])) true []

def execMceDecaps (ctx : Nat) (s : State) : Out := .next (s.compute ctx 0x1503 fun c s => s.codeDecaps c .mceDecaps)
def execHqcDecaps (ctx : Nat) (s : State) : Out := .next (s.compute ctx 0x1513 fun c s => s.codeDecaps c .hqcDecaps)
def execMcePublic (ctx : Nat) (s : State) : Out := .next (s.compute ctx 0x1504 fun c s => s.publicResult c)
def execHqcPublic (ctx : Nat) (s : State) : Out := .next (s.compute ctx 0x1514 fun c s => s.publicResult c)

end Sys2Proof.Machine
end

