-- ==== Sys2Proof/Machine/Stateful.lean ====
section
/-! DEFINITION. Tree builds and reservations of stateful keys (R162, R163, R169). -/

namespace Sys2Proof.Machine

open Sys2Proof

/-! ## Trees (R162, R163) -/

/-- The LM-OTS typecode of a level of the key of a KEY_ID; the next bottom tree is a tree of the bottom level. -/
def State.levelOts (s : State) (l : Leaves) (level : Nat) : Nat :=
  blockOts (s.shapeOf l.handle) (min level (l.heights.length - 1))

/-- The key material of a KEY_ID's handle, or of the key generation that is building it. -/
def State.buildParam (s : State) (l : Leaves) : Nat :=
  match s.ctxs.vals.find? fun c => c.reserved == some l.handle with
  | some c => c.param
  | none => (s.policyOfKey l.handle).param

/-- The LM-OTS typecode while the key generation still holds the key block. -/
def State.buildOts (s : State) (l : Leaves) (level : Nat) : Nat :=
  match s.ctxs.vals.find? fun c => c.reserved == some l.handle with
  | some c => blockOts (bytesAt c.payload 64 24) (min level (l.heights.length - 1))
  | none => s.levelOts l level

/-- Height of a level; the next bottom tree has that of the bottom level. -/
def Leaves.height (l : Leaves) (level : Nat) : Nat := l.heights.getD (min level (l.heights.length - 1)) 0

/-- Leaves and ticks of one batch (R163). -/
def State.batchShape (s : State) (l : Leaves) (level : Nat) : Nat × Nat :=
  if paramGroup (s.buildParam l) = 0x14 then (8, 528)
  else match otsWidth (s.buildOts l level) with
    | 0 => (16, 192)
    | 1 => (16, 272)
    | 2 => (16, 672)
    | _ => (2, 722)

/-- Batches of a tree. -/
def State.batchCount (s : State) (l : Leaves) (level : Nat) : Nat := ceilDiv (2 ^ l.height level) (s.batchShape l level).1

/-- Ticks of a tree's join. -/
def State.joinTicks (s : State) (l : Leaves) (level : Nat) : Nat :=
  ceilDiv (s.batchCount l level) (if paramGroup (s.buildParam l) = 0x14 then 8 else 24)

/-- A streamed signature waits at the head of its ring for the trees of a key: it has no context yet (R162, R167). -/
def State.headNames (s : State) (h : Nat) : Bool :=
  s.queues.vals.any fun x =>
    decide (0 < x.fill) && (let d := hdrOf (s.ringRead x 1 x.h)
      d.keyA == h && (d.opcode == 0x1302 || d.opcode == 0x1402))

/-- An unreleased operation, or one at the head of a ring, needs the trees of a key. -/
def State.treesNeeded (s : State) (id : Nat) : Bool :=
  match s.stateful.keys.find id with
  | some l => (s.ctxs.vals.any fun c => c.keyA == l.handle || c.reserved == some l.handle) || s.headNames l.handle
  | none => false

/-- A place in the tree cache of 64: the least recently used cached tree that no unreleased operation needs goes. -/
def State.treeRoom (s : State) : Option (List Tree) :=
  let l := s.stateful.trees
  if l.length < 64 then some l
  else match l.find? fun t => t.left == 0 && !s.treesNeeded t.keyId with
    | some t => some (l.erase t)
    | none => none

/-- The tree of a level is to be built: an operation waits for it, or half of the current bottom tree has been issued and
another follows it. -/
def State.treeDue (s : State) (id level : Nat) (l : Leaves) : Bool :=
  let n := l.heights.length
  if level < n then s.treesNeeded id
  else
    let size := 2 ^ l.height (n - 1)
    level == n && decide (1 < n) && decide (size ≤ 2 * (l.next % size)) && decide ((l.next / size + 1) * size < l.total)

/-- Gives a tree of a key its entry, with its batches and join to run. -/
def State.openTree (s : State) (id level : Nat) (l : Leaves) : State :=
  match s.treeRoom with
  | none => s
  | some ts =>
    let t : Tree := { keyId := id, level := level, left := s.batchCount l level + 1 }
    { s with stateful := { s.stateful with trees := ts ++ [t] } }

/-- Builds of a tree under way. -/
def State.buildsOf (s : State) (id level : Nat) : List Build :=
  s.stateful.builds.filter fun b => b.id == id && b.level == level

/-- Changes the builds under way. -/
def State.setBuilds (s : State) (f : List Build → List Build) : State :=
  { s with stateful := { s.stateful with builds := f s.stateful.builds } }

/-- Ticks of the next piece of a tree with `left` pieces to run: the join comes last. -/
def State.pieceTicks (s : State) (l : Leaves) (level left : Nat) : Nat :=
  if left = 1 then s.joinTicks l level else (s.batchShape l level).2

/-- The benchmark set of a stateful key's builds. -/
def State.buildSet (s : State) (l : Leaves) : Nat := s.buildParam l

/-- Frees a sheet that still runs a piece of a key's trees. -/
def State.freeTreeJob (s : State) (u id : Nat) : State :=
  match (s.unitSt u).job with
  | .treeBatch n _ => if n = id then s.endUnit u else s
  | _ => s

/-- The commands that wait for the trees of a key: its generation, and those that name it. -/
def State.treeWaiters (s : State) (l : Leaves) : List Nat :=
  (s.ctxs.filter fun p => !p.2.phase.decided && (p.2.reserved == some l.handle || p.2.keyA == l.handle)).map Prod.fst

/-- Builds that draw meet random service as the command that needs the tree would: it waits under RNG_WAIT, or fails where
the service has halted (R152, R181). -/
def State.treeDraw (s : State) (r : Nat) (l : Leaves) (go : State → State) : State :=
  match s.drawState r with
  | .serves => go s
  | .waits => (s.treeWaiters l).foldl State.awaitDraw s
  | .failed => (s.treeWaiters l).foldl (fun t i =>
      match t.ctxs.find i with
      | some c => if c.phase = .waiting then t.refuse i St.entropyFailed
                  else if c.reserved.isSome then t.failWith i St.entropyFailed else t
      | none => t) s

/-- The first leg of a piece of `n` ticks and what follows it. -/
def firstLeg (n : Nat) : Nat × List Nat := match defaultLegs n with | t :: l => (t, l) | [] => (0, [])

/-- A batch or the join launches on a free sheet of any region; a piece of more than 1,000 ticks runs in legs (R49). -/
def State.launchBatch (s : State) (u : Nat) (t : Tree) (l : Leaves) : State :=
  let busy := (s.buildsOf t.keyId t.level).length
  let r := unitRegion u
  let (leg, left) := firstLeg (s.pieceTicks l t.level t.left)
  let set := s.buildSet l
  if t.left = 0 ∨ (t.left ≤ busy + 1 ∧ t.left ≠ 1) ∨ (t.left = 1 ∧ busy ≠ 0) then s
  else if unitKind u ≠ 0 ∨ !s.unitFree u ∨ !s.meetsR19 r 0 then s
  else s.treeDraw r l fun s =>
    match s.benchFirst u leg set with
    | some b => s.startBench u b false
    | none =>
      let s := s.drawFor r u 32
      (s.startJob u (.treeBatch t.keyId t.level) leg set).setBuilds fun bs =>
        bs ++ [{ id := t.keyId, level := t.level, unit := u, check := none, ends := s.now + leg, left := left }]

/-- The next leg of a piece on its sheet, after a benchmark where one is due. -/
def State.legBatch (s : State) (b : Build) (l : Leaves) : State :=
  let u := b.sheet
  let leg := b.left.headD 0
  let set := s.buildSet l
  if !s.mayLaunch u || !s.jobFree u then s
  else match s.benchFirst u leg set with
    | some m => s.startBench u m false
    | none => (s.startJob u (.treeBatch b.id b.level) leg set).setBuilds fun bs =>
        bs.map fun x => if x = b then { x with ends := s.now + leg, left := b.left.tail } else x

/-- The partner of a finished batch or join recomputes it. -/
def State.checkBatch (s : State) (u : Nat) (b : Build) (t : Tree) (l : Leaves) : State :=
  let r := unitRegion b.unit
  let (leg, left) := firstLeg (s.pieceTicks l t.level t.left)
  let set := s.buildSet l
  if !s.meetsR19 r 0 then s.setBuilds (·.erase b)
  else if unitRegion u ≠ r ∨ unitKind u ≠ 0 ∨ u = b.unit ∨ !s.unitFree u ∨ s.passedOver u b.unit then s
  else s.treeDraw r l fun s =>
    match s.benchFirst u leg set with
    | some m => s.startBench u m false
    | none =>
      let s := s.drawFor r u 32
      ((s.freeTreeJob b.unit b.id).startJob u (.treeBatch b.id b.level) leg set).setBuilds fun bs =>
        bs.map fun x => if x = b then { x with check := some u, ends := s.now + leg, left := left } else x

/-- The check of a batch or join ends: one piece less, or both sheets are charged and it runs again. -/
def State.endBatch (s : State) (v : Nat) (b : Build) (ok : Bool) : State :=
  let s := (s.freeTreeJob v b.id).setBuilds (·.erase b)
  if ok then
    { s with stateful := { s.stateful with trees := s.stateful.trees.map fun t =>
        if t.keyId = b.id ∧ t.level = b.level then { t with left := t.left - 1 } else t } }
  else (s.charge b.unit 1).charge v 1

/-- A build whose current leg is over. -/
def Build.over (now : Nat) (b : Build) : Bool := decide (b.ends ≤ now)

/-- The next thing that the tree of a key at a level needs: a further leg; a check that ends, with verdict `ok`; the check
of a finished batch on sheet `u`; or a new batch or join on sheet `u`. -/
def State.treeOn (s : State) (keyId level u : Nat) (ok : Bool) : State :=
  match s.stateful.keys.find keyId with
  | none => s
  | some l =>
    if !s.serving || s.unsettled then s
    else match s.tree keyId level with
      | none => if s.treeDue keyId level l then s.openTree keyId level l else s
      | some t =>
        let mine := (s.buildsOf keyId level).filter (Build.over s.now)
        match mine.find? fun b => !b.left.isEmpty with
        | some b => s.legBatch b l
        | none =>
          match mine.find? fun b => b.check.isSome with
          | some b => s.endBatch (b.check.getD 0) b ok
          | none =>
            match mine.find? fun b => b.check.isNone && decide (unitRegion b.unit = unitRegion u) with
            | some b => s.checkBatch u b t l
            | none => s.launchBatch u t l

/-! ## JOURNAL_RESERVE (R169) -/

/-- A key needs its next reservation: a quarter of the current block is left, and leaves remain beyond it. -/
def Leaves.reserveDue (l : Leaves) : Bool :=
  decide (4 * (l.reservedEnd - l.next) ≤ l.block) && decide (l.reservedEnd < l.total)

/-- A key that has handed over or lost its leaves takes no further reservation (R166). -/
def State.reserves (s : State) (keyId : Nat) : Bool :=
  match s.recOf keyId with | some r => !r.exhausted | none => false

/-- The journal's next write: a record that waits for the budget, or a new reservation of a key, confirmed as it is
written (R169). -/
def execJournalReserve (keyId : Nat) (s : State) : Out :=
  if !s.stateful.owed.isEmpty then .next s.payJournal
  else match s.stateful.keys.find keyId with
  | none => .next s
  | some l =>
    if !s.serving || !l.reserveDue || !s.journalRoom || !s.reserves keyId then .next s
    else
      let stop := min (l.reservedEnd + l.block) l.total
      let s := s.journalWrite keyId ((s.recOf keyId).map JRec.flags |>.getD 0) stop l.total l.block l.handle
      .next { s with stateful := { s.stateful with keys := s.stateful.keys.put keyId { l with reservedEnd := stop } } }

end Sys2Proof.Machine
end

