-- ==== Sys2Proof/Machine/Turns.lean ====
section
/-! DEFINITION. The distribution of a boundary's launches over slices and queues (R101), and the four commands that launch
the work of a slice under it. -/

namespace Sys2Proof.Machine

open Sys2Proof

/-! ## What a launch takes -/

/-- Ticks of what runs and of its further legs. -/
def Part.load (now : Nat) (p : Part) : Nat :=
  if p.phase = .running ∨ p.phase = .checking then (p.ends - now) + p.left.sum else 0

/-- The same of a command. -/
def State.loadOf (s : State) (i : Nat) : Nat :=
  match s.ctxs.find i with
  | some c => (c.parts.map (Part.load s.now)).sum
  | none => 0

/-- Launch ticks that a state holds of a command beyond another. -/
def State.launched (s t : State) (i : Nat) : Nat := t.loadOf i - s.loadOf i

/-! ## Launchable work -/

/-- Some slab launch on the pipe given starts work of a command. -/
def State.slabStarts (s : State) (i u : Nat) : Bool :=
  (List.range 4).any fun l => (kindUnits (unitRegion u) (unitKind u)).any fun cu =>
    [4, 5, 6, 7].any fun cl => s.launched (s.slabOn i u l cu cl) i != 0

/-- Some launch on the unit given starts work of a command. -/
def State.startsOn (s : State) (i u : Nat) : Bool :=
  s.launched (s.launchOn i u) i != 0 || s.launched (s.checkOn i u) i != 0 || s.launched (s.rerunOn i u) i != 0 ||
  (decide (2 ≤ unitKind u) && s.slabStarts i u)

/-- A command has launchable work of a kind in a region at this boundary. -/
def State.launchable (s : State) (i r k : Nat) : Bool := (kindUnits r k).any (s.startsOn i)

/-- Launch ticks that a step gives a sheet for the trees of a key. -/
def State.treeTicks (s t : State) (u : Nat) : Nat :=
  match (t.unitSt u).job with
  | .treeBatch _ _ => if (t.unitSt u).job = (s.unitSt u).job ∧ (t.unitSt u).ends = (s.unitSt u).ends then 0 else (t.unitSt u).ends - s.now
  | _ => 0

/-- The slice of a stateful key has a piece of a tree that a sheet of the region could take (R163). -/
def State.treeReady (s : State) (id r : Nat) (l : Leaves) : Bool :=
  (List.range (l.heights.length + 1)).any fun level =>
    (kindUnits r 0).any fun u => s.treeTicks (s.treeOn id level u true) u != 0

/-- The slices and queues, other than the one given, that have launchable work of a kind in a region; tree builds go by
queue 0. -/
def State.rivals (s : State) (slice q r k : Nat) : List (Nat × Nat) :=
  ((s.ctxs.filter fun p => !p.2.phase.decided && (p.2.slice != slice || p.2.q != q) && s.launchable p.1 r k).map
    fun p => (p.2.slice, p.2.q)) ++
  (if k = 0 then
    (s.stateful.keys.filter fun p => (p.2.handle / 2 ^ 48 != slice || q != 0) && s.treeReady p.1 r p.2).map
      fun p => (p.2.handle / 2 ^ 48, 0)
   else [])

/-! ## Weighted round robin (R101)

Each slice has a virtual time: its launch ticks over its WEIGHT, counted while it has launchable work. The slice with the
least has the turn; of its queues the next one after the queue served last. Virtual time, ties, and the weight of queue 0,
which has no slice, are the model's (DESIGN CHOICE, log 116). -/

/-- WEIGHT of a slice; queue 0 counts as 1,000. -/
def State.weightOf (s : State) (n : Nat) : Nat := match s.slices.find n with | some x => max 1 x.weight | none => 1000

/-- The turns kept for a kind of unit in a region. -/
def State.turnsOf (s : State) (r k : Nat) : List Turn := s.turns.getD (4 * r + k) []

/-- The turn of a slice among those with launchable work: one that has none yet starts with the least of the others. -/
def turnOf (l : List Turn) (active : List Nat) (n : Nat) : Turn :=
  match l.find? fun t => t.slice == n with
  | some t => t
  | none => { slice := n, queue := 0
              time := (l.filter fun t => active.contains t.slice).foldl (fun a t => if a = 0 then t.time else min a t.time) 0 }

/-- How far a queue stands behind the one served last. -/
def queueGap (last q : Nat) : Nat := (q + 65536 - last - 1) % 65536

/-- A slice and queue have the turn for a launch of a kind in a region. -/
def State.myTurn (s : State) (slice q r k : Nat) : Bool :=
  let others := s.rivals slice q r k
  let active := slice :: others.map Prod.fst
  let mine := turnOf (s.turnsOf r k) active slice
  others.all fun d =>
    if d.1 = slice then decide (queueGap mine.queue q ≤ queueGap mine.queue d.2)
    else decide (mine.time ≤ (turnOf (s.turnsOf r k) active d.1).time)

/-- A launch of so many ticks has been served; slices without launchable work lose their turns. -/
def State.tookTurn (s : State) (slice q r k ticks : Nat) (others : List (Nat × Nat)) : State :=
  let l := s.turnsOf r k
  let active := slice :: others.map Prod.fst
  let mine := turnOf l active slice
  let served : Turn := { mine with time := mine.time + ticks * 2 ^ 20 / s.weightOf slice, queue := q }
  { s with turns := s.turns.put (4 * r + k) (served :: (active.eraseDups.filter (· != slice)).map (turnOf l active)) }

/-- A launch attempt `t` on a unit for a slice and queue, which takes so many ticks: where it takes any, it needs the turn. -/
def State.inTurn (s : State) (slice q u ticks : Nat) (t : State) : State :=
  let r := unitRegion u
  let k := unitKind u
  if ticks = 0 then t
  else if s.myTurn slice q r k then t.tookTurn slice q r k ticks (s.rivals slice q r k)
  else s

/-- The same for a command. -/
def State.cmdTurn (s : State) (i u : Nat) (t : State) : State :=
  match s.ctxs.find i with
  | none => t
  | some c => s.inTurn c.slice c.q u (s.launched t i) t

/-! ## The launch commands -/

def execOperationLaunch (ctx u : Nat) (s : State) : Out :=
  if 104 ≤ u then .fault .noSuchUnit else .next (s.cmdTurn ctx u (s.launchOn ctx u))

def execCheckLaunch (ctx u : Nat) (s : State) : Out :=
  if 104 ≤ u then .fault .noSuchUnit else .next (s.cmdTurn ctx u (s.checkOn ctx u))

def execRerunLaunch (ctx u : Nat) (s : State) : Out :=
  if 104 ≤ u then .fault .noSuchUnit else .next (s.cmdTurn ctx u (s.rerunOn ctx u))

/-- A ready slab goes to work lane `lane` of pipe `u`, its mirror to check lane `clane` of pipe `cu` (R222, R224). -/
def execSlabLaunch (ctx u lane cu clane : Nat) (s : State) : Out :=
  if 104 ≤ u ∨ 104 ≤ cu then .fault .noSuchUnit else .next (s.cmdTurn ctx u (s.slabOn ctx u lane cu clane))

/-- TREE_BATCH_LAUNCH: the next thing that the tree of a key needs (R162, R163); what it launches takes the slice's turn. -/
def execTreeBatchLaunch (keyId level u : Nat) (ok : Bool) (s : State) : Out :=
  if 104 ≤ u then .fault .noSuchUnit
  else match s.stateful.keys.find keyId with
    | none => .next s
    | some l =>
      let t := s.treeOn keyId level u ok
      .next (s.inTurn (l.handle / 2 ^ 48) 0 u (s.treeTicks t u) t)

end Sys2Proof.Machine
end

