-- ==== Sys2Proof/Machine/Hatching.lean ====
section
/-! DEFINITION. Hatching: the filler work of flat mode (R17, R52 to R54). -/

namespace Sys2Proof.Machine

open Sys2Proof

/-! ## Work for a unit (R52) -/

/-- The preparation of a key that a command names has something to run on a sheet (R127). -/
def State.prepReady (s : State) (i u : Nat) (c : Ctx) : Bool :=
  c.names.any fun h => ((s.prepOn h i u true).unitSt u).job != (s.unitSt u).job

/-- The trees of a key have something to run on a sheet (R163). -/
def State.treesReady (s : State) (u : Nat) : Bool :=
  s.stateful.keys.any fun p => (List.range (p.2.heights.length + 1)).any fun level =>
    s.treeTicks (s.treeOn p.1 level u true) u != 0

/-- Real work could launch on a unit at this boundary: a command, a preparation, a tree. -/
def State.workFor (s : State) (u : Nat) : Bool :=
  (s.ctxs.any fun p => !p.2.phase.decided && (s.startsOn p.1 u || (unitKind u == 0 && s.prepReady p.1 u p.2))) ||
  (unitKind u == 0 && s.treesReady u)

/-! ## HATCHING_LAUNCH -/

/-- A unit has neither real work nor a benchmark for the next tick: it may hatch (R52, R54, R285). -/
def State.mayHatch (s : State) (u : Nat) : Bool :=
  let x := s.unitSt u
  s.serving && !s.unsettled && s.datum.flat && s.unitFree u && s.hatchSeeded u && (x.scrub || decide (2 ≤ unitKind u)) && !x.needBench &&
  decide (s.now + 1 ≤ x.lastBench + 2000) && !s.workFor u

/-- The loaded parameter sets of a family, the base rows first (R52, R350). -/
def State.loadedSets (s : State) (fam : Nat) : List Nat :=
  (s.start.image.params.map fun r => s.setNum (uAt r 0 4)).filter fun p => famOf p == fam

/-- The set whose activity a unit hatches (R52): for a sheet one of the loaded sets of its family, at random; for an engine
or a pipe its current one. How the octets of the hatching stream choose is the model's (DESIGN CHOICE, log 111). -/
def State.hatchSet (s : State) (u : Nat) (draw : Bytes) : Nat :=
  let cur := (s.unitSt u).currentSet u
  if unitKind u ≠ 0 then cur
  else
    let l := s.loadedSets (famOf cur)
    l.getD (leNat draw % l.length) cur

/-- The lanes of a pipe hatch with it (R17, R53). -/
def UnitSt.hatchLanes (x : UnitSt) (u now : Nat) : Tab Lane :=
  if unitKind u < 2 then x.lanes
  else (List.range 8).foldl (fun t l => t.put l { x.lane l with hatchedAt := some now }) x.lanes

/-- A unit hatches for the tick that begins: 32 octets come from the hatching stream of its region, a figure that the spec
does not give (R53; DESIGN CHOICE, log 111). -/
def State.hatch (s : State) (u : Nat) : State :=
  let draw := drawBytes s.free 32
  (s.drawFor (9 + unitRegion u) u 32).setUnit u fun x =>
    { x with job := .hatch, ends := s.now + 1, hatchedAt := some s.now, hatching := some (s.hatchSet u draw)
             lanes := x.hatchLanes u s.now }

def execHatchingLaunch (u : Nat) (s : State) : Out :=
  if 104 ≤ u then .fault .noSuchUnit
  else if s.mayHatch u then .next (s.hatch u)
  else .next s

end Sys2Proof.Machine
end

