-- ==== Sys2Proof/Machine/KeyOps.lean ====
section
/-! DEFINITION. The commands of the key store (R253 to R270): creation, persistence, transfer, bumps and reclaim. -/

namespace Sys2Proof.Machine

open Sys2Proof

/-! ## KEY_GENERATE and KEY_LOAD_PUBLIC (R262, R263) -/

def execKeyGenerate (ctx : Nat) (s : State) : Out :=
  .next (s.compute ctx 0x4001 fun c s =>
    s.createdResult c ((c.drawn 0x00320001).take (generatedLen (s.policyAt c.payload).param)) [] [] 0 0)

def execKeyLoadPublic (ctx : Nat) (s : State) : Out :=
  .next (s.compute ctx 0x4002 fun c s =>
    let pk := c.payload.drop 64
    if publicOk (s.policyAt c.payload).param pk then s.createdResult c pk pk [] 64 0 else Result.bare St.inputRejected)

/-! ## KEY_INFO, KEY_DESTROY and KEY_EPOCH_ADVANCE (R259, R262, R267) -/

/-- The quota window index of a key's last charge, as blobs and KEY_INFO give it: all ones for none; a restored key
keeps the index of its blob. -/
def Slot.quotaIndex (x : Slot) : Nat :=
  match x.quotaIdx, x.spentTo with
  | some i, _ => i
  | none, some i => i
  | none, none => maxOf 64

/-- The 96 octets of KEY_INFO. -/
def keyInfo (h : Nat) (x : Slot) : Bytes :=
  le 8 h ++ le 8 x.parent ++ x.policy.bytes ++ le 8 x.quotaIndex ++ le 4 x.quotaCharged ++ le 4 0

def execKeyInfo (ctx : Nat) (s : State) : Out :=
  .next (s.runCore ctx 0x4003 fun c s =>
    match s.chargeSlice 0x4003 c.slice, s.liveKey c.keyA with
    | .error st, _ => s.refuse ctx st
    | .ok t, some x => t.answer ctx (keyInfo c.keyA x)
    | .ok _, none => s.refuse ctx St.keyOrphaned)

/-- KEY_DESTROY schedules the bump for the next boundary; after an earlier one of the same handle it changes nothing. -/
def execKeyDestroy (ctx : Nat) (s : State) : Out :=
  .next (s.runCore ctx 0x4004 fun c s =>
    match s.chargeSlice 0x4004 c.slice with
    | .error st => s.refuse ctx st
    | .ok t =>
      if t.keys.bumps.any (fun b => b.1 == c.keyA) || (t.liveKey c.keyA).isNone then s.refuse ctx St.keyUnknown
      else ({ t with keys := { t.keys with bumps := t.keys.bumps ++ [(c.keyA, t.now)] } }).answer ctx [])

def execKeyEpochAdvance (ctx : Nat) (s : State) : Out :=
  .next (s.runCore ctx 0x400A fun c s =>
    let e := s.keys.epochs.getD c.slice 0 + 1
    ({ s with keys := { s.keys with epochs := s.keys.epochs.put c.slice e } }).answer ctx (le 8 e))

/-! ## Persistence (R264 to R266) -/

/-- A command of an opcode is about to get its result. -/
def State.due (s : State) (i opcode : Nat) : Bool :=
  match s.ctxs.find i with
  | some c => c.opcode == opcode && c.allLaunched && c.result.isNone
  | none => false

/-- The next value of the persistence counter; a new block is reserved before any of its values is used (R265). -/
def State.nextPersist (s : State) : Nat × State :=
  let k := s.keys
  let stop := if k.persistNext = k.persistEnd then k.persistEnd + 65536 else k.persistEnd
  (k.persistNext, { s with keys := { k with persistNext := k.persistNext + 1, persistEnd := stop } })

/-- The sealing key of a SEAL field (R264). -/
def State.sealKey (s : State) (sealBy svn slice epoch : Nat) : Bytes :=
  if sealBy = 0 then
    kmac256 32 s.keys.cdiX (le 2 slice ++ le 8 epoch) "MAELARN-SEAL-X"
  else
    kmac256 32 s.keys.cdiS (le 4 svn ++ le 2 slice ++ le 8 epoch) "MAELARN-SEAL-S"

/-- The persistence blob of a key under a counter value. -/
def State.persistBlob (s : State) (c : Ctx) (x : Slot) (ctr : Nat) : Bytes :=
  let p := x.policy
  let svn := if p.sealBy = 0 then 0 else s.keys.svn
  let epoch := s.keys.epochs.getD c.slice 0
  let nonce := le 8 ctr ++ le 4 0
  let body := p.bytes ++ x.material s.keys.vaultKey
  let head := le 4 3 ++ le 2 c.slice ++ le 1 p.sealBy ++ le 1 0 ++ le 4 svn ++ le 4 body.length ++ le 8 epoch ++
    le 8 c.keyA ++ le 8 x.parent ++ le 8 x.quotaIndex ++ nonce ++ le 4 0
  head ++ sealBody (s.sealKey p.sealBy svn c.slice epoch) nonce head body

def execKeyPersist (ctx : Nat) (s : State) : Out :=
  if s.due ctx 0x4005 then
    let (ctr, s) := s.nextPersist
    .next (s.compute ctx 0x4005 fun c s =>
      match s.keys.slots.find (slotKey c.keyA) with
      | some x => Result.output (s.persistBlob c x ctr)
      | none => Result.bare St.keyOrphaned)
  else .next s

/-- Check 1 of R266: the opened body of a blob that the submitting slice may restore. -/
def State.openPersist (s : State) (c : Ctx) : Option Bytes :=
  let b := c.payload
  let n := uAt b 0x0C 4
  let svn := uAt b 8 4
  let head := b.take 0x40
  let key := s.sealKey (uAt b 6 1) svn c.slice (uAt b 0x10 8)
  if uAt b 0 4 == 3 && uAt b 4 2 == c.slice && uAt b 0x10 8 == s.keys.epochs.getD c.slice 0 && decide (uAt b 6 1 ≤ 1) &&
     (uAt b 6 1 == 0 || decide (svn ≤ s.keys.svn)) then
    match gcmOpen key (bytesAt b 0x30 12) head (bytesAt b 0x40 n) (bytesAt b (0x40 + n) 16) with
    | some body => if s.policyWf (body.take 64) && (s.policyAt body).materialLen + 64 == n then some body else none
    | none => none
  else none

/-- KEY_RESTORE: check 1 as its parts are launched; checks 2 to 5 as it is released. -/
def execKeyRestore (ctx : Nat) (s : State) : Out :=
  .next (s.compute ctx 0x4006 fun c s =>
    match s.openPersist c with
    | none => Result.bare St.inputRejected
    | some body =>
      { Result.bare St.ok with
        deposit := some (Masked.of (maskDraw c.maskOf (body.length - 64)) (body.drop 64)), depositPolicy := body.take 64 })

/-! ## Moving a key (R268, R269) -/

/-- KEY_RECEIVE_PREPARE: its output names the session that its release opens. -/
def execKeyReceivePrepare (ctx : Nat) (s : State) : Out :=
  if s.due ctx 0x4007 then
    let id := s.keys.nextSession
    let s := { s with keys := { s.keys with nextSession := (id + 1) % 2 ^ 32 } }
    .next (s.compute ctx 0x4007 fun c s =>
      let head := prepareHead id s.keys.serial (pubOf 0x00100003 ((c.drawn 0x00100003).take 64))
      Result.output (head ++ s.identitySigBy c "MAELARN-KEYMOVE" head))
  else .next s

/-- The nonce that an export's sealing slab has drawn. -/
def Ctx.slabNonce (c : Ctx) : Bytes :=
  match c.parts.find? fun p => p.slab && p.draws == 12 with
  | some p => drawBytes p.draw 12
  | none => []

def execKeyExport (ctx : Nat) (s : State) : Out :=
  .next (s.compute ctx 0x4008 fun c s =>
    let out := bytesAt c.payload 16 6307
    let chain := c.payload.drop 6323
    match s.keys.slots.find (slotKey c.keyA) with
    | none => Result.bare St.keyOrphaned
    | some x =>
      if !prepareOk "MAELARN-KEYMOVE" out chain then Result.bare St.inputRejected
      else
        let v := if c.startSt = .trusted then c.launchV else 0
        let blob := s.blobOf 2 "MAELARN-KEYMOVE" (uAt out 0 4) (uAt out 8 8) v (bytesAt out 16 1568)
          ((c.drawn 0x00100003).take 32) c.slabNonce (x.policy.bytes ++ x.material s.keys.vaultKey)
          ((c.drawn 0x00110003).take 32) ((c.drawn 0x00200002).take 32)
        { Result.output blob with destroySource := bitOf (uAt c.payload 4 2) 0 })

/-- The receive session that an envelope names, open in the submitting slice. -/
def State.receiveOf (s : State) (c : Ctx) : Option Session :=
  s.keys.receives.find? fun x => x.id == uAt c.payload 4 4 && x.slice == c.slice && !x.expired s.now

/-- The deposit of an envelope as a child of its session's parent. -/
def State.importResult (s : State) (c : Ctx) (x : Session) : Result :=
  match s.openBlob 2 "MAELARN-KEYMOVE" x (s.peerKeys c.slice (uAt c.payload 8 8)) c.payload with
  | none => Result.bare St.inputRejected
  | some body =>
    match enteringKey s body (s.policyOfKey x.parent) false with
    | none => Result.bare St.inputRejected
    | some (p, m, pub) =>
      if (s.liveKey x.parent).isNone then Result.bare St.keyOrphaned else Result.deposits c.maskOf p m pub []

def execKeyImport (ctx : Nat) (s : State) : Out :=
  if s.due ctx 0x4009 then
    match s.ctxs.find ctx with
    | none => .next s
    | some c =>
      let t := s.touchPeer c.slice (uAt c.payload 8 8)
      match s.receiveOf c with
      | none => .next (t.compute ctx 0x4009 fun _ _ => Result.bare St.inputRejected)
      | some x =>
        .next ((t.setCtx ctx fun c => { c with keyB := x.parent }).compute ctx 0x4009 fun c s => s.importResult c x)
  else .next s

def execPeerEnrol (ctx : Nat) (s : State) : Out :=
  .next (s.compute ctx 0x400B fun c _ =>
    if chainOk c.payload then Result.output (le 8 (chainSerial c.payload)) else Result.bare St.inputRejected)

/-! ## ATTEST_QUOTE (R253) -/

/-- The rights of the certificate in force. -/
def State.rightsInForce (s : State) : Nat := match s.lcs.inForce with | some c => c.rights | none => 0

/-- The 432 evidence octets. -/
def State.evidence (s : State) (c : Ctx) : Bytes :=
  le 4 1 ++ le 4 s.lcs.code ++ le 8 s.keys.serial ++ le 8 c.launchV ++ le 8 c.startUnc ++ le 4 c.startSt.code ++
  le 4 s.keys.svn ++ le 8 s.rightsInForce ++ le 4 s.keys.signer ++ le 4 c.slice ++ List.replicate 8 0 ++
  fit 32 c.payload ++ (s.keys.digests.map (fit 48)).flatten

def execAttestQuote (ctx : Nat) (s : State) : Out :=
  .next (s.compute ctx 0x6010 fun c s => Result.output (s.evidence c ++ s.identitySigBy c "MAELARN-QUOTE" (s.evidence c)))

/-! ## GENERATION_BUMP (R144, R166, R234, R242, R259) -/

/-- The live keys with a parent among the handles given. -/
def State.childrenOf (s : State) (l : List Nat) : List Nat :=
  (s.keys.slots.filter fun p => decide (p.2.st = .live) && l.contains p.2.parent).map fun p => p.1 * 2 ^ 24 + p.2.gen

/-- The live descendants of handles, `fuel` levels down: DEPTH is at most 8. -/
def State.descendants (s : State) : Nat → List Nat → List Nat
  | 0, _ => []
  | f + 1, l =>
    let k := s.childrenOf l
    if k.isEmpty then [] else k ++ State.descendants s f k

/-- No unit has launched for a command: it has at most absorbed slabs. -/
def Ctx.unlaunched (c : Ctx) : Bool :=
  decide (c.phase = .waiting) ||
  (decide (c.phase = .running) && (c.parts.filter fun p => p.unit.isSome).all Part.slab &&
    !c.parts.isEmpty && (c.stream != 0 || !slabCommand c.opcode))

/-- A launched survey batch has not launched its signing (R192). -/
def Ctx.unsigned (c : Ctx) : Bool :=
  c.opcode == 0x1A01 && decide (c.phase = .running) && !c.parts.any fun p => p.stage == 2 && p.unit.isSome

/-- What the bump of key `h` with orphans makes of one command that names one of them. -/
def State.orphanCtx (s : State) (h : Nat) (lost : List Nat) (i : Nat) : State :=
  match s.ctxs.find i with
  | none => s
  | some c =>
    if c.phase.decided || !c.names.any lost.contains then s
    else if c.opcode = 0x4004 ∧ c.keyA = h then s.refuse i St.keyUnknown
    else if c.phase = .waiting && c.parts.isEmpty then s.refuse i St.keyOrphaned
    else if c.unlaunched || (c.unsigned && lost.contains c.keyA) then
      let t := c.parts.foldl (fun t p => if p.slab then t.freeLanes i p else t) s
      if slabCommand c.opcode || c.unsigned then t.failWith i St.keyOrphaned else t.refuse i St.keyOrphaned
    else if lost.contains c.keyB then s.setCtx i fun c => { c with orphaned := true }
    else s

/-- Kept contexts of lost keys are released; open streams keep their entry until the next packet, their context cleared
(R234, R242). -/
def State.orphanStreams (s : State) (lost : List Nat) : State :=
  s.queues.foldl (fun t p => p.2.streams.foldl (fun t e =>
    if !lost.contains e.2.keyA then t
    else if e.2.st = .kept then t.dropStream p.1 e.1
    else t.setStream p.1 e.1 fun x => { x with data := [], saved := none }) t) s

/-- Contexts in order of submission within their queues, so that the first packet of a stream comes first. -/
def State.inOrder (s : State) : List Nat := (sortBy (s.ctxs.map fun p => (p.2.seq, p.1))).map Prod.snd

/-- The bump of one key: the slot awaits reclaim with the next generation, its descendants are orphaned. -/
def State.bumpKey (s : State) (h : Nat) : State :=
  match s.liveKey h with
  | none => s
  | some x =>
    let down := s.descendants 8 [h]
    let lost := h :: down
    let s := s.setSlot h fun y => { y with st := .dead, gen := y.gen + 1 }
    let s := down.foldl (fun t d => t.setSlot d fun y => { y with st := .orphaned }) s
    let s := if x.policy.stateful then s.removeStateful x.policy.counter else s
    (s.inOrder.foldl (fun t i => t.orphanCtx h lost i) s).orphanStreams lost

/-- The first bump whose boundary has come. -/
def State.dueBump (s : State) : Option (Nat × Nat) := s.keys.bumps.find? fun b => decide (b.2 < s.now)

/-- The datum updates of this boundary come before its bumps (R259). -/
def State.datumUnsettled (s : State) : Bool := { s with keys := { s.keys with bumps := [] } }.unsettled

def execGenerationBump (s : State) : Out :=
  match s.dueBump with
  | none => .next s
  | some b =>
    if s.datumUnsettled then .next s
    else
      let s := { s with keys := { s.keys with bumps := s.keys.bumps.erase b } }
      .next (s.bumpKey b.1).boundaryEnd

/-! ## SLOT_RECLAIM (R260) -/

/-- A launched command still works on the material of a slot. -/
def State.slotBusy (s : State) (h : Nat) : Bool :=
  s.ctxs.vals.any fun c => decide (c.phase = .running) && c.names.any fun n => slotKey n == slotKey h

/-- The chief core frees a slot that awaits reclaim: an orphan's generation is bumped, and a stateful orphan receives its
exhaustion record. -/
def execSlotReclaim (handle : Nat) (s : State) : Out :=
  match s.keys.slots.find (slotKey handle) with
  | none => .next s
  | some x =>
    if !s.serving || s.slotBusy handle || !(decide (x.st = .dead) || decide (x.st = .orphaned)) then .next s
    else
      let s := if x.st = .orphaned ∧ x.policy.stateful then s.removeStateful x.policy.counter else s
      let g := if x.st = .orphaned then x.gen + 1 else x.gen
      .next { s with keys := { s.keys with
        slots := s.keys.slots.put (slotKey handle) (Slot.empty g .free)
        reclaimed := satAdd 32 s.keys.reclaimed 1 } }

end Sys2Proof.Machine
end

