-- ==== Sys2Proof/Machine/LifeCycle.lean ====
section
/-! DEFINITION. Life-cycle requests, debug certificates, the JTAG port and the provisioning of the identity chain (R250,
R412 to R416, R421, R422, R440). -/

namespace Sys2Proof.Machine

open Sys2Proof

/-! ## Requests (R414 to R416) -/

/-- The request is in the table of allowed ones, its paths apart; `k` is the current state. -/
def requestAllowed (k kind signer to_ : Nat) : Bool :=
  if kind = 1 then
    if to_ = 5 then decide (1 ≤ k ∧ k ≤ 4)
    else if k = 2 then to_ == 3
    else signer == 0 && to_ == k + 1 && (k == 0 || k == 1 || k == 3)
  else kind == 2 && decide (1 ≤ to_ ∧ to_ ≤ 3) && (k == 2 || k == 3) && signer != to_

/-- Step 2 of R416. -/
def State.requestFieldsOk (s : State) (p : Bytes) : Bool :=
  let k := s.lcs.code
  let kind := uAt p 4 2
  let to_ := uAt p 0x14 4
  uAt p 0 4 == 1 && zeroAt p 0xA8 8 && uAt p 8 8 == s.keys.serial && uAt p 0x10 4 == k &&
  requestAllowed k kind (uAt p 6 2) to_ && ((kind == 1 && k == 1 && to_ == 2) || zeroAt p 0x18 144) &&
  s.lcs.signerKey (uAt p 6 2) (bytesAt p 0xB0 2592)

/-- Step 3: the signature. -/
def requestSigned (p : Bytes) : Bool :=
  mldsaOk 0x00110003 (bytesAt p 0xB0 2592) (ascii "MAELARN-LCS") (p.take 0xB0) (bytesAt p 0xAD0 4627)

/-- The checks before the signature: on queue 0 the state and its target, then step 2. -/
def State.requestEarly (s : State) (queue : Bool) (p : Bytes) : Option Nat :=
  if queue && (uAt p 0x14 4 != 4 || s.lcs.code != 3) then some St.usageDenied
  else if s.requestFieldsOk p then none
  else some St.inputRejected

/-- The status of a request. -/
def State.requestStatus (s : State) (queue : Bool) (p : Bytes) : Nat :=
  match s.requestEarly queue p with
  | some st => st
  | none => if requestSigned p then St.ok else St.inputRejected

/-- An accepted request becomes the pending one. -/
def State.acceptRequest (s : State) (p : Bytes) : State :=
  let r : LcsReq := { kind := uAt p 4 2, from_ := uAt p 0x10 4, to_ := uAt p 0x14 4
                      digests := (List.range 3).map fun i => bytesAt p (0x18 + 48 * i) 48 }
  { s with lcs := { s.lcs with pending := some r } }.raise Ev.lcsRequest Origin.atlas s.lcs.code r.to_

/-- The SMBus path: the status that answers before a command of the life cycle runs. -/
def State.smbLife (s : State) : Option Nat :=
  if s.integ.safe then some St.integrityAlarm
  else if s.start.stage < Stage.ready then some St.busy
  else none

/-- SMBus takes life-cycle requests: a start runs, or it has ended in LOCKED in BLANK (R412). -/
def State.smbLifeOpen (s : State) : Bool :=
  s.smbOpen || (s.started && decide (s.start.stage = Stage.locked) && s.lcs.code == 0)

def execLcsRequest (via : Via) (s : State) : Out :=
  match via with
  | .queue i =>
    .next (s.runVerified i 0x0150 (fun c s => s.requestEarly true c.payload) fun c s =>
      let st := s.requestStatus true c.payload
      if st = St.ok then (s.acceptRequest c.payload).answer i [] else s.refuse i st)
  | .smbus p =>
    if !s.smbLifeOpen then .next s
    else match s.smbLife with
      | some st => .next (s.smbAnswer st)
      | none =>
        if p.length ≠ 7395 then .next (s.smbAnswer St.malformed)
        else
          let st := s.requestStatus false p
          .next ((if st = St.ok then s.acceptRequest p else s).smbAnswer st)

/-- The pending request and the pending certificate are removed (R416, R422). -/
def State.cancelLife (s : State) : State := { s with lcs := { s.lcs with pending := none, cert := none } }

def execLcsCancel (via : Via) (s : State) : Out :=
  match via with
  | .queue i => .next (s.runCore i 0x0152 fun _ s => s.cancelLife.answer i [])
  | .smbus p =>
    if !s.smbLifeOpen then .next s
    else match s.smbLife with
      | some st => .next (s.smbAnswer st)
      | none => if p.length ≠ 0 then .next (s.smbAnswer St.malformed) else .next (s.cancelLife.smbAnswer St.ok)

/-! ## Debug certificates (R421, R422) -/

/-- The fields of a certificate. -/
def certOf (p : Bytes) : DebugCert :=
  { lcState := uAt p 4 4, serial := uAt p 8 8, notAfter := uAt p 0x10 8, rights := uAt p 0x18 8, signer := uAt p 0x20 2
    bytes := p }

/-- The fields and bindings of a certificate. -/
def State.certEarly (s : State) (p : Bytes) : Bool :=
  let c := certOf p
  uAt p 0 4 == 1 && zeroAt p 0x22 6 && decide (c.rights < 64) && (c.signer == 0 || decide (c.rights < 16)) && s.certBound c

/-- The status of a certificate: its fields and bindings, its signature, then the datum. -/
def State.certStatus (s : State) (p : Bytes) : Nat :=
  let c := certOf p
  if !(s.certEarly p && s.certBinds c) then St.inputRejected
  else if s.certTime c.notAfter then St.ok
  else St.timeUntrusted

/-- An accepted certificate becomes the pending one. -/
def State.acceptCert (s : State) (p : Bytes) : State :=
  let c := certOf p
  { s with lcs := { s.lcs with cert := some c } }.raise Ev.lcsDebugCert Origin.atlas (c.rights % 2 ^ 32) (c.rights / 2 ^ 32)

def execDebugInstall (via : Via) (s : State) : Out :=
  match via with
  | .queue i =>
    .next (s.runVerified i 0x0151 (fun c s => if s.certEarly c.payload then none else some St.inputRejected) fun c s =>
      let st := s.certStatus c.payload
      if st = St.ok then (s.acceptCert c.payload).answer i [] else s.refuse i st)
  | .smbus p =>
    if !s.smbOpen then .next s
    else match s.smbLife with
      | some st => .next (s.smbAnswer st)
      | none =>
        if p.length ≠ 7259 then .next (s.smbAnswer St.malformed)
        else
          let st := s.certStatus p
          .next ((if st = St.ok then s.acceptCert p else s).smbAnswer st)

/-! ## JTAG (R412, R423, R440) -/

/-- A right is open on JTAG: every right in BLANK, TEST and ANALYSIS, the rights of an opened certificate in PROVISIONED
and DEPLOYED, none in SCRAPPED. Before the counter has been read, and with a torn one, none is (log 67). -/
def State.rightOpen (s : State) (n : Nat) : Bool :=
  let k := s.lcs.code
  s.start.fuseRead && decide (n < 6) &&
  (if k = 0 ∨ k = 1 ∨ k = 4 then true
   else if k = 2 ∨ k = 3 then
     s.lcs.rightsOpen && (match s.lcs.inForce with | some c => bitOf c.rights n | none => false)
   else false)

/-- IDCODE (R440). -/
def idcode : Nat := 0x164245AF

/-- A TAP operation: IDCODE shifts out the code, BYPASS its zero, a service behind a closed right nothing. -/
def execJtagAccess (op : JtagOp) (s : State) : Out :=
  if !s.start.vddGood then .next s
  else match op with
    | .idcode => .next { s with lcs := { s.lcs with tdr := idcode } }
    | .bypass => .next { s with lcs := { s.lcs with tdr := 0 } }
    | .testLogicReset => .next s
    | .service n => if s.rightOpen n then .refused .jtagService else .next s

/-! ## Provisioning (R250, R412) -/

/-- A start in PROVISIONED accepts the identity chain through the factory path; from DEPLOYED on it is fixed. -/
def execIdentityChainProvisioning (chain : Bytes) (s : State) : Out :=
  if s.started ∧ s.start.fuseRead ∧ s.lcs.code = 2 then .next { s with keys := { s.keys with chain := chain } } else .next s

end Sys2Proof.Machine
end

