-- ==== Sys2Proof/Machine/Emram.lean ====
section
/-! DEFINITION. eMRAM as octets: the areas of R29, one after the other in the order of its table (DESIGN CHOICE, log 110).
The helper data, the retirement map, the event records and the journal stand in fields of their own, and their octets are
read from those and written to them; the rest is octets that the chief core stores. -/

namespace Sys2Proof.Machine

open Sys2Proof

/-- The areas of eMRAM. -/
inductive NvArea where
  | helperA | helperB | counters | mapA | mapB | kept | circulating | journal | reserved
  deriving DecidableEq, Repr

/-- The area of an octet of eMRAM, and its offset there (R29). -/
def nvAreaOf (a : Nat) : NvArea × Nat :=
  if a < 0x8000 then (.helperA, a)
  else if a < 0x10000 then (.helperB, a - 0x8000)
  else if a < 0x20000 then (.counters, a - 0x10000)
  else if a < 0x21000 then (.mapA, a - 0x20000)
  else if a < 0x22000 then (.mapB, a - 0x21000)
  else if a < 0x24000 then (.kept, a - 0x22000)
  else if a < 0x44000 then (.circulating, a - 0x24000)
  else if a < 0xC4000 then (.journal, a - 0x44000)
  else (.reserved, a - 0xC4000)

/-- The octets of a record of a table of records; none is zeros. -/
def recordOctets (t : Tab EvRec) (k : Nat) : Bytes := match t.find k with | some r => r.bytes | none => List.replicate 32 0

/-- The octets of a word of the journal. -/
def Stateful.word (t : Stateful) (k : Nat) : Bytes := fit 64 (t.journal.getD k (List.replicate 64 0))

/-- One octet of eMRAM. -/
def State.emramByte (s : State) (a : Nat) : Byte :=
  match nvAreaOf a with
  | (.helperA, o) => s.keys.helpA.getD o 0
  | (.helperB, o) => s.keys.helpB.getD o 0
  | (.mapA, o) => s.integ.mapCopyA.getD o 0
  | (.mapB, o) => s.integ.mapCopyB.getD o 0
  | (.kept, o) => (recordOctets s.log.stored.kept (o / 32)).getD (o % 32) 0
  | (.circulating, o) => (recordOctets s.log.stored.circ (o / 32)).getD (o % 32) 0
  | (.journal, o) => (s.stateful.word (o / 64)).getD (o % 64) 0
  | _ => s.emram.getD a 0

/-- A string with one octet changed, made as long as that needs; a string of zeros is erased. -/
def setOctet (b : Bytes) (o : Nat) (v : Byte) : Bytes :=
  let c := (fit (max b.length (o + 1)) b).set o v
  if c.all (· == 0) then [] else c

/-- The record of 32 octets (R385). -/
def evRecOf (b : Bytes) : EvRec :=
  { code := uAt b 0 2, origin := uAt b 2 2 % 2 ^ 13, severity := uAt b 2 2 / 2 ^ 13, opSeconds := uAt b 4 4, cycles := uAt b 8 4
    repeats := uAt b 12 4, p0 := uAt b 16 4, p1 := uAt b 20 4, p2 := uAt b 24 4, p3 := uAt b 28 4 }

/-- A table of records with one octet changed. -/
def putRecordOctet (t : Tab EvRec) (o : Nat) (v : Byte) : Tab EvRec :=
  let b := (recordOctets t (o / 32)).set (o % 32) v
  if b.all (· == 0) then t.drop (o / 32) else t.put (o / 32) (evRecOf b)

/-- One octet of eMRAM is written. -/
def State.putEmramByte (s : State) (a : Nat) (v : Byte) : State :=
  match nvAreaOf a with
  | (.helperA, o) => { s with keys := { s.keys with helpA := setOctet s.keys.helpA o v } }
  | (.helperB, o) => { s with keys := { s.keys with helpB := setOctet s.keys.helpB o v } }
  | (.mapA, o) => { s with integ := { s.integ with mapCopyA := setOctet s.integ.mapCopyA o v } }
  | (.mapB, o) => { s with integ := { s.integ with mapCopyB := setOctet s.integ.mapCopyB o v } }
  | (.kept, o) => { s with log := { s.log with kept := putRecordOctet s.log.kept o v } }
  | (.circulating, o) => { s with log := { s.log with circ := putRecordOctet s.log.circ o v } }
  | (.journal, o) =>
    let b := (s.stateful.word (o / 64)).set (o % 64) v
    { s with stateful := { s.stateful with journal := s.stateful.journal.putD (o / 64) b (List.replicate 64 0) } }
  | _ => { s with emram := s.emram.putD a v 0 }

/-- Octets of eMRAM are written from an address on. -/
def State.putEmram (s : State) : Nat → Bytes → State
  | _, [] => s
  | a, v :: t => (s.putEmramByte a v).putEmram (a + 1) t

end Sys2Proof.Machine
end

