-- ==== Sys2Proof/Machine/CoreMem.lean ====
section
/-! DEFINITION. The address maps of the cores, and loads and stores over them (R308). -/

namespace Sys2Proof.Machine

open Sys2Proof

/-- What an address of a core's map reaches. -/
inductive Place where
  | rom | insn | data | emram | window | hbm | context
  deriving DecidableEq, Repr

/-- `n` octets from `a` lie in a range. -/
def within (lo hi a n : Nat) : Bool := decide (lo ≤ a) && decide (a + n ≤ hi)

/-- The place of an access, in the map of a core's kind; none is outside the map. The operation context and the scratch
window of a sheet are one place. -/
def placeOf (c a n : Nat) : Option Place :=
  let hbm := within 0x10000000000 0x10600000000 a n
  match coreKind c with
  | 0 =>
    if within 0 0x10000 a n then some .rom
    else if within 0x100000 0x180000 a n then some .insn
    else if within 0x200000 0x280000 a n then some .data
    else if within 0x800000 0x1000000 a n then some .emram
    else if within 0x100000000 0x104000000 a n then some .window
    else if hbm then some .hbm else none
  | 1 =>
    if within 0 0x20000 a n then some .insn
    else if within 0x200000 0x240000 a n then some .data
    else if hbm then some .hbm else none
  | _ =>
    if within 0 0x10000 a n then some .insn
    else if within 0x200000 0x240000 a n then some .data
    else if within 0x300000 0x304000 a n || within 0x400000 0x500000 a n then some .context else none

/-- The offset of an address in the instruction SRAM. -/
def insnOffset (c a : Nat) : Nat := if coreKind c = 0 then a - 0x100000 else a

/-! ## The windows of a sheet (R308) -/

/-- The command that the sheet of a core runs or checks; an internal operation has none. -/
def State.coreCtx (s : State) (c : Nat) : Option Nat :=
  match (s.unitSt (coreUnit c)).job with
  | .op i => some i
  | .check i => some i
  | _ => none

/-- The place of an address of a sheet's windows in its operation's context and pages. -/
def sheetOffset (a : Nat) : Nat := if a < 0x400000 then a - 0x300000 else 16384 + (a - 0x400000)

/-- The command, with its context, whose windows the sheet of a core has. -/
def State.sheetCtx (s : State) (c : Nat) : Option (Nat × Ctx) :=
  (s.coreCtx c).bind fun i => (s.ctxs.find i).map fun x => (i, x)

/-- One octet of a sheet's windows: the current operation's, or those of an internal operation. -/
def State.sheetByte (s : State) (c a : Nat) : Byte :=
  match s.sheetCtx c with
  | some (_, x) => x.octet (sheetOffset a)
  | none => (s.core c).scratch.getD a 0

/-- Stores octets in a sheet's windows. -/
def State.putSheet (s : State) (c a : Nat) (b : Bytes) : State :=
  match s.sheetCtx c with
  | some (i, _) => s.setCtx i fun x => x.store (sheetOffset a) b
  | none => s.onCore c fun k => { k with scratch := putBytes a b k.scratch }

/-- One octet of a place that holds octets; the control window does not. -/
def State.placeByte (s : State) (c : Nat) (p : Place) (a : Nat) : Byte :=
  match p with
  | .rom => Config.romByte a
  | .insn => (s.start.image.firmware.getD (coreKind c) []).getD (insnOffset c a) 0
  | .data => (s.core c).dmem.getD a 0
  | .emram => s.emramByte (a - 0x800000)
  | .window => 0
  | .hbm => s.hbmByte (a - 0x10000000000)
  | .context => s.sheetByte c a

/-- Reads `n` octets; a read of the control window is a register read of 4 or 8 octets, and 0 otherwise (R11). -/
def State.loadAt (s : State) (c : Nat) (p : Place) (a n : Nat) : Nat × State :=
  match p with
  | .window => if n = 4 ∨ n = 8 then s.readReg (a - 0x100000000) (n == 8) else (0, s)
  | p => (leNat ((List.range n).map fun i => s.placeByte c p (a + i)), s)

/-- Whether a store may reach a place: ROM and instruction SRAM are not written by stores. -/
def Place.writable (p : Place) : Bool := p != .rom && p != .insn

/-- Writes octets to HBM; an aligned access does not leave its context or page. -/
def State.putHbm (s : State) (off : Nat) (b : Bytes) : State :=
  if off < 2 ^ 32 then { s with window := putBytes off b s.window }
  else match s.hbmCtx off with
    | some (i, k) =>
      if (s.ctxs.find i).isSome then s.setCtx i fun x => x.store k b else { s with hbm := putBytes off b s.hbm }
    | none => match s.vaultAt off with
      | some (h, e, k) => { s with keys := { s.keys with slots := s.keys.slots.modify h fun x => x.putVault e k b } }
      | none => { s with hbm := putBytes off b s.hbm }

/-- Writes the octets of a value. -/
def State.storeAt (s : State) (c : Nat) (p : Place) (a n v : Nat) : State :=
  let b := le n v
  match p with
  | .rom => s
  | .insn => s
  | .data => s.onCore c fun k => k.wrMem a b
  | .emram => s.putEmram (a - 0x800000) b
  | .window => if n = 4 ∨ n = 8 then s.writeReg (decide (coreKind c = 0)) (a - 0x100000000) (n == 8) v else s
  | .hbm => s.putHbm (a - 0x10000000000) b
  | .context => s.putSheet c a b

/-- A load from this place takes 2 cycles and is interlocked; one from any other stalls until its data arrives. -/
def Place.fast (p : Place) : Bool := p == .rom || p == .insn || p == .data

/-- Cycles until the data of a stalling load arrives: at least one, otherwise open. -/
def State.arrival (s : State) : Nat := (Config.freeWord s.free).toNat + 1

/-- rd takes a loaded value: at once and interlocked, or after a stall. -/
def State.loaded (s : State) (c : Nat) (rd : BitVec 5) (p : Place) (v : BitVec 64) : State :=
  if p.fast then s.onCore c fun k => { k.setX rd v with loadRd := rd.toNat, loadAt := k.cycle + 2 }
  else
    { s with free := s.free + 1 }.onCore c fun k =>
      let k := k.stallTo (k.cycle + s.arrival)
      (k.settleTo k.cycle).setX rd v

end Sys2Proof.Machine
end

