-- ==== Sys2Proof/Machine/LoadStore.lean ====
section
/-! DEFINITION. LD and ST (R299, R308). -/

namespace Sys2Proof.Machine

open Sys2Proof

/-- Octets of a load. -/
def ldSize (sz : BitVec 3) : Nat := 2 ^ (sz.toNat / 2)

/-- A loaded value as rd takes it: sz 0, 2 and 4 are sign-extended. -/
def ldValue (sz : BitVec 3) (v : Nat) : BitVec 64 :=
  match sz.toNat with
  | 0 => (BitVec.ofNat 8 v).signExtend 64
  | 2 => (BitVec.ofNat 16 v).signExtend 64
  | 4 => (BitVec.ofNat 32 v).signExtend 64
  | _ => BitVec.ofNat 64 v

/-- The address of a load. -/
def Core.ldAddr (k : Core) (sz : BitVec 3) (rs1 : BitVec 5) (imm : BitVec 9) : BitVec 64 :=
  k.gx rs1 + scaled imm (ldSize sz)

/-- The address of a store. -/
def Core.stAddr (k : Core) (sz : BitVec 2) (rs1 : BitVec 5) (imm : BitVec 10) : BitVec 64 :=
  k.gx rs1 + scaled imm (2 ^ sz.toNat)

/-- A load once its guard holds: ALIGN, then BUS, then the value. -/
def State.runLd (s : State) (c : Nat) (sz : BitVec 3) (rd rs1 : BitVec 5) (imm : BitVec 9) : State :=
  let s := s.sync c [rs1] [rd]
  let a := (s.core c).ldAddr sz rs1 imm
  let n := ldSize sz
  if a.toNat % n ≠ 0 then s.except c 3 a
  else match placeOf c a.toNat n with
    | none => s.except c 4 a
    | some p =>
      let (v, s) := s.loadAt c p a.toNat n
      (s.loaded c rd p (ldValue sz v)).advance c

/-- A store once its guard holds. -/
def State.runSt (s : State) (c : Nat) (sz : BitVec 2) (rs2 rs1 : BitVec 5) (imm : BitVec 10) : State :=
  let s := s.sync c [rs1, rs2] []
  let k := s.core c
  let a := k.stAddr sz rs1 imm
  let n := 2 ^ sz.toNat
  if a.toNat % n ≠ 0 then s.except c 3 a
  else match placeOf c a.toNat n with
    | none => s.except c 4 a
    | some p => if p.writable then (s.storeAt c p a.toNat n (k.gx rs2).toNat).advance c else s.except c 4 a

/-- LD; sz 7 is ILLEGAL. -/
def execLd (c : Nat) (g : BitVec 4) (sz : BitVec 3) (rd rs1 : BitVec 5) (imm : BitVec 9) (s : State) : Out :=
  s.insn c g (insnWord g 0x0C (fmtL rd rs1 sz imm)) (sz == 7) false fun s => s.runLd c sz rd rs1 imm

/-- ST. -/
def execSt (c : Nat) (g : BitVec 4) (sz : BitVec 2) (rs2 rs1 : BitVec 5) (imm : BitVec 10) (s : State) : Out :=
  s.insn c g (insnWord g 0x0D (fmtS rs2 rs1 sz imm)) false false fun s => s.runSt c sz rs2 rs1 imm

end Sys2Proof.Machine
end

