-- ==== Sys2Proof/Machine/Multiply.lean ====
section
/-! DEFINITION. The multiplier and the yield registers (R304 to R307). -/

namespace Sys2Proof.Machine

open Sys2Proof

/-- A write of a register by the multiplier: it lands at i + L, or with an earlier write of the same y register that
lands later (R306). -/
def Core.queueMul (k : Core) (toY : Bool) (reg : Nat) (v : BitVec 64) (latency : Nat) : Core :=
  let land := (k.mulq.filter fun m => m.toY == toY && m.reg == reg).foldl (fun a m => max a m.land) (k.cycle + latency)
  { k with mulq := k.mulq ++ [{ land := land, toY := toY, reg := reg, val := v }] }

/-- Major opcode 0x10: the multiplier starts at issue, and `f` queues what it writes. -/
def State.mulRow (s : State) (c : Nat) (g : BitVec 4) (op : Nat) (yd : BitVec 2) (rd rs1 rs2 : BitVec 5)
    (f : Core → BitVec 64 → BitVec 64 → Core) : Out :=
  s.plainInsn c g (insnWord g 0x10 (fmtR rd rs1 rs2 (4 * op + yd.toNat))) [rs1, rs2] [rd] fun k => f k (k.gx rs1) (k.gx rs2)

/-- MUL64: the low 64 bits, after 3 cycles. -/
def execMul64 (c : Nat) (g : BitVec 4) (yd : BitVec 2) (rs1 rs2 : BitVec 5) (s : State) : Out :=
  s.mulRow c g 0 yd 0 rs1 rs2 fun k a b => k.queueMul true yd.toNat (a * b) 3

/-- A 128-bit product: the high half to yd, the low half to rd, both after 4 cycles. -/
def Core.mulWide (k : Core) (yd : BitVec 2) (rd : BitVec 5) (p : BitVec 128) : Core :=
  let k := k.queueMul true yd.toNat ((p >>> 64).setWidth 64) 4
  if rd = 0 then k else k.queueMul false rd.toNat (p.setWidth 64) 4

/-- MULW: the unsigned product. -/
def execMulw (c : Nat) (g : BitVec 4) (yd : BitVec 2) (rd rs1 rs2 : BitVec 5) (s : State) : Out :=
  s.mulRow c g 1 yd rd rs1 rs2 fun k a b => k.mulWide yd rd (a.setWidth 128 * b.setWidth 128)

/-- MULWS: the signed product. -/
def execMulws (c : Nat) (g : BitVec 4) (yd : BitVec 2) (rd rs1 rs2 : BitVec 5) (s : State) : Out :=
  s.mulRow c g 2 yd rd rs1 rs2 fun k a b => k.mulWide yd rd (a.signExtend 128 * b.signExtend 128)

/-- MULM: the product of the low words modulo QMOD at issue; 0 when q is below 2; after 5 cycles. -/
def execMulm (c : Nat) (g : BitVec 4) (yd : BitVec 2) (rs1 rs2 : BitVec 5) (s : State) : Out :=
  s.mulRow c g 3 yd 0 rs1 rs2 fun k a b =>
    let q := k.qmod.toNat
    let r := if q < 2 then 0 else a.toNat % 2 ^ 32 * (b.toNat % 2 ^ 32) % q
    k.queueMul true yd.toNat (BitVec.ofNat 64 r) 5

/-- MFY: rd = yd as it stands at issue. -/
def execMfy (c : Nat) (g : BitVec 4) (rd : BitVec 5) (ys : BitVec 2) (s : State) : Out :=
  s.mulRow c g 4 ys rd 0 0 fun k _ _ => k.setX rd (k.gy ys)

/-- MTY: yd = rs1, after 1 cycle. -/
def execMty (c : Nat) (g : BitVec 4) (yd : BitVec 2) (rs1 : BitVec 5) (s : State) : Out :=
  s.mulRow c g 5 yd 0 rs1 0 fun k a _ => k.queueMul true yd.toNat a 1

/-- The multiplier writes due at the core's cycle land; those of a waiting core land as the wait goes on (R314). -/
def execYieldWriteLand (c : Nat) (s : State) : Out :=
  if 69 ≤ c then .fault .noSuchCore
  else
    .next (s.onCore c fun k =>
      let i := if k.waiting then k.mulq.foldl (fun a m => max a m.land) k.cycle else k.cycle
      (k.stallTo i).land i)

end Sys2Proof.Machine
end

