-- ==== Sys2Proof/Machine/Packed.lean ====
section
/-! DEFINITION. The short-vector extension: packed elements of 8, 16 or 32 bits (R302). -/

namespace Sys2Proof.Machine

open Sys2Proof

/-- Element `i` of `w` bits. -/
def lane (w : Nat) (a : BitVec 64) (i : Nat) : BitVec w := (a >>> (w * i)).setWidth w

/-- An operation on `n` elements of `w` bits, each on its own. -/
def packed (w n : Nat) (op : BitVec w → BitVec w → BitVec w) (a b : BitVec 64) : BitVec 64 :=
  (List.range n).foldl (fun r i => r ||| (op (lane w a i) (lane w b i)).setWidth 64 <<< (w * i)) 0

/-- The operation for the element size that func[6:5] selects. -/
def bySize (es : BitVec 2) (op : (w : Nat) → BitVec w → BitVec w → BitVec w) (a b : BitVec 64) : BitVec 64 :=
  match es.toNat with
  | 0 => packed 8 8 (op 8) a b
  | 1 => packed 16 4 (op 16) a b
  | _ => packed 32 2 (op 32) a b

/-- A value clamped to the signed range of `w` bits. -/
def clampS (w : Nat) (v : Int) : BitVec w := BitVec.ofInt w (max (-(2 ^ (w - 1) : Int)) (min (2 ^ (w - 1) - 1) v))

/-- A value clamped to the unsigned range of `w` bits. -/
def clampU (w : Nat) (v : Int) : BitVec w := BitVec.ofInt w (max 0 (min (2 ^ w - 1) v))

/-- Major opcode 0x1F; element size 3 raises ILLEGAL. -/
def State.packedRow (s : State) (c : Nat) (g : BitVec 4) (func : Nat) (es : BitVec 2) (rd rs1 rs2 : BitVec 5)
    (op : BitVec 64 → BitVec 64 → BitVec 64) : Out :=
  s.insn c g (insnWord g 0x1F (fmtR rd rs1 rs2 (32 * es.toNat + func))) (es == 3) false fun s =>
    ((s.sync c [rs1, rs2] [rd]).onCore c fun k => k.setX rd (op (k.gx rs1) (k.gx rs2))).advance c

/-- A shift of every element by rs2[4:0] modulo the element width. -/
def shifted (es : BitVec 2) (op : (w : Nat) → BitVec w → Nat → BitVec w) (a b : BitVec 64) : BitVec 64 :=
  bySize es (fun w x _ => op w x (b.toNat % 32 % w)) a b

def execPadd (c : Nat) (g : BitVec 4) (es : BitVec 2) (rd rs1 rs2 : BitVec 5) (s : State) : Out :=
  s.packedRow c g 0x00 es rd rs1 rs2 (bySize es fun _ x y => x + y)

def execPsub (c : Nat) (g : BitVec 4) (es : BitVec 2) (rd rs1 rs2 : BitVec 5) (s : State) : Out :=
  s.packedRow c g 0x01 es rd rs1 rs2 (bySize es fun _ x y => x - y)

def execPadds (c : Nat) (g : BitVec 4) (es : BitVec 2) (rd rs1 rs2 : BitVec 5) (s : State) : Out :=
  s.packedRow c g 0x02 es rd rs1 rs2 (bySize es fun w x y => clampS w (x.toInt + y.toInt))

def execPaddus (c : Nat) (g : BitVec 4) (es : BitVec 2) (rd rs1 rs2 : BitVec 5) (s : State) : Out :=
  s.packedRow c g 0x03 es rd rs1 rs2 (bySize es fun w x y => clampU w (x.toNat + y.toNat))

def execPsubs (c : Nat) (g : BitVec 4) (es : BitVec 2) (rd rs1 rs2 : BitVec 5) (s : State) : Out :=
  s.packedRow c g 0x04 es rd rs1 rs2 (bySize es fun w x y => clampS w (x.toInt - y.toInt))

def execPsubus (c : Nat) (g : BitVec 4) (es : BitVec 2) (rd rs1 rs2 : BitVec 5) (s : State) : Out :=
  s.packedRow c g 0x05 es rd rs1 rs2 (bySize es fun w x y => clampU w (x.toNat - y.toNat : Int))

def execPmull (c : Nat) (g : BitVec 4) (es : BitVec 2) (rd rs1 rs2 : BitVec 5) (s : State) : Out :=
  s.packedRow c g 0x06 es rd rs1 rs2 (bySize es fun _ x y => x * y)

def execPmulhu (c : Nat) (g : BitVec 4) (es : BitVec 2) (rd rs1 rs2 : BitVec 5) (s : State) : Out :=
  s.packedRow c g 0x07 es rd rs1 rs2 (bySize es fun w x y => BitVec.ofNat w (x.toNat * y.toNat / 2 ^ w))

def execPcmpeq (c : Nat) (g : BitVec 4) (es : BitVec 2) (rd rs1 rs2 : BitVec 5) (s : State) : Out :=
  s.packedRow c g 0x08 es rd rs1 rs2 (bySize es fun w x y => if x = y then BitVec.allOnes w else 0)

def execPcmpgt (c : Nat) (g : BitVec 4) (es : BitVec 2) (rd rs1 rs2 : BitVec 5) (s : State) : Out :=
  s.packedRow c g 0x09 es rd rs1 rs2 (bySize es fun w x y => if y.slt x then BitVec.allOnes w else 0)

def execPmin (c : Nat) (g : BitVec 4) (es : BitVec 2) (rd rs1 rs2 : BitVec 5) (s : State) : Out :=
  s.packedRow c g 0x0A es rd rs1 rs2 (bySize es fun _ x y => if x.slt y then x else y)

def execPmax (c : Nat) (g : BitVec 4) (es : BitVec 2) (rd rs1 rs2 : BitVec 5) (s : State) : Out :=
  s.packedRow c g 0x0B es rd rs1 rs2 (bySize es fun _ x y => if x.slt y then y else x)

def execPminu (c : Nat) (g : BitVec 4) (es : BitVec 2) (rd rs1 rs2 : BitVec 5) (s : State) : Out :=
  s.packedRow c g 0x0C es rd rs1 rs2 (bySize es fun _ x y => if x.ult y then x else y)

def execPmaxu (c : Nat) (g : BitVec 4) (es : BitVec 2) (rd rs1 rs2 : BitVec 5) (s : State) : Out :=
  s.packedRow c g 0x0D es rd rs1 rs2 (bySize es fun _ x y => if x.ult y then y else x)

def execPsll (c : Nat) (g : BitVec 4) (es : BitVec 2) (rd rs1 rs2 : BitVec 5) (s : State) : Out :=
  s.packedRow c g 0x0E es rd rs1 rs2 (shifted es fun _ x n => x <<< n)

def execPsrl (c : Nat) (g : BitVec 4) (es : BitVec 2) (rd rs1 rs2 : BitVec 5) (s : State) : Out :=
  s.packedRow c g 0x0F es rd rs1 rs2 (shifted es fun _ x n => x >>> n)

def execPsra (c : Nat) (g : BitVec 4) (es : BitVec 2) (rd rs1 rs2 : BitVec 5) (s : State) : Out :=
  s.packedRow c g 0x10 es rd rs1 rs2 (shifted es fun _ x n => x.sshiftRight n)

def execPavgu (c : Nat) (g : BitVec 4) (es : BitVec 2) (rd rs1 rs2 : BitVec 5) (s : State) : Out :=
  s.packedRow c g 0x11 es rd rs1 rs2 (bySize es fun w x y => BitVec.ofNat w ((x.toNat + y.toNat + 1) / 2))

end Sys2Proof.Machine
end

