-- ==== Sys2Proof/Machine/RegAccess.lean ====
section
/-! DEFINITION. The host's accesses of the control window (R11 to R13, R60, R396, R397). -/

namespace Sys2Proof.Machine

open Sys2Proof

/-- Whether a memory request of the host is answered: before READY it completes with Unsupported Request (R396). -/
def State.windowOpen (s : State) : Bool := s.started && decide (Stage.ready ≤ s.start.stage)

/-- A read of the host of `width` bits; the data goes back over the bus. A width other than 32 and 64 reads zero (R11). -/
def State.hostRead (s : State) (off width : Nat) : State :=
  if !s.started then s
  else if !s.windowOpen then { s with bus := { s.bus with ur := true, data := 0 } }
  else if width ≠ 32 ∧ width ≠ 64 then { s with bus := { s.bus with ur := false, data := 0 } }
  else
    let (v, s) := s.readReg off (width == 64)
    { s with bus := { s.bus with ur := false, data := BitVec.ofNat 64 v } }

/-- A write of the host of `width` bits. A width other than 32 and 64 completes normally without effect (R11). -/
def State.hostWriteReg (s : State) (off width v : Nat) : State :=
  if !s.started then s
  else if !s.windowOpen then { s with bus := { s.bus with ur := true } }
  else
    let s := { s with bus := { s.bus with ur := false } }
    if width = 64 then s.writeReg false off true v
    else if width = 32 then s.writeReg false off false (v % 2 ^ 32)
    else s

/-- A read of 32 bits: at the low word of a 64-bit register it latches the high word and clears the RC fields of both
halves; at a high word it returns the latch (R12). -/
def execLowWordRead (off : Nat) (s : State) (width : Nat := 32) : Out := .next (s.hostRead off width)

/-- A read of DTM_VALUE's low word, in either width: the snapshot of the datum registers (R60). -/
def execDtmValueLowRead (width : Nat) (s : State) : Out := .next (s.hostRead 0x2000 width)

/-- A read of a register in its own width, which clears its RC fields (R13). -/
def execRcRead (off width : Nat) (s : State) : Out := .next (s.hostRead off width)

/-- A 32-bit write of a low word is held until the high word is written (R12). -/
def execLowWordWrite (off : Nat) (v : BitVec 32) (s : State) : Out := .next (s.hostWriteReg off 32 v.toNat)

/-- A 32-bit write of a high word commits the register (R12); `off` is the high word's own offset. -/
def execHighWordWrite (off : Nat) (v : BitVec 32) (s : State) : Out := .next (s.hostWriteReg off 32 v.toNat)

/-- A write of `width` bits (R11, R13). -/
def execRegisterWrite (off width : Nat) (v : BitVec 64) (s : State) : Out := .next (s.hostWriteReg off width v.toNat)

end Sys2Proof.Machine
end

