-- ==== Sys2Proof/Machine/Scalar.lean ====
section
/-! DEFINITION. The scalar arithmetic of the Casmar cores: immediates, constants, shifts and the ALU functions (R299 to
R301). -/

namespace Sys2Proof.Machine

open Sys2Proof

/-! ## Immediates and constants (R299) -/

/-- An I-format operation on rs1 and the sign-extended immediate. -/
def State.immRow (s : State) (c : Nat) (g : BitVec 4) (major : Nat) (rd rs1 : BitVec 5) (imm : BitVec 12)
    (op : BitVec 64 → BitVec 64 → BitVec 64) : Out :=
  s.plainInsn c g (insnWord g major (fmtI rd rs1 imm)) [rs1] [rd] fun k => k.setX rd (op (k.gx rs1) (imm.signExtend 64))

/-- A W-format constant. -/
def State.constRow (s : State) (c : Nat) (g : BitVec 4) (major : Nat) (reads : List (BitVec 5)) (rd : BitVec 5) (h : Bool)
    (imm : BitVec 16) (op : BitVec 64 → BitVec 64) : Out :=
  s.plainInsn c g (insnWord g major (fmtW rd h imm)) reads [rd] fun k => k.setX rd (op (k.gx rd))

/-- A shift by an immediate: `kind` in imm12[11:6]. -/
def State.shiftRow (s : State) (c : Nat) (g : BitVec 4) (kind : BitVec 6) (rd rs1 : BitVec 5) (sh : BitVec 6)
    (op : BitVec 64 → Nat → BitVec 64) : Out :=
  s.plainInsn c g (insnWord g 0x09 (fmtI rd rs1 (kind ++ sh))) [rs1] [rd] fun k => k.setX rd (op (k.gx rs1) sh.toNat)

def execAddi (c : Nat) (g : BitVec 4) (rd rs1 : BitVec 5) (imm : BitVec 12) (s : State) : Out :=
  s.immRow c g 0x01 rd rs1 imm fun a b => a + b

def execAndi (c : Nat) (g : BitVec 4) (rd rs1 : BitVec 5) (imm : BitVec 12) (s : State) : Out :=
  s.immRow c g 0x02 rd rs1 imm fun a b => a &&& b

def execOri (c : Nat) (g : BitVec 4) (rd rs1 : BitVec 5) (imm : BitVec 12) (s : State) : Out :=
  s.immRow c g 0x03 rd rs1 imm fun a b => a ||| b

def execXori (c : Nat) (g : BitVec 4) (rd rs1 : BitVec 5) (imm : BitVec 12) (s : State) : Out :=
  s.immRow c g 0x08 rd rs1 imm fun a b => a ^^^ b

def execLdk (c : Nat) (g : BitVec 4) (rd : BitVec 5) (h : Bool) (imm : BitVec 16) (s : State) : Out :=
  s.constRow c g 0x04 [] rd h imm fun _ => konst h imm

def execLdkh (c : Nat) (g : BitVec 4) (rd : BitVec 5) (h : Bool) (imm : BitVec 16) (s : State) : Out :=
  s.constRow c g 0x05 [] rd h imm fun _ => konst h imm <<< 16

/-- SHK: h is 0. -/
def execShk (c : Nat) (g : BitVec 4) (rd : BitVec 5) (imm : BitVec 16) (s : State) : Out :=
  s.constRow c g 0x06 [rd] rd false imm fun v => v <<< 16 ||| imm.setWidth 64

def execAddk (c : Nat) (g : BitVec 4) (rd : BitVec 5) (h : Bool) (imm : BitVec 16) (s : State) : Out :=
  s.constRow c g 0x07 [rd] rd h imm fun v => v + imm.signExtend 64 <<< (if h then 16 else 0)

def execSlli (c : Nat) (g : BitVec 4) (rd rs1 : BitVec 5) (sh : BitVec 6) (s : State) : Out :=
  s.shiftRow c g 0 rd rs1 sh fun a n => a <<< n

def execSrli (c : Nat) (g : BitVec 4) (rd rs1 : BitVec 5) (sh : BitVec 6) (s : State) : Out :=
  s.shiftRow c g 1 rd rs1 sh fun a n => a >>> n

def execSrai (c : Nat) (g : BitVec 4) (rd rs1 : BitVec 5) (sh : BitVec 6) (s : State) : Out :=
  s.shiftRow c g 2 rd rs1 sh fun a n => a.sshiftRight n

def execRori (c : Nat) (g : BitVec 4) (rd rs1 : BitVec 5) (sh : BitVec 6) (s : State) : Out :=
  s.shiftRow c g 3 rd rs1 sh fun a n => a.rotateRight n

/-- CMPI writes FL as SUB.F would (R301); rd is zero. -/
def execCmpi (c : Nat) (g : BitVec 4) (rs1 : BitVec 5) (imm : BitVec 12) (s : State) : Out :=
  s.plainInsn c g (insnWord g 0x0A (fmtI 0 rs1 imm)) [rs1] [0] fun k =>
    { k with fl := (subFl (k.gx rs1) (imm.signExtend 64) true).2 }

def execAddpc (c : Nat) (g : BitVec 4) (rd : BitVec 5) (imm : BitVec 17) (s : State) : Out :=
  s.plainInsn c g (insnWord g 0x0B (fmtU rd imm)) [] [rd] fun k => k.setX rd (k.pc + scaled imm 4)

/-! ## ALU functions (R300) -/

/-- Major opcode 0x00: `op` gives the result and the flags from FL and the operands; F selects whether FL is written. -/
def State.aluRow (s : State) (c : Nat) (g : BitVec 4) (func : Nat) (f : Bool) (rd rs1 rs2 : BitVec 5)
    (op : BitVec 4 → BitVec 64 → BitVec 64 → BitVec 64 × BitVec 4) : Out :=
  s.plainInsn c g (insnWord g 0x00 (fmtR rd rs1 rs2 (func + if f then 64 else 0))) [rs1, rs2] [rd] fun k =>
    let p := op k.fl (k.gx rs1) (k.gx rs2)
    let k := k.setX rd p.1
    if f then { k with fl := p.2 } else k

/-- The shift count of an ALU function. -/
def shCount (b : BitVec 64) : Nat := b.toNat % 64

/-- Leading zeros of a word. -/
def clz64 (a : BitVec 64) : Nat := if a = 0 then 64 else 63 - Nat.log2 a.toNat

/-- Trailing zeros of the low `n` bits. -/
def ctzOf (a : BitVec 64) : Nat → Nat → Nat
  | 0, i => i
  | n + 1, i => if a.getLsbD i then i else ctzOf a n (i + 1)

/-- Ones of a word. -/
def popc64 (a : BitVec 64) : Nat := ((List.range 64).filter fun i => a.getLsbD i).length

/-- The octets of a word reversed. -/
def bswap64 (a : BitVec 64) : BitVec 64 := BitVec.ofNat 64 (leNat (le 8 a.toNat).reverse)

def execAdd (c : Nat) (g : BitVec 4) (f : Bool) (rd rs1 rs2 : BitVec 5) (s : State) : Out :=
  s.aluRow c g 0x00 f rd rs1 rs2 fun _ a b => addFl a b false

def execSub (c : Nat) (g : BitVec 4) (f : Bool) (rd rs1 rs2 : BitVec 5) (s : State) : Out :=
  s.aluRow c g 0x01 f rd rs1 rs2 fun _ a b => subFl a b true

def execAnd (c : Nat) (g : BitVec 4) (f : Bool) (rd rs1 rs2 : BitVec 5) (s : State) : Out :=
  s.aluRow c g 0x02 f rd rs1 rs2 fun fl a b => logicFl fl (a &&& b)

def execOr (c : Nat) (g : BitVec 4) (f : Bool) (rd rs1 rs2 : BitVec 5) (s : State) : Out :=
  s.aluRow c g 0x03 f rd rs1 rs2 fun fl a b => logicFl fl (a ||| b)

def execXor (c : Nat) (g : BitVec 4) (f : Bool) (rd rs1 rs2 : BitVec 5) (s : State) : Out :=
  s.aluRow c g 0x04 f rd rs1 rs2 fun fl a b => logicFl fl (a ^^^ b)

def execAndn (c : Nat) (g : BitVec 4) (f : Bool) (rd rs1 rs2 : BitVec 5) (s : State) : Out :=
  s.aluRow c g 0x05 f rd rs1 rs2 fun fl a b => logicFl fl (a &&& ~~~b)

def execSll (c : Nat) (g : BitVec 4) (f : Bool) (rd rs1 rs2 : BitVec 5) (s : State) : Out :=
  s.aluRow c g 0x06 f rd rs1 rs2 fun fl a b => logicFl fl (a <<< shCount b)

def execSrl (c : Nat) (g : BitVec 4) (f : Bool) (rd rs1 rs2 : BitVec 5) (s : State) : Out :=
  s.aluRow c g 0x07 f rd rs1 rs2 fun fl a b => logicFl fl (a >>> shCount b)

def execSra (c : Nat) (g : BitVec 4) (f : Bool) (rd rs1 rs2 : BitVec 5) (s : State) : Out :=
  s.aluRow c g 0x08 f rd rs1 rs2 fun fl a b => logicFl fl (a.sshiftRight (shCount b))

def execRor (c : Nat) (g : BitVec 4) (f : Bool) (rd rs1 rs2 : BitVec 5) (s : State) : Out :=
  s.aluRow c g 0x09 f rd rs1 rs2 fun fl a b => logicFl fl (a.rotateRight (shCount b))

def execAdc (c : Nat) (g : BitVec 4) (f : Bool) (rd rs1 rs2 : BitVec 5) (s : State) : Out :=
  s.aluRow c g 0x0A f rd rs1 rs2 fun fl a b => addFl a b (flC fl)

def execSbc (c : Nat) (g : BitVec 4) (f : Bool) (rd rs1 rs2 : BitVec 5) (s : State) : Out :=
  s.aluRow c g 0x0B f rd rs1 rs2 fun fl a b => subFl a b (flC fl)

def execAddw (c : Nat) (g : BitVec 4) (f : Bool) (rd rs1 rs2 : BitVec 5) (s : State) : Out :=
  s.aluRow c g 0x0C f rd rs1 rs2 fun _ a b => wordFl (addFl (a.setWidth 32) (b.setWidth 32) false)

def execSubw (c : Nat) (g : BitVec 4) (f : Bool) (rd rs1 rs2 : BitVec 5) (s : State) : Out :=
  s.aluRow c g 0x0D f rd rs1 rs2 fun _ a b => wordFl (subFl (a.setWidth 32) (b.setWidth 32) true)

def execMin (c : Nat) (g : BitVec 4) (f : Bool) (rd rs1 rs2 : BitVec 5) (s : State) : Out :=
  s.aluRow c g 0x0E f rd rs1 rs2 fun fl a b => logicFl fl (if a.slt b then a else b)

def execMax (c : Nat) (g : BitVec 4) (f : Bool) (rd rs1 rs2 : BitVec 5) (s : State) : Out :=
  s.aluRow c g 0x0F f rd rs1 rs2 fun fl a b => logicFl fl (if a.slt b then b else a)

def execMinu (c : Nat) (g : BitVec 4) (f : Bool) (rd rs1 rs2 : BitVec 5) (s : State) : Out :=
  s.aluRow c g 0x10 f rd rs1 rs2 fun fl a b => logicFl fl (if a.ult b then a else b)

def execMaxu (c : Nat) (g : BitVec 4) (f : Bool) (rd rs1 rs2 : BitVec 5) (s : State) : Out :=
  s.aluRow c g 0x11 f rd rs1 rs2 fun fl a b => logicFl fl (if a.ult b then b else a)

def execClz (c : Nat) (g : BitVec 4) (f : Bool) (rd rs1 : BitVec 5) (s : State) : Out :=
  s.aluRow c g 0x12 f rd rs1 0 fun fl a _ => logicFl fl (BitVec.ofNat 64 (clz64 a))

def execCtz (c : Nat) (g : BitVec 4) (f : Bool) (rd rs1 : BitVec 5) (s : State) : Out :=
  s.aluRow c g 0x13 f rd rs1 0 fun fl a _ => logicFl fl (BitVec.ofNat 64 (ctzOf a 64 0))

def execPopc (c : Nat) (g : BitVec 4) (f : Bool) (rd rs1 : BitVec 5) (s : State) : Out :=
  s.aluRow c g 0x14 f rd rs1 0 fun fl a _ => logicFl fl (BitVec.ofNat 64 (popc64 a))

def execBswap (c : Nat) (g : BitVec 4) (f : Bool) (rd rs1 : BitVec 5) (s : State) : Out :=
  s.aluRow c g 0x15 f rd rs1 0 fun fl a _ => logicFl fl (bswap64 a)

end Sys2Proof.Machine
end

