-- ==== Sys2Proof/Machine/SheetCp.lean ====
section
/-! DEFINITION. The commands of the sheet coprocessors, 0 to 5, as instructions (R336, R337). What each does when it runs
stands in CpEffects. -/

namespace Sys2Proof.Machine

open Sys2Proof

/-! ## Coprocessor 0: the transform network -/

def execNttFwd (c : Nat) (g : BitVec 4) (rs1 : BitVec 5) (s : State) : Out := s.cpRow c g 0 0x01 0 rs1 0
def execNttInv (c : Nat) (g : BitVec 4) (rs1 : BitVec 5) (s : State) : Out := s.cpRow c g 0 0x02 0 rs1 0
def execNttPmul (c : Nat) (g : BitVec 4) (rs1 rs2 : BitVec 5) (s : State) : Out := s.cpRow c g 0 0x03 0 rs1 rs2
def execNttPmacc (c : Nat) (g : BitVec 4) (rs1 rs2 : BitVec 5) (s : State) : Out := s.cpRow c g 0 0x04 0 rs1 rs2

/-! ## Coprocessor 1: the hash unit -/

def execHInit (c : Nat) (g : BitVec 4) (s : State) : Out := s.cpRow c g 1 0x01 0 0 0
def execHAbsorb (c : Nat) (g : BitVec 4) (rs1 rs2 : BitVec 5) (s : State) : Out := s.cpRow c g 1 0x02 0 rs1 rs2
def execHFinal (c : Nat) (g : BitVec 4) (s : State) : Out := s.cpRow c g 1 0x03 0 0 0
def execHSqueeze (c : Nat) (g : BitVec 4) (rs1 rs2 : BitVec 5) (s : State) : Out := s.cpRow c g 1 0x04 0 rs1 rs2
def execHSave (c : Nat) (g : BitVec 4) (rs1 : BitVec 5) (s : State) : Out := s.cpRow c g 1 0x05 0 rs1 0
def execHLoad (c : Nat) (g : BitVec 4) (rs1 : BitVec 5) (s : State) : Out := s.cpRow c g 1 0x06 0 rs1 0

/-! ## Coprocessor 2: the sampler -/

def execSmpUnif (c : Nat) (g : BitVec 4) (rs1 rs2 : BitVec 5) (s : State) : Out := s.cpRow c g 2 0x01 0 rs1 rs2
def execSmpCbd (c : Nat) (g : BitVec 4) (rs1 rs2 : BitVec 5) (s : State) : Out := s.cpRow c g 2 0x02 0 rs1 rs2
def execSmpBound (c : Nat) (g : BitVec 4) (rs1 rs2 : BitVec 5) (s : State) : Out := s.cpRow c g 2 0x03 0 rs1 rs2
def execSmpBall (c : Nat) (g : BitVec 4) (rs1 : BitVec 5) (s : State) : Out := s.cpRow c g 2 0x04 0 rs1 0

/-! ## Coprocessor 3: the binary-field unit -/

def execBfMulv (c : Nat) (g : BitVec 4) (rs1 rs2 : BitVec 5) (s : State) : Out := s.cpRow c g 3 0x01 0 rs1 rs2
def execBfMatvec (c : Nat) (g : BitVec 4) (rs1 rs2 : BitVec 5) (s : State) : Out := s.cpRow c g 3 0x02 0 rs1 rs2
def execBfEval (c : Nat) (g : BitVec 4) (rs1 rs2 : BitVec 5) (s : State) : Out := s.cpRow c g 3 0x03 0 rs1 rs2
def execBfBmstep (c : Nat) (g : BitVec 4) (rs1 rs2 : BitVec 5) (s : State) : Out := s.cpRow c g 3 0x04 0 rs1 rs2

/-! ## Coprocessor 4: the key port -/

def execKpSel (c : Nat) (g : BitVec 4) (rd rs1 : BitVec 5) (s : State) : Out := s.cpRow c g 4 0x01 rd rs1 0
def execKpAbsorb (c : Nat) (g : BitVec 4) (rs1 rs2 : BitVec 5) (s : State) : Out := s.cpRow c g 4 0x02 0 rs1 rs2
def execKpBfload (c : Nat) (g : BitVec 4) (rs1 rs2 : BitVec 5) (s : State) : Out := s.cpRow c g 4 0x03 0 rs1 rs2
def execKpDrop (c : Nat) (g : BitVec 4) (s : State) : Out := s.cpRow c g 4 0x04 0 0 0

/-! ## Coprocessor 5: the random port -/

def execRpMseed (c : Nat) (g : BitVec 4) (s : State) : Out := s.cpRow c g 5 0x01 0 0 0
def execRpDraw (c : Nat) (g : BitVec 4) (rs1 : BitVec 5) (s : State) : Out := s.cpRow c g 5 0x02 0 rs1 0

/-- RP.MASKV: vd is a v register, interlocked: earlier beats and commands that write it come first. -/
def execRpMaskv (c : Nat) (g : BitVec 4) (vd : BitVec 5) (s : State) : Out :=
  s.insn c g (insnWord g 0x35 (fmtC 0x03 vd 0 0)) false false fun s =>
    if !hasCp c 5 then s.except c 6 5
    else
      let s := s.settleCore c
      let s := State.cpWait c 5 (Core.awaitsV [vd.toNat]) cpFuel s
      let s := s.onCore c fun k =>
        let k := k.stallTo ((k.beats.filter fun b => b.reg == vd.toNat).foldl (fun a b => max a (b.leave + 1)) 0)
        k.settleTo k.cycle
      s.cpIssue c 5 0x03 vd 0 0

end Sys2Proof.Machine
end

