-- ==== Sys2Proof/Machine/Spdm.lean ====
section
/-! DEFINITION. The SPDM 1.3 responder with its secured sessions, IDE key management and TDISP (R120, R121, R252). R252 names
the standard and the choices; the octets of its messages, the order in which they are taken, its transcripts and key
schedule are those of DSP0274 and DSP0277, and of the PCI Express messages that VENDOR_DEFINED carries (PRESUMED, log 68).
A command whose message is another request than its row's changes nothing. -/

namespace Sys2Proof.Machine

open Sys2Proof

/-! ## Messages -/

/-- Changes the responder. -/
def State.setSpdm (s : State) (f : Spdm → Spdm) : State := { s with bus := { s.bus with spdm := f s.bus.spdm } }

/-- A message: version, code and two parameters, then its fields. -/
def spdmMsg (code p1 p2 : Nat) (body : Bytes) : Bytes := le 1 0x13 ++ le 1 code ++ le 1 p1 ++ le 1 p2 ++ body

/-- ERROR with a code. -/
def spdmErrorMsg (code : Nat) : Bytes := spdmMsg 0x7F code 0 []

abbrev SpdmErr.invalid : Nat := 0x01
abbrev SpdmErr.busy : Nat := 0x03
abbrev SpdmErr.unexpected : Nat := 0x04
abbrev SpdmErr.decrypt : Nat := 0x06
abbrev SpdmErr.session : Nat := 0x0B
abbrev SpdmErr.version : Nat := 0x41

/-- A response outside a session. -/
def State.spdmAnswer (s : State) (b : Bytes) : State := s.setSpdm fun p => { p with resp := b, respCode := 1 }

/-- An ERROR response outside a session. -/
def State.spdmError (s : State) (code : Nat) : State := s.setSpdm fun p => { p with resp := spdmErrorMsg code, respCode := 2 }

/-- The responder runs from READY on. -/
def State.spdmUp (s : State) : Bool := s.ready

/-- What signs or opens a session draws, and needs the identity, which the safe state withholds. -/
def State.spdmDraws (s : State) : Bool :=
  s.ready && !s.integ.safe && s.keys.identity != [] && decide (s.drawState 4 = .serves)

/-- A request outside a session that is taken where `ok` holds. -/
def State.spdmPlain (s : State) (via : SpdmPath) (msg : Bytes) (code : Nat) (ok : Bool) (f : State → State) : Out :=
  .next (if !s.spdmUp || uAt msg 1 1 != code || decide (msg.length < 4) then s
         else if uAt msg 0 1 ≠ 0x13 then s.spdmError SpdmErr.version
         else if s.bus.spdm.path ≠ via ∨ !ok then s.spdmError SpdmErr.unexpected
         else f s)

/-! ## Connection -/

/-- GET_VERSION starts the connection anew on its transport; it carries version 1.0. -/
def execGetVersion (s : State) (via : SpdmPath := .doe) (msg : Bytes := []) : Out :=
  .next (if !s.spdmUp || uAt msg 1 1 != 0x84 || decide (msg.length < 4) then s
         else if uAt msg 0 1 ≠ 0x10 then s.spdmError SpdmErr.version
         else
           let rsp := octets [0x10, 0x04, 0, 0, 0, 1] ++ le 2 0x1300
           (s.setSpdm fun p => { Spdm.reset with version := true, path := via, vca := msg ++ rsp, ideKeys := p.ideKeys, locks := p.locks }).spdmAnswer rsp)

/-- The capabilities: certificates, challenge, signed measurements, encryption and MAC, key exchange, heartbeat, key update. -/
def spdmCaps : Bytes := le 1 0 ++ le 1 0 ++ le 2 0 ++ le 4 0x62D6 ++ le 4 0x1200 ++ le 4 0x1200

def execGetCapabilities (s : State) (via : SpdmPath := .doe) (msg : Bytes := []) : Out :=
  s.spdmPlain via msg 0xE1 (s.bus.spdm.version && !s.bus.spdm.caps) fun s =>
    if msg.length ≠ 20 then s.spdmError SpdmErr.invalid
    else
      let rsp := spdmMsg 0x61 0 0 spdmCaps
      (s.setSpdm fun p => { p with caps := true, vca := p.vca ++ msg ++ rsp }).spdmAnswer rsp

/-- The tables of NEGOTIATE_ALGORITHMS: type and algorithms offered; none where they do not fill the message. -/
def algTables : Nat → Bytes → Option (List (Nat × Nat))
  | 0, b => if b.isEmpty then some [] else none
  | n + 1, b =>
    let size := 4 + 4 * (uAt b 1 1 % 16)
    if b.length < size then none else (algTables n (b.drop size)).map ((uAt b 0 1, uAt b 2 2) :: ·)

/-- A table of a type offers an algorithm. -/
def offers (l : List (Nat × Nat)) (typ alg : Nat) : Bool := l.any fun p => p.1 == typ && p.2 &&& alg != 0

/-- ALGORITHMS: DMTF measurements of SHA-384, ECDSA P-384, SHA-384, and a table for each type asked for. -/
def algorithmsMsg (l : List (Nat × Nat)) : Bytes :=
  let pick := fun (p : Nat × Nat) => if p.1 = 2 then 0x10 else if p.1 = 3 then 2 else if p.1 = 5 then 1 else 0
  let t := l.flatMap fun p => le 1 p.1 ++ le 1 0x20 ++ le 2 (pick p)
  spdmMsg 0x63 l.length 0 (le 2 (36 + t.length) ++ le 1 1 ++ le 1 2 ++ le 4 4 ++ le 4 0x80 ++ le 4 2 ++ le 12 0 ++ le 1 0 ++
    le 1 0 ++ le 2 0 ++ t)

/-- The device's only choices must all be among the offers (R252). -/
def execNegotiateAlgorithms (via : SpdmPath) (s : State) (msg : Bytes := []) : Out :=
  s.spdmPlain via msg 0xE3 (s.bus.spdm.caps && !s.bus.spdm.algs) fun s =>
    let skip := 32 + 4 * (uAt msg 28 1 + uAt msg 29 1)
    match algTables (uAt msg 2 1) (msg.drop skip) with
    | none => s.spdmError SpdmErr.invalid
    | some l =>
      if uAt msg 4 2 == msg.length && uAt msg 8 4 &&& 0x80 != 0 && uAt msg 12 4 &&& 2 != 0 && offers l 2 0x10 && offers l 3 2 then
        let rsp := algorithmsMsg l
        (s.setSpdm fun p => { p with algs := true, vca := p.vca ++ msg ++ rsp }).spdmAnswer rsp
      else s.spdmError SpdmErr.invalid

/-! ## Certificates (slot 0 only) -/

/-- A chain is there to be shown. -/
def State.showsChain (s : State) : Bool := s.bus.spdm.algs && s.keys.chain != []

def execGetDigests (s : State) (via : SpdmPath := .doe) (msg : Bytes := []) : Out :=
  s.spdmPlain via msg 0x81 s.showsChain fun s =>
    let rsp := spdmMsg 0x01 1 1 (sha384 s.keys.chain)
    (s.setSpdm fun p => { p with certs := p.certs ++ msg ++ rsp }).spdmAnswer rsp

/-- A portion of the chain: its length, what remains, its octets. -/
def execGetCertificate (via : SpdmPath) (head body : Bytes) (s : State) : Out :=
  let msg := head ++ body
  s.spdmPlain via msg 0x82 s.showsChain fun s =>
    if uAt msg 2 1 ≠ 0 ∨ msg.length ≠ 8 ∨ s.keys.chain.length ≤ uAt msg 4 2 then s.spdmError SpdmErr.invalid
    else
      let b := bytesAt s.keys.chain (uAt msg 4 2) (uAt msg 6 2)
      let rsp := spdmMsg 0x02 0 0 (le 2 b.length ++ le 2 (s.keys.chain.length - uAt msg 4 2 - b.length) ++ b)
      (s.setSpdm fun p => { p with certs := p.certs ++ msg ++ rsp }).spdmAnswer rsp

/-! ## Signatures by the P-384 half of the identity (R249, R252) -/

/-- The prefix of a signed message: the version string four times, zeros, and the context. -/
def signPrefix (ctx : String) : Bytes :=
  let v := ascii "dmtf-spdm-v1.3.*"
  let c := ascii ctx
  v ++ v ++ v ++ v ++ List.replicate (36 - c.length) 0#8 ++ c

/-- What a transcript is signed as. -/
def signedDigest (ctx : String) (transcript : Bytes) : Bytes := sha384 (signPrefix ctx ++ sha384 transcript)

/-- A hedged signature of a transcript, with the octets of its draws. -/
def State.spdmSig (s : State) (ctx : String) (transcript extra mask : Bytes) : Bytes :=
  curveP384.ecdsaSign 384 mask (s.identityKey.drop 32) (signedDigest ctx transcript) extra

/-- The octets that a signed response draws: its nonce, the signature's randomness and mask. -/
structure SpdmDraw where
  nonce : Bytes
  extra : Bytes
  mask : Bytes
  deriving DecidableEq, Repr

/-- The draws of a signed response, from the atlas instance. -/
def State.spdmDraw (s : State) : SpdmDraw × State :=
  let (a, s) := s.drawFrom 4 32
  let (b, s) := s.drawFrom 4 32
  let (c, s) := s.drawFrom 4 32
  ({ nonce := a, extra := b, mask := c }, s)

/-- The hash of all measurements, where a request asks for it. -/
def State.measureSummary (s : State) (kind : Nat) : Bytes := if kind = 0 then [] else sha384 (s.keys.digests.map (fit 48)).flatten

def execChallenge (via : SpdmPath) (msg : Bytes) (s : State) : Out :=
  s.spdmPlain via msg 0x83 s.showsChain fun s =>
    if uAt msg 2 1 ≠ 0 ∨ msg.length ≠ 44 then s.spdmError SpdmErr.invalid
    else if !s.spdmDraws then s.spdmError SpdmErr.busy
    else
      let (d, s) := s.spdmDraw
      let rsp := spdmMsg 0x03 0 1 (sha384 s.keys.chain ++ d.nonce ++ s.measureSummary (uAt msg 3 1) ++ le 2 0 ++ bytesAt msg 36 8)
      let m1 := s.bus.spdm.vca ++ s.bus.spdm.certs ++ msg ++ rsp
      (s.setSpdm fun p => { p with certs := [] }).spdmAnswer (rsp ++ s.spdmSig "responder-challenge_auth signing" m1 d.extra d.mask)

/-! ## Measurements: indices 1 to 7 carry D(0) to D(6) (R252) -/

/-- A block: index, the DMTF specification, its size, the type of the value, its size and D(i - 1). -/
def State.measureBlock (s : State) (i : Nat) : Bytes :=
  le 1 i ++ le 1 1 ++ le 2 51 ++ le 1 (if i ≤ 3 then 1 else 3) ++ le 2 48 ++ fit 48 (s.keys.digests.getD (i - 1) [])

/-- The blocks that an operation asks for: 0 the count alone, 1 to 7 one block, 255 all. -/
def measureIndices (op : Nat) : List Nat := if op = 255 then (List.range 7).map (· + 1) else if op = 0 then [] else [op]

/-- MEASUREMENTS up to its signature. -/
def State.measureMsg (s : State) (op : Nat) (nonce context : Bytes) : Bytes :=
  let l := measureIndices op
  let record := l.flatMap s.measureBlock
  spdmMsg 0x60 (if op = 0 then 7 else 0) 0 (le 1 l.length ++ le 3 record.length ++ record ++ nonce ++ le 2 0 ++ context)

def execGetMeasurements (via : SpdmPath) (head body : Bytes) (s : State) : Out :=
  let msg := head ++ body
  s.spdmPlain via msg 0xE0 s.bus.spdm.algs fun s =>
    let signed := bitOf (uAt msg 2 1) 0
    let op := uAt msg 3 1
    if msg.length ≠ (if signed then 45 else 12) ∨ (7 < op ∧ op ≠ 255) ∨ (signed ∧ uAt msg 36 1 ≠ 0) then
      s.spdmError SpdmErr.invalid
    else if !s.spdmDraws then s.spdmError SpdmErr.busy
    else
      let (d, s) := s.spdmDraw
      let rsp := s.measureMsg op d.nonce (msg.drop (msg.length - 8))
      let l1 := s.bus.spdm.meas ++ msg ++ rsp
      if signed then
        (s.setSpdm fun p => { p with meas := [] }).spdmAnswer
          (rsp ++ s.spdmSig "responder-measurements signing" (s.bus.spdm.vca ++ l1) d.extra d.mask)
      else (s.setSpdm fun p => { p with meas := l1 }).spdmAnswer rsp

/-! ## The key schedule of a session -/

/-- What expands a secret: the length, the version label, a label and a context. -/
def binConcat (n : Nat) (label : String) (context : Bytes) : Bytes := le 2 n ++ ascii "spdm1.3 " ++ ascii label ++ context

/-- A secret derived from another. -/
def spdmExpand (n : Nat) (secret : Bytes) (label : String) (context : Bytes) : Bytes :=
  hkdfExpand 384 n secret (binConcat n label context)

/-- The HMAC that ends a handshake for one direction. -/
def verifyData (dirSecret th : Bytes) : Bytes := hmac 384 (spdmExpand 48 dirSecret "finished" []) (sha384 th)

/-- The secrets of the two directions: the requester's, then the responder's. -/
def dirSecrets (secret th : Bytes) (req rsp : String) : SpdmKey × SpdmKey :=
  ({ secret := spdmExpand 48 secret req (sha384 th), seq := 0 }, { secret := spdmExpand 48 secret rsp (sha384 th), seq := 0 })

/-- The master secret behind a handshake secret. -/
def masterSecret (handshake : Bytes) : Bytes :=
  hkdfExtract 384 (spdmExpand 48 handshake "derived" []) (List.replicate 48 0#8)

/-- The next secret of a direction (KEY_UPDATE). -/
def SpdmKey.next (k : SpdmKey) : SpdmKey := { secret := spdmExpand 48 k.secret "traffic upd" [], seq := 0 }

/-! ## Records: AES-256-GCM under the key of their direction -/

/-- The nonce of a record: the IV with the sequence number added to its first octets. -/
def SpdmKey.nonce (k : SpdmKey) : Bytes := xorBytes (spdmExpand 12 k.secret "iv" []) (le 12 k.seq)

/-- The octets of a record before its ciphertext: the session, on MCTP the sequence number, the length of what follows. -/
def recordHead (via : SpdmPath) (session seq n : Nat) : Bytes :=
  le 4 session ++ (if via = .mctp then le 2 seq else []) ++ le 2 n

/-- A message as a record carries it: on MCTP behind its message type. -/
def recordBody (via : SpdmPath) (m : Bytes) : Bytes :=
  let d := if via = .mctp then 5#8 :: m else m
  le 2 d.length ++ d

/-- A record of a message. -/
def SpdmKey.sealRecord (k : SpdmKey) (via : SpdmPath) (session : Nat) (m : Bytes) : Bytes :=
  let b := recordBody via m
  let head := recordHead via session k.seq (b.length + 16)
  head ++ gcmSeal (spdmExpand 32 k.secret "key" []) k.nonce head b

/-- The message of a record; none: it is not of this session, its sequence number is another, or its tag fails. -/
def SpdmKey.openRecord (k : SpdmKey) (via : SpdmPath) (session : Nat) (r : Bytes) : Option Bytes :=
  let n := r.length - (recordHead via 0 0 0).length
  let head := recordHead via session k.seq n
  if r.take head.length ≠ head ∨ n < 18 then none
  else
    let c := r.drop head.length
    match gcmOpen (spdmExpand 32 k.secret "key" []) k.nonce head (c.take (n - 16)) (c.drop (n - 16)) with
    | none => none
    | some p =>
      let d := bytesAt p 2 (uAt p 0 2)
      if p.length < 2 + uAt p 0 2 then none
      else if via = .mctp then (match d with | t :: m => if t = 5#8 then some m else none | [] => none)
      else some d

/-- Takes a record from the requester: under its key, or under the key before an update that it has not verified. -/
def State.openRecord (s : State) (r : Bytes) : Option (Bytes × State) :=
  let p := s.bus.spdm
  match p.toDev.openRecord p.path p.sessionId r with
  | some m => some (m, s.setSpdm fun p => { p with toDev := { p.toDev with seq := p.toDev.seq + 1 } })
  | none => match p.oldKey with
    | none => none
    | some k => (k.openRecord p.path p.sessionId r).map fun m =>
        (m, s.setSpdm fun p => { p with toDev := { k with seq := k.seq + 1 }, oldKey := none })

/-- Sends a message within the session. -/
def State.sendSecured (s : State) (m : Bytes) : State :=
  s.setSpdm fun p => { p with resp := p.toHost.sealRecord p.path p.sessionId m, respCode := if uAt m 1 1 = 0x7F then 2 else 1
                              toHost := { p.toHost with seq := p.toHost.seq + 1 } }

/-- The session ends. -/
def State.endSession (s : State) : State :=
  s.setSpdm fun p => { p with session := 0, sessionId := 0, th := [], master := [], toDev := { secret := [], seq := 0 }
                              toHost := { secret := [], seq := 0 }, oldKey := none }

/-- A request in a record, taken in a phase of the session: 1 handshake, 2 established. `mine` says whether the message is
the row's; a record that does not open ends the session. -/
def State.inRecord (s : State) (via : SpdmPath) (record : Bytes) (phase : Nat) (mine : Bytes → Bool) (f : Bytes → State → State) :
    Out :=
  .next (if !s.spdmUp then s
         else if s.bus.spdm.session = 0 ∨ s.bus.spdm.path ≠ via then s.spdmError SpdmErr.session
         else match s.openRecord record with
           | none => s.endSession.spdmError SpdmErr.decrypt
           | some (m, t) =>
             if !mine m then s
             else if uAt m 0 1 ≠ 0x13 then t.sendSecured (spdmErrorMsg SpdmErr.version)
             else if s.bus.spdm.session ≠ phase then t.sendSecured (spdmErrorMsg SpdmErr.unexpected)
             else f m t)

/-- A message of a code. -/
def hasCode (code : Nat) (m : Bytes) : Bool := decide (4 ≤ m.length) && uAt m 1 1 == code

/-! ## Sessions: one at a time -/

/-- KEY_EXCHANGE: the ephemeral key, the signature and the responder's verify data; the handshake keys are in force. -/
def execKeyExchange (via : SpdmPath) (msg : Bytes) (s : State) : Out :=
  s.spdmPlain via msg 0xE4 (s.showsChain && s.bus.spdm.session == 0) fun s =>
    let pub := 4#8 :: bytesAt msg 40 96
    if uAt msg 3 1 ≠ 0 ∨ msg.length ≠ 138 + uAt msg 136 2 ∨ !curveP384.pointOk pub then s.spdmError SpdmErr.invalid
    else if !s.spdmDraws then s.spdmError SpdmErr.busy
    else
      let (d, s) := s.spdmDraw
      let (e, s) := s.drawFrom 4 56
      let secret := be 48 (curveP384.scalarOf e)
      let session := uAt msg 4 2 + 2 ^ 16 * 1
      let head := spdmMsg 0x64 0 0 (le 2 1 ++ le 1 0 ++ le 1 0 ++ d.nonce ++ (curveP384.public d.mask secret).drop 1 ++
        s.measureSummary (uAt msg 2 1) ++ le 2 0)
      let th := s.bus.spdm.vca ++ sha384 s.keys.chain ++ msg ++ head
      let signed := head ++ s.spdmSig "responder-key_exchange_rsp signing" th d.extra d.mask
      let th1 := s.bus.spdm.vca ++ sha384 s.keys.chain ++ msg ++ signed
      let hs := hkdfExtract 384 (List.replicate 48 0#8) (curveP384.ecdh d.mask secret pub)
      let (toDev, toHost) := dirSecrets hs th1 "req hs data" "rsp hs data"
      let rsp := signed ++ verifyData toHost.secret th1
      (s.setSpdm fun p => { p with session := 1, sessionId := session, th := p.vca ++ sha384 s.keys.chain ++ msg ++ rsp, master := hs
                                   toDev := toDev, toHost := toHost, oldKey := none }).spdmAnswer rsp

/-- FINISH: the requester's verify data ends the handshake, or the session with it; the data keys come into force. -/
def execFinish (via : SpdmPath) (s : State) (record : Bytes := []) : Out :=
  s.inRecord via record 1 (hasCode 0xE5) fun m s =>
    let p := s.bus.spdm
    if bitOf (uAt m 2 1) 0 || m.length != 52 then s.sendSecured (spdmErrorMsg SpdmErr.invalid)
    else if m.drop 4 ≠ verifyData p.toDev.secret (p.th ++ m.take 4) then (s.sendSecured (spdmErrorMsg SpdmErr.decrypt)).endSession
    else
      let rsp := spdmMsg 0x65 0 0 []
      let ms := masterSecret p.master
      let (toDev, toHost) := dirSecrets ms (p.th ++ m ++ rsp) "req app data" "rsp app data"
      (s.sendSecured rsp).setSpdm fun p => { p with session := 2, master := ms, toDev := toDev, toHost := toHost, th := [] }

def execEndSession (s : State) (via : SpdmPath := .doe) (record : Bytes := []) : Out :=
  s.inRecord via record 2 (hasCode 0xEC) fun _ s => (s.sendSecured (spdmMsg 0x6C 0 0 [])).endSession

/-- KEY_UPDATE: 1 updates the requester's key, 2 both keys, 3 verifies the new one. -/
def execKeyUpdate (via : SpdmPath) (s : State) (record : Bytes := []) : Out :=
  s.inRecord via record 2 (hasCode 0xE9) fun m s =>
    let op := uAt m 2 1
    let ack := spdmMsg 0x69 op (uAt m 3 1) []
    if op = 1 then (s.setSpdm fun p => { p with toDev := p.toDev.next, oldKey := some p.toDev }).sendSecured ack
    else if op = 2 then
      (s.setSpdm fun p => { p with toDev := p.toDev.next, oldKey := some p.toDev, toHost := p.toHost.next }).sendSecured ack
    else if op = 3 then (s.setSpdm fun p => { p with oldKey := none }).sendSecured ack
    else s.sendSecured (spdmErrorMsg SpdmErr.invalid)

def execHeartbeat (s : State) (via : SpdmPath := .doe) (record : Bytes := []) : Out :=
  s.inRecord via record 2 (hasCode 0xE8) fun _ s => s.sendSecured (spdmMsg 0x68 0 0 [])

/-! ## VENDOR_DEFINED: the PCI-SIG's protocols on the DOE mailbox (R120, R252) -/

/-- A VENDOR_DEFINED_REQUEST of the PCI-SIG with a protocol: 0 IDE_KM, 1 TDISP. -/
def vendorOf (protocol : Nat) (m : Bytes) : Bool :=
  hasCode 0xFE m && uAt m 4 2 == 3 && uAt m 6 1 == 2 && uAt m 7 2 == 1 && uAt m 9 2 + 11 == m.length && decide (12 ≤ m.length) &&
  uAt m 11 1 == protocol

/-- The response to it. -/
def vendorMsg (protocol : Nat) (body : Bytes) : Bytes :=
  spdmMsg 0x7E 0 0 (le 2 3 ++ le 1 2 ++ le 2 1 ++ le 2 (body.length + 1) ++ le 1 protocol ++ body)

/-! ## IDE key management (8 selective streams, R121) -/

/-- The state of a stream's keys: 0 none, 1 programmed, 2 running. -/
def State.ideKey (s : State) (stream : Nat) : Nat := s.bus.spdm.ideKeys.getD stream 0

/-- Sets it. -/
def State.setIde (s : State) (stream k : Nat) : State :=
  s.setSpdm fun p => { p with ideKeys := p.ideKeys.putD stream k 0 }

/-- The acknowledgement of an IDE_KM message about a stream: KP_ACK with a status, or K_GOSTOP_ACK. -/
def ideAck (object status : Nat) (b : Bytes) : Bytes :=
  vendorMsg 0 (le 1 object ++ le 2 0 ++ bytesAt b 3 1 ++ le 1 status ++ bytesAt b 5 2)

/-- QUERY, KEY_PROG, K_SET_GO and K_SET_STOP; the one port of the device has index 0. -/
def execIdeKm (head body : Bytes) (s : State) : Out :=
  s.inRecord .doe (head ++ body) 2 (vendorOf 0) fun m s =>
    let b := m.drop 12
    let stream := uAt b 3 1
    match uAt b 0 1 with
    | 0 => s.sendSecured (vendorMsg 0 (le 1 1 ++ le 1 0 ++ bytesAt b 2 1 ++ le 4 0 ++ (List.range 8).flatMap fun k => le 1 (s.ideKey k)))
    | 2 =>
      if b.length ≠ 47 then s.sendSecured (ideAck 3 1 b)
      else if uAt b 6 1 ≠ 0 then s.sendSecured (ideAck 3 2 b)
      else if 8 ≤ stream then s.sendSecured (ideAck 3 3 b)
      else (s.setIde stream 1).sendSecured (ideAck 3 0 b)
    | 4 =>
      if 8 ≤ stream ∨ s.ideKey stream = 0 then s.sendSecured (spdmErrorMsg SpdmErr.invalid)
      else (s.setIde stream 2).sendSecured (ideAck 6 0 b)
    | 5 =>
      if 8 ≤ stream then s.sendSecured (spdmErrorMsg SpdmErr.invalid)
      else (s.setIde stream 0).sendSecured (ideAck 6 0 b)
    | _ => s.sendSecured (spdmErrorMsg SpdmErr.invalid)

/-! ## TDISP (R120, R121) -/

/-- The slice that an INTERFACE_ID names: bytes 4 and 5; its other reserved bytes are zero. -/
def interfaceSlice (id : Bytes) : Option Nat := if zeroAt id 6 6 && id.length == 12 then some (uAt id 4 2) else none

/-- A TDISP message of a type on an interface. -/
def tdispMsg (typ : Nat) (id body : Bytes) : Bytes := vendorMsg 1 (le 1 0x10 ++ le 1 typ ++ le 2 0 ++ id ++ body)

/-- TDISP_ERROR. -/
def tdispErrorMsg (id : Bytes) (code : Nat) : Bytes := tdispMsg 0x7F id (le 4 code ++ le 4 0)

abbrev TdispErr.invalid : Nat := 1
abbrev TdispErr.state : Nat := 4
abbrev TdispErr.version : Nat := 0x41
abbrev TdispErr.interface : Nat := 0x101
abbrev TdispErr.nonce : Nat := 0x102
abbrev TdispErr.entropy : Nat := 0x103

/-- A TDISP request of a type about an existing slice: `f` gets the interface, the slice's number and state, and the body. -/
def State.tdisp (s : State) (record : Bytes) (typ : Nat) (f : Bytes → Nat → Slice → Bytes → State → State) : Out :=
  s.inRecord .doe record 2 (fun m => vendorOf 1 m && uAt m 13 1 == typ) fun m s =>
    let id := bytesAt m 16 12
    if uAt m 12 1 ≠ 0x10 then s.sendSecured (tdispErrorMsg id TdispErr.version)
    else match interfaceSlice id with
      | none => s.sendSecured (tdispErrorMsg id TdispErr.interface)
      | some n => match s.slices.find n with
        | none => s.sendSecured (tdispErrorMsg id TdispErr.interface)
        | some y => f id n y (m.drop 28) s

def execGetTdispVersion (record : Bytes) (s : State) : Out :=
  s.tdisp record 0x81 fun id _ _ _ s => s.sendSecured (tdispMsg 1 id (le 1 1 ++ le 1 0x10))

/-- No vendor-defined messages, no peer-to-peer binding, no ATS: of the capabilities only the seven messages are set. -/
def execGetTdispCapabilities (record : Bytes) (s : State) : Out :=
  s.tdisp record 0x82 fun id _ _ _ s =>
    s.sendSecured (tdispMsg 2 id (le 4 0 ++ le 16 0xFE ++ le 2 0 ++ le 3 0 ++ le 1 64 ++ le 1 1 ++ le 1 1))

/-- Binds the slice to the selective stream named, whose keys have been programmed; the answer is the nonce of START. -/
def execLockInterfaceRequest (head body : Bytes) (s : State) : Out :=
  s.tdisp (head ++ body) 0x83 fun id n y b s =>
    let stream := uAt b 2 1
    if y.tdi ≠ .configUnlocked then s.sendSecured (tdispErrorMsg id TdispErr.state)
    else if b.length ≠ 20 ∨ 8 ≤ stream ∨ s.ideKey stream = 0 then s.sendSecured (tdispErrorMsg id TdispErr.invalid)
    else if !s.spdmDraws then s.sendSecured (tdispErrorMsg id TdispErr.entropy)
    else
      let (nonce, s) := s.drawFrom 4 32
      let s := s.setSpdm fun p => { p with locks := p.locks.put n (nonce ++ bytesAt b 4 8) }
      (s.setSlice n fun y => { y with tdi := .configLocked, ideStream := some (BitVec.ofNat 3 stream) }).sendSecured (tdispMsg 3 id nonce)

/-- The report: one MMIO range, the window range in pages of 4 KiB from the reporting offset on, and no MSI-X table. -/
def State.interfaceReport (s : State) (n : Nat) (y : Slice) : Bytes :=
  let off := uAt (s.bus.spdm.locks.getD n []) 32 8
  le 2 0 ++ le 2 0 ++ le 2 0 ++ le 2 0 ++ le 4 0 ++ le 4 1 ++ le 8 ((y.winBase + off) / 4096) ++ le 4 (y.winSize / 4096) ++ le 4 0 ++
  le 4 0

/-- A portion of the report; in CONFIG_LOCKED and RUN. -/
def execGetDeviceInterfaceReport (record : Bytes) (s : State) : Out :=
  s.tdisp record 0x84 fun id n y b s =>
    let r := s.interfaceReport n y
    if !y.locked then s.sendSecured (tdispErrorMsg id TdispErr.state)
    else if b.length ≠ 4 ∨ r.length ≤ uAt b 0 2 then s.sendSecured (tdispErrorMsg id TdispErr.invalid)
    else
      let p := bytesAt r (uAt b 0 2) (uAt b 2 2)
      s.sendSecured (tdispMsg 4 id (le 2 p.length ++ le 2 (r.length - uAt b 0 2 - p.length) ++ p))

/-- TDISP's code of an interface state. -/
def TdiState.code : TdiState → Nat
  | .configUnlocked => 0
  | .configLocked => 1
  | .run => 2
  | .error => 3

def execGetDeviceInterfaceState (record : Bytes) (s : State) : Out :=
  s.tdisp record 0x85 fun id _ y _ s => s.sendSecured (tdispMsg 5 id (le 1 y.tdi.code))

/-- Moves an interface. -/
def State.setTdi (s : State) (slice : Nat) (t : TdiState) : State := s.setSlice slice fun y => { y with tdi := t }

/-- From CONFIG_LOCKED to RUN, where doorbells take effect; the request repeats the nonce of LOCK. -/
def execStartInterfaceRequest (record : Bytes) (s : State) : Out :=
  s.tdisp record 0x86 fun id n y b s =>
    if y.tdi ≠ .configLocked then s.sendSecured (tdispErrorMsg id TdispErr.state)
    else if b ≠ (s.bus.spdm.locks.getD n []).take 32 then s.sendSecured (tdispErrorMsg id TdispErr.nonce)
    else (s.setTdi n .run).sendSecured (tdispMsg 6 id [])

/-- Back to CONFIG_UNLOCKED from any state; the binding ends. -/
def execStopInterfaceRequest (record : Bytes) (s : State) : Out :=
  s.tdisp record 0x87 fun id n _ _ s =>
    ((s.setSlice n fun y => { y with tdi := .configUnlocked, ideStream := none }).setSpdm fun p =>
      { p with locks := p.locks.drop n }).sendSecured (tdispMsg 7 id [])

end Sys2Proof.Machine
end

