-- ==== Sys2Proof/Machine/StartUp.lean ====
section
/-! DEFINITION. Power, PERST_N, the events of a start, and the resets after READY (R88, R276, R384, R394 to R398, R405,
R417, R418, R433). -/

namespace Sys2Proof.Machine

open Sys2Proof

/-- The rails come up: the always-on domain runs, the entropy source starts, and the SMBus address is sampled (R276,
R427, R433). PERST_N is asserted. -/
def execPowerUp (smbAddr : BitVec 2) (s : State) : Out :=
  if s.start.vddGood then .next s
  else
    let s := { s with start := { s.start with vddGood := true, perst := true, smbAddr := smbAddr } }
    .next s.startSource

/-- What a board programmer wrote while PERST_N was asserted (R399, R438). -/
def State.programFlash (s : State) (e : StartEnv) : State :=
  match e.program with
  | some (a, b) => { s with start := { s.start with flashA := a, flashB := b } }
  | none => s

/-- The CLOCKS stage: both references and their PLLs lock (R397). -/
def State.stageClocks (s : State) (e : StartEnv) : State :=
  if !e.clk25 then s.failStart 1 0 else if !e.clk100 then s.failStart 1 1 else s

/-- t0: the power-cycle count advances, the entropy source restarts, the chief core begins its ROM, and the stages run as
far as nothing has to be waited for: a fuse burn, the HBM training, the seeding of the atlas instance, the datum. -/
def execPerstNDeassert (env : StartEnv) (s : State) : Out :=
  if !s.start.vddGood || !s.start.perst then .next s
  else
    let s := (s.lose.programFlash env).startSource
    let s := { s with
      log := { s.log with powerCycles := s.log.powerCycles + 1 }
      cores := s.cores.put 0 { Core.reset with held := false }
      start := { s.start with perst := false, stage := Stage.clocks, t0 := s.now, stageFrom := s.now, env := some env } }
    .next (((s.stageClocks env).andThen (State.stagePuf · env)).andThen (State.stageFuses · env))

/-- A fuse group has been blown for its 12 ms and is read back; the next group starts while the margin holds and no
alarm has been raised, and the start goes on after the last (R417, R418). A group that does not read burnt leaves the
request. -/
def execFuseGroupBurnComplete (blown : Nat) (s : State) : Out :=
  match s.start.burning with
  | [] => .next s
  | g :: t =>
    if s.now < s.start.burnFrom + 12000 then .next s
    else
      let s := { s with lcs := s.lcs.burn g blown, start := { s.start with burning := t, burnFrom := s.now } }
      let running := !s.start.perst && decide (s.start.stage = Stage.fuses) && !s.integ.safe
      match s.start.env, s.lcs.pending with
      | some e, some r =>
        if !running then .next { s with start := { s.start with burning := [] } }
        else if fuseOf blown ≠ .burnt then
          .next (({ s with start := { s.start with burning := [] } }).leaveFuses e)
        else if t.isEmpty then .next (s.burnt e r)
        else if burnMargin e then .next s
        else
          let s := { s with start := { s.start with burning := [] }, lcs := { s.lcs with burnDeferred := true } }
          .next (s.leaveFuses e)
      | _, _ => .next { s with start := { s.start with burning := [] } }

/-- The HBM training, fill and read-back have ended (R395, R397). -/
def execHbmTrainingComplete (ok : Bool) (s : State) : Out :=
  if !s.started || s.start.hbmTrained || decide (Stage.hbm < s.start.stage) || decide (s.start.stage = 0) then .next s
  else if !ok then .next (s.failStart 6 0)
  else
    let s := { s with start := { s.start with hbmTrained := true } }
    .next s.leaveHbm

/-- ACQ_MS have passed since the DATUM stage began; a token under verification is waited for (R405). -/
def execDatumAcqExpire (s : State) : Out :=
  if s.start.stage = Stage.datum ∧ s.start.stageFrom + 1000 * s.datum.acqMs ≤ s.now ∧ s.datum.tokens = [] then
    .next s.becomeReady
  else .next s

/-- A group that burns goes on to its end (R418). -/
def State.loseKeepingBurn (s : State) : State :=
  let t := s.lose
  { t with start := { t.start with burning := s.start.burning.take 1, burnFrom := s.start.burnFrom } }

/-- PERST_N asserts (R398). -/
def execPerstNAssert (s : State) : Out :=
  if !s.started then .next s else .next s.loseKeepingBurn

/-- Power is lost. A group whose burn is cut may be left in any reading: how many of its fuses are blown is a free value
(R418). -/
def execPowerLoss (s : State) : Out :=
  if !s.start.vddGood then .next s
  else
    let (lcs, free) := match s.start.burning with
      | g :: _ => (s.lcs.burn g ((Config.freeWord s.free).toNat % 9), s.free + 1)
      | [] => (s.lcs, s.free)
    let t := { s with lcs := lcs, free := free }.lose
    .next { t with start := { t.start with vddGood := false }, integ := { t.integ with thermtrip := false }
                   rng := { t.rng with stage := .off } }

/-- FLR and hot reset: the command model ends, queue 0 is disabled, every slice is removed as if by a power loss, and the
event controller is reset as R384 says. The high-word latches of the blocks that are reset go with them (R12). Registers that the rule does not name keep their values. -/
def State.functionReset (s : State) : State :=
  let s := s.abortUnits
  { s with
    ctxs := [], collectors := [], queues := [], enq0 := Queue.reset0, slices := []
    datum := { s.datum with tokens := s.datum.tokens.filter fun t => t.ctx.isNone }
    keys := { s.keys with
      slots := [], bumps := [], prepared := [], mceCache := [], preps := [], resident := [], anchors := [], peers := []
      imports := [], receives := [] }
    stateful := { s.stateful with keys := [], trees := [], builds := [] }
    rng := { s.rng with fresh := [] }
    start := { s.start with commit := none }
    bus := { s.bus with
      latch := Tab.keep (fun o _ => decide (o < 0x01000000)) s.bus.latch
      heldLow := Tab.keep (fun o _ => decide (o < 0x01000000)) s.bus.heldLow }
    events := { s.events with
      msix := s.events.msix.mapVals fun _ e => { e with mask := true }
      pba := [], coal := []
      classes := s.events.classes.mapVals fun _ k => { k with hostEn := false } } }

def execFlr (s : State) : Out := if s.ready then .next s.functionReset else .next s

def execHotReset (s : State) : Out := if s.ready then .next s.functionReset else .next s

/-- A configuration request completes with Request Retry Status from t0 until READY, and normally in READY, FAILED and
LOCKED (R396, R397). -/
def execConfigRequest (_isWrite : Bool) (s : State) : Out :=
  if !s.started then .next s
  else .next { s with bus := { s.bus with rrs := decide (s.start.stage < Stage.ready) } }

/-- A memory request before READY completes with Unsupported Request (R396). -/
def execMemoryRequestBeforeReady (s : State) : Out :=
  if s.started ∧ s.start.stage < Stage.ready then .next { s with bus := { s.bus with ur := true } } else .next s

end Sys2Proof.Machine
end

