-- ==== Sys2Proof/Machine/Survey.lean ====
section
/-! DEFINITION. Survey batches, bearings and anchors (R182 to R197). -/

namespace Sys2Proof.Machine

open Sys2Proof

/-! ## The tree (R185, R186) -/

/-- H: 1 SHA-512/256, 2 SHAKE256 with 32 octets. -/
def treeHash (h : Nat) (b : Bytes) : Bytes := if h = 1 then hashOf 512256 32 b else shake256 32 b

/-- Leaf i of a batch. -/
def leafNode (h batch i : Nat) (d : Bytes) : Bytes := treeHash h (0#8 :: (le 8 batch ++ le 4 i ++ d))

/-- An internal node. -/
def innerNode (h : Nat) (l r : Bytes) : Bytes := treeHash h (1#8 :: (l ++ r))

/-- The next level: pairs are hashed, an odd last node is carried up. -/
def nextLevel (h : Nat) : List Bytes → List Bytes
  | a :: b :: t => innerNode h a b :: nextLevel h t
  | t => t

/-- The levels of a tree, leaves first; `fuel` bounds the height. -/
def treeLevels (h : Nat) : Nat → List Bytes → List (List Bytes)
  | 0, l => [l]
  | f + 1, l => if l.length ≤ 1 then [l] else l :: treeLevels h f (nextLevel h l)

/-- The root: the single node that remains. -/
def rootOf (levels : List (List Bytes)) : Bytes := (levels.getLastD []).headD []

/-- The sibling of node `i` of a level, if its level does not carry it. -/
def sibling (level : List Bytes) (i : Nat) : Option Bytes := if i % 2 = 1 then level[i - 1]? else level[i + 1]?

/-- The path of a leaf, lowest level first. -/
def pathOf : List (List Bytes) → Nat → List Bytes
  | [], _ => []
  | [_], _ => []
  | level :: t, i => (match sibling level i with | some x => [x] | none => []) ++ pathOf t (i / 2)

/-- The walk of R189 from a leaf node; `fuel` bounds the levels. -/
def walk (h : Nat) : Nat → Bytes → List Bytes → Nat → Nat → Bytes
  | 0, node, _, _, _ => node
  | f + 1, node, path, i, n =>
    if n ≤ 1 then node
    else if i % 2 = 1 then walk h f (innerNode h (path.headD []) node) path.tail (i / 2) ((n + 1) / 2)
    else if i + 1 < n then walk h f (innerNode h node (path.headD [])) path.tail (i / 2) ((n + 1) / 2)
    else walk h f node path (i / 2) ((n + 1) / 2)

/-- A string cut into pieces of `n` octets; `k` pieces. -/
def cut (n : Nat) : Nat → Bytes → List Bytes
  | 0, _ => []
  | k + 1, b => b.take n :: cut n k (b.drop n)

/-! ## SURVEY_BATCH -/

/-- TREE_HASH of a batch. -/
def Ctx.treeCode (c : Ctx) : Nat := if c.param = 0x001A0001 then 1 else 2

/-- The levels of a batch's tree. -/
def State.batchLevels (s : State) (c : Ctx) : List (List Bytes) :=
  let b := s.headOf c
  let n := uAt b 8 4
  let ds := cut (uAt b 0xC 1) n (s.messageOf c)
  treeLevels c.treeCode 17 ((List.range n).map fun i => leafNode c.treeCode (uAt b 0 8) i (ds.getD i []))

/-- The survey statement (R187). -/
def surveyStatement (treeHash dlen batch leaves unc launch : Nat) (root : Bytes) : Bytes :=
  le 4 1 ++ le 1 treeHash ++ le 1 dlen ++ le 2 0 ++ le 8 batch ++ le 4 leaves ++ le 4 (ceilDiv unc 1000) ++ le 8 launch ++
  root

/-- A bearing record (R189). -/
def bearingRecord (batch i len treeHash leaves : Nat) (path : List Bytes) : Bytes :=
  le 8 batch ++ le 2 i ++ le 1 len ++ le 1 treeHash ++ le 4 leaves ++ path.flatten

/-- The signature over a statement: ML-DSA-87 in pure mode, hedged, or composite (R187). -/
def State.surveySig (s : State) (c : Ctx) (t : Bytes) : Bytes :=
  let p := (s.polA c).param
  let key := s.secretIn c c.keyA
  let ctx := ascii "MAELARN-SURVEY"
  if p = 0x00180013 then compositeSig p key ctx t ((c.drawn (latticePart p)).take 32) (c.drawn (classicPart p))
  else mldsaSig p key (pureMsg ctx t) ((c.drawn p).take 32)

/-- The chain of a batch (R188): statement and signature, then one bearing record per leaf. -/
def State.surveyChain (s : State) (c : Ctx) : List Bytes :=
  let b := s.headOf c
  let batch := uAt b 0 8
  let n := uAt b 8 4
  let levels := s.batchLevels c
  let t := surveyStatement c.treeCode (uAt b 0xC 1) batch n c.startUnc c.launchV (rootOf levels)
  (t ++ s.surveySig c t) ::
    (List.range n).map fun i => bearingRecord batch i (pathLenOf i n) c.treeCode n (pathOf levels i)

def execSurveyBatch (ctx : Nat) (s : State) : Out :=
  .next (s.compute ctx 0x1A01 fun c s => { Result.bare St.ok with entries := s.surveyChain c })

/-! ## Bearing formation (R190) -/

/-- The boundary at which the join's check passed. -/
def Ctx.joined (c : Ctx) : Option Nat :=
  if c.opcode = 0x1A01 ∧ c.phase = .running then
    (c.parts.find? fun p => p.stage == 1 && decide (p.phase = .passed)).map Part.ends
  else none

/-- Boundaries that forming a batch takes: 100 ns per bearing. -/
def State.formTicks (s : State) (c : Ctx) : Nat := ceilDiv (uAt (s.headOf c) 8 4) 10

/-- Batch `j` forms before batch `i` on its region core: it is being formed or compared, or its join passed earlier. -/
def formsBefore (i b j : Nat) (c d : Ctx) : Bool :=
  j != i && d.region == c.region &&
  match d.joined, d.bearingEnd with
  | some _, some _ => !d.bearingOk
  | some a, none => decide (a < b) || (a == b && decide (j < i))
  | none, _ => false

/-- A region core forms one batch at a time, in the order in which the join checks passed. -/
def State.coreForms (s : State) (i b : Nat) (c : Ctx) : Bool := s.ctxs.any fun p => formsBefore i b p.1 c p.2

/-- Sets the end of a batch's formation. -/
def State.beginForming (s : State) (i from' : Nat) (c : Ctx) : State :=
  s.setCtx i fun d => { d with bearingEnd := some (from' + s.formTicks c), progress := s.now }

/-- The batch of a region whose join passed first among those not yet being formed. -/
def State.nextToForm (s : State) (r : Nat) : Option (Nat × Ctx) :=
  s.ctxs.foldl (fun a p =>
    if p.2.region != r || p.2.bearingEnd.isSome then a
    else match p.2.joined, a with
      | none, _ => a
      | some _, none => some p
      | some x, some q => (match q.2.joined with | some y => if x < y then some p else a | none => some p)) none

/-- The core turns to the next batch of its region when one ends at boundary `e`. -/
def State.formNext (s : State) (r e : Nat) : State :=
  match s.nextToForm r with
  | some (j, d) => s.beginForming j (max e (d.joined.getD e)) d
  | none => s

/-- A batch has been formed and its entries agree: the core turns to the next one at boundary `e`, and the batch is
decided where its signature has passed. -/
def State.endForming (s : State) (i : Nat) (c : Ctx) (e : Nat) : State :=
  ((s.setCtx i fun d => { d with bearingOk := true, progress := s.now }).formNext c.region e).settle i

/-- Entries that disagree are formed again and take their time again. -/
def State.formAgain (s : State) (i n : Nat) : State :=
  s.setCtx i fun d => { d with bearingTries := d.bearingTries + 1, bearingEnd := some (s.now + ceilDiv n 10), progress := s.now }

/-- BEARING_FORMATION_COMPLETE: a batch whose turn has come ends its formation 100 ns per bearing after the later of its
join's check and the core's previous batch. The halves of the core's pair disagree in `reformed` of its entries, and in the
ENTRY_CHECK alone of `checks` more.
A third mismatch ends it ST_UNIT_FAULT and is a fault of the region's core (R190, R191, R365). -/
def execBearingFormationComplete (ctx reformed checks : Nat) (s : State) : Out :=
  match s.ctxs.find ctx with
  | none => .next s
  | some c =>
    match c.joined with
    | none => .next s
    | some b =>
      let t := if c.bearingEnd.isSome || s.coreForms ctx b c then s else s.beginForming ctx b c
      match (t.ctxs.find ctx).bind Ctx.bearingEnd with
      | none => .next t
      | some e =>
        if c.bearingOk || decide (s.now < e) then .next t
        else if reformed + checks = 0 then .next (t.endForming ctx c e)
        else if c.bearingTries < 2 then .next (t.formAgain ctx (reformed + checks))
        else .next ((t.formNext c.region s.now).failWith ctx St.unitFault |>.regionFault c.region 2)

/-! ## Anchors and bearings -/

/-- A statement's fields are those R194 allows. -/
def statementOk (t : Bytes) : Bool :=
  uAt t 0 4 == 1 && (uAt t 4 1 == 1 || uAt t 4 1 == 2) && (uAt t 5 1 == 32 || uAt t 5 1 == 64) && zeroAt t 6 2 &&
  decide (1 ≤ uAt t 0x10 4) && decide (uAt t 0x10 4 ≤ 65536)

def execSurveyAnchor (ctx : Nat) (s : State) : Out :=
  .next (s.compute ctx 0x1A02 fun c s =>
    let p := s.setOf c
    let pk := s.anchorKey c
    let sig := c.payload.drop (80 + if c.keyA = 0 then (setRow p).pk else 0)
    let ctxs := ascii "MAELARN-SURVEY"
    let ok := if p = 0x00180013 then compositeOk p pk ctxs c.statement sig else mldsaOk p pk ctxs c.statement sig
    if statementOk c.statement && ok then Result.output (s.anchorId c) else Result.bare St.inputRejected)

/-- A bearing record verifies against an anchor (R196). -/
def bearingOk (a : Anchor) (b : Bytes) : Bool :=
  let rec' := b.drop (32 + a.digestLen)
  let i := uAt rec' 8 2
  let len := uAt rec' 0xA 1
  let node := leafNode a.treeHash a.batchId i (bytesAt b 32 a.digestLen)
  uAt rec' 0 8 == a.batchId && uAt rec' 0xC 4 == a.leafCount && uAt rec' 0xB 1 == a.treeHash &&
  decide (i < a.leafCount) && len == pathLenOf i a.leafCount && b.length == 32 + a.digestLen + 16 + 32 * len &&
  walk a.treeHash 17 node (cut 32 len (rec'.drop 16)) i a.leafCount == a.root

def execVerifyBearing (ctx : Nat) (s : State) : Out :=
  let t := match s.ctxs.find ctx with
    | some c => if c.opcode = 0x1A03 then s.touchAnchor c.slice (c.payload.take 32) else s
    | none => s
  .next (t.compute ctx 0x1A03 fun c s =>
    match s.anchorHeld c.slice (c.payload.take 32) with
    | some a => Result.verdict (bearingOk a c.payload)
    | none => Result.bare St.inputRejected)

/-- ANCHOR_DROP executes on the home region core (R195, R446). -/
def execAnchorDrop (ctx : Nat) (s : State) : Out :=
  .next (s.runCore ctx 0x1A04 fun c s =>
    if (s.anchor c.slice (c.payload.take 32)).isNone then s.refuse ctx St.keyUnknown
    else (s.dropAnchor c.slice (c.payload.take 32)).answer ctx [])

end Sys2Proof.Machine
end

