-- ==== Sys2Proof/Machine/SysRegs.lean ====
section
/-! DEFINITION. The system registers of the cores: which numbers are assigned, what a read answers and what a write does
(R292, R309, R321, R335). -/

namespace Sys2Proof.Machine

open Sys2Proof

/-- The numbers that every core has. -/
def baseNumbers : List Nat := [0, 1, 2, 3, 4, 5, 6, 7, 8, 9, 0xA, 0x10, 0x11, 0x12, 0x14, 0x15, 0x20]

/-- The numbers of the long-vector extension. -/
def vectorNumbers : List Nat := [0x100, 0x101, 0x102, 0x103]

/-- The numbers of the coprocessors. -/
def cpNumbers : List Nat :=
  [0x200, 0x201, 0x202, 0x203, 0x210, 0x220, 0x221, 0x222, 0x230, 0x231, 0x232, 0x233, 0x240, 0x250]

/-- The coprocessor of a number from 0x200 on. -/
def cpOfNumber (n : Nat) : Nat := (n - 0x200) / 16

/-- A number is assigned on a core; those of an absent coprocessor are assigned, and raise CP_ABSENT (log 69). -/
def assigned (c n : Nat) : Bool :=
  baseNumbers.contains n || (vectorNumbers.contains n && coreKind c == 2) || cpNumbers.contains n

/-- Numbers that task mode cannot read (R292). -/
def hiddenNumbers : List Nat := [1, 2, 4, 7, 8]

/-- Numbers that task mode can write (R292). -/
def taskWrites (n : Nat) : Bool := n == 0xA || n == 0x20 || decide (0x100 ≤ n ∧ n < 0x200)

/-- KP_SEL. -/
def State.kpSelWord (s : State) (c : Nat) : Nat :=
  match (s.core c).su.sel with
  | none => 0
  | some i => i + 4 + 2 ^ 32 * (match s.portShares c i with | some b => b.2.length | none => 0)

/-- CORE_ID. -/
def coreId (c : Nat) : Nat := coreKind c + 4 * coreRegion c + if coreKind c = 2 then 16 * ((c - 5) % 16) else 0

/-- What SYSRD answers. -/
def State.sysValue (s : State) (c n : Nat) : BitVec 64 :=
  let k := s.core c
  match n with
  | 0x000 => k.pstate
  | 0x001 => k.epstate
  | 0x002 => k.epc
  | 0x003 => k.ecause
  | 0x004 => k.einfo
  | 0x005 => k.vbase
  | 0x006 => k.recovVec
  | 0x007 => k.dfpc
  | 0x008 => k.dfcause.setWidth 64
  | 0x009 => k.guards
  | 0x00A => k.fl.setWidth 64
  | 0x010 => BitVec.ofNat 64 (coreId c)
  | 0x011 => BitVec.ofNat 64 k.cycle
  | 0x012 => BitVec.ofNat 64 (s.datum.v / 1000)
  | 0x015 => k.wdog.setWidth 64
  | 0x020 => k.qmod.setWidth 64
  | 0x100 => BitVec.ofNat 64 k.vl
  | 0x101 => BitVec.ofNat 64 (b2n k.vcfg)
  | 0x102 => BitVec.ofNat 64 (b2n k.ffHit + 2 * b2n k.sat + 4 * b2n k.qerr)
  | 0x103 => BitVec.ofNat 64 k.vfaultIdx
  | 0x210 => k.cpregs.getD 0x210 0 + BitVec.ofNat 64 (65536 * b2n k.su.keyed)
  | 0x221 => BitVec.ofNat 64 k.su.lastCount
  | 0x240 => BitVec.ofNat 64 (s.kpSelWord c)
  | 0x250 => BitVec.ofNat 64 k.su.rpCtr
  | n => k.cpregs.getD n 0

/-- EOI of a source: inactive, or pending if it was posted again; a source that is not active on the core is stray
(R383). -/
def State.eoi (s : State) (c src : Nat) : State :=
  let cl := src - 0x700
  if 0x700 ≤ src ∧ (s.route cl).active ∧ (s.route cl).activeOn = c then s.setRoute cl fun r => { r with active := false }
  else { s with events := { s.events with strayEoi := satAdd 32 s.events.strayEoi 1 } }

/-- The writable bits of a coprocessor register. -/
def cpWidth (n : Nat) : Nat :=
  match n with
  | 0x201 => 6
  | 0x210 => 16
  | 0x220 => 21
  | 0x230 => 17
  | 0x232 => 9
  | _ => 32

/-- The low `n` bits of a word. -/
def lowBits (v : BitVec 64) (n : Nat) : BitVec 64 := BitVec.ofNat 64 (v.toNat % 2 ^ n)

/-- What SYSWR does, its waits done; a write of a read-only number is ignored. -/
def State.sysSet (s : State) (c n : Nat) (v : BitVec 64) : State :=
  match n with
  | 0x000 => s.onCore c fun k => k.setPstate v
  | 0x001 => s.onCore c fun k => { k with epstate := v }
  | 0x002 => s.onCore c fun k => { k with epc := v }
  | 0x003 => s.onCore c fun k => { k with ecause := v &&& 0x07FF01FF }
  | 0x004 => s.onCore c fun k => { k with einfo := v }
  | 0x005 => s.onCore c fun k => { k with vbase := v - lowBits v 10 }
  | 0x006 => s.onCore c fun k => if k.recovLocked then k else { k with recovVec := v - lowBits v 2 }
  | 0x00A => s.onCore c fun k => { k with fl := v.setWidth 4 }
  | 0x014 => s.eoi c (v.toNat % 2048)
  | 0x015 => s.onCore c fun k => { k with wdog := v.setWidth 32, wdogFrom := s.now }
  | 0x020 => s.onCore c fun k => { k with qmod := v.setWidth 32, cycle := k.cycle + if coreKind c = 2 then 40 else 0 }
  | 0x100 => s.onCore c fun k => { k with vl := min (v.toNat % 512) 256 }
  | 0x101 => s.onCore c fun k => { k with vcfg := v.getLsbD 0 }
  | 0x102 => s.onCore c fun k => { k with ffHit := v.getLsbD 0, sat := v.getLsbD 1, qerr := v.getLsbD 2 }
  | 0x250 => s.onCore c fun k => { k with su := { k.su with rpCtr := v.toNat % 2 ^ 32 } }
  | n =>
    if cpNumbers.contains n ∧ n ≠ 0x221 ∧ n ≠ 0x240 then
      s.onCore c fun k => { k with cpregs := k.cpregs.putD n (lowBits v (cpWidth n)) 0 }
    else s

/-- The waits of a SYSWR: those of R311 for each; for the long-vector numbers, and for QMOD on a sheet, those of the beats
too (R321); RP_CTR also waits for the commands that use it. -/
def State.sysWaits (s : State) (c n : Nat) : State :=
  let s := if (vectorNumbers.contains n || n == 0x20) && coreKind c == 2 then s.quiesceAll c else s.quiesce c
  if n = 0x250 then State.cpWait c 5 (fun k => !(k.cp 5).queue.isEmpty) cpFuel s else s

/-- The coprocessor that a number needs and the core lacks. -/
def absentCp (c n : Nat) : Bool := cpNumbers.contains n && !hasCp c (cpOfNumber n)

end Sys2Proof.Machine
end

