-- ==== Sys2Proof/Machine/System.lean ====
section
/-! DEFINITION. System instructions and the events of the cores: system registers, ERET, WFI, plain mode, TRAP,
interrupts, the core watchdog and uncorrectable errors (R292, R297 to R299, R309 to R315, R357, R358, R381 to R383). -/

namespace Sys2Proof.Machine

open Sys2Proof

/-- A MISC word. -/
def miscWord (g : BitVec 4) (func : Nat) : BitVec 32 := insnWord g 0x1E (fmtR 0 0 0 func)

/-! ## System registers -/

/-- SYSRD does not wait. -/
def execSysrd (c : Nat) (g : BitVec 4) (rd : BitVec 5) (num : BitVec 12) (s : State) : Out :=
  let n := num.toNat
  s.insn c g (insnWord g 0x1C (fmtY rd num)) (!assigned c n) (hiddenNumbers.contains n) fun s =>
    if absentCp c n then s.except c 6 (BitVec.ofNat 64 (cpOfNumber n))
    else
      let s := s.sync c [] [rd]
      (s.onCore c fun k => k.setX rd (s.sysValue c n)).advance c

/-- SYSWR is serialising. -/
def execSyswr (c : Nat) (g : BitVec 4) (rs : BitVec 5) (num : BitVec 12) (s : State) : Out :=
  let n := num.toNat
  s.insn c g (insnWord g 0x1D (fmtY rs num)) (!assigned c n) (!taskWrites n) fun s =>
    if absentCp c n then s.except c 6 (BitVec.ofNat 64 (cpOfNumber n))
    else
      let s := (s.sync c [rs] []).sysWaits c n
      (s.sysSet c n ((s.core c).gx rs)).advance c

/-- A write of EOI as the controller meets it. A core that is held or halted writes nothing. -/
def execEoi (c : Nat) (src : BitVec 11) (s : State) : Out :=
  if 69 ≤ c then .fault .noSuchCore
  else if (s.core c).held || (s.core c).halted then .next s
  else .next (s.eoi c src.toNat)

/-! ## MISC -/

/-- FENCE: one core in order, whose stores are visible at once, has nothing to wait for. -/
def execFence (c : Nat) (g : BitVec 4) (s : State) : Out :=
  s.insn c g (miscWord g 0x00) false false fun s => s.advance c

/-- ERET: PSTATE from EPSTATE, except PLAIN and RECOV; PC from EPC, a multiple of 4. -/
def execEret (c : Nat) (g : BitVec 4) (s : State) : Out :=
  s.insn c g (miscWord g 0x01) false true fun s =>
    (s.quiesce c).onCore c fun k =>
      let k := k.setPstate k.epstate
      { k with pc := k.epc - lowBits k.epc 2, cycle := k.cycle + 1 }

/-- WFI: the multiplier writes land, and the core waits, unless interrupts are off and an event stands already. -/
def execWfi (c : Nat) (g : BitVec 4) (s : State) : Out :=
  s.insn c g (miscWord g 0x02) false true fun s =>
    let s := (s.onCore c fun k =>
      let i := k.mulq.foldl (fun a m => max a m.land) k.cycle
      (k.stallTo i).settleTo i).advance c
    (s.onCore c fun k => { k with waiting := true }).wake c

/-- PLAINX: ILLEGAL unless g1 to g7 are written; it clears RECOV and locks RECOV_VECTOR. -/
def execPlainx (c : Nat) (g : BitVec 4) (s : State) : Out :=
  if 69 ≤ c then .fault .noSuchCore
  else
    let k := (((s.settleCore c).waitGuards c [1, 2, 3, 4, 5, 6, 7]).core c)
    s.insn c g (miscWord g 0x03) (decide (k.init.toNat / 2 ≠ 127)) true fun s =>
      ((s.waitGuards c [1, 2, 3, 4, 5, 6, 7]).onCore c fun k => { k with plain := false, recov := false, recovLocked := true }).advance c

/-- PLAINE: plain mode, with every guard unwritten. -/
def execPlaine (c : Nat) (g : BitVec 4) (s : State) : Out :=
  s.insn c g (miscWord g 0x04) false true fun s => (s.onCore c fun k => { k with plain := true, init := 0 }).advance c

/-- TRAP: its exception, EPC at the next instruction. -/
def execTrap (c : Nat) (g : BitVec 4) (code : BitVec 10) (s : State) : Out :=
  s.insn c g (insnWord g 0x1E (0#5 ++ code ++ 5#7)) false false fun s => s.except c 8 (code.setWidth 64) true

/-! ## Interrupts (R313, R381) -/

/-- The core accepts the presented source: the waits, the saved state, the controller's commitment and the handler. -/
def State.acceptInterrupt (s : State) (c prio cl : Nat) : State :=
  let s := s.quiesceAll c
  let s := if (s.core c).waiting then s.endWait c else s
  let target := (s.route cl).handler
  let s := s.setRoute cl fun r => { r with pending := false, active := true, activeOn := c }
  s.onCore c fun k =>
    { k with epstate := k.pstate, epc := k.pc, ecause := BitVec.ofNat 64 (256 + 65536 * (0x700 + cl)), priv := true, ie := false
             exl := true, curPrio := BitVec.ofNat 5 prio, pc := target, waiting := false, cycle := k.cycle + 1 }

/-- At an instruction boundary: IE 1, EXL 0, RECOV 0 and a source above CURPRIO. -/
def execInterruptAccept (c : Nat) (s : State) : Out :=
  if 69 ≤ c then .fault .noSuchCore
  else
    let k := s.core c
    match s.presented c with
    | none => .next s
    | some (p, cl) =>
      if !k.held && !k.halted && k.ie && !k.exl && !k.recov && decide (p < k.curPrio.toNat) then .next (s.acceptInterrupt c p cl)
      else .next s

/-! ## The core watchdog (R357, R358, R365, R369) -/

/-- A core's WDOG runs out: LOCKSTEP for the chief, a region fault, or a transient of the sheet; its period starts
anew. -/
def execCoreWdogExpire (c : Nat) (s : State) : Out :=
  if 69 ≤ c then .fault .noSuchCore
  else
    let k := s.core c
    if k.held || k.wdog == 0 || decide (s.now < k.wdogFrom + k.wdog.toNat) then .next s
    else
      let s := s.onCore c fun k => { k with wdogFrom := s.now }
      match coreKind c with
      | 0 => .next (s.alarm 3 0x42)
      | 1 => .next (s.regionFault (coreRegion c) 4)
      | _ => .next (if s.working (coreUnit c)
                    then (s.abortUnit (coreUnit c) (Part.worksOn (coreUnit c))).charge (coreUnit c) 4 else s)

/-! ## Uncorrectable errors (R310, R332, R348, R358) -/

/-- A core issues instructions. -/
def State.issuing (s : State) (c : Nat) : Bool := !(s.core c).held && !(s.core c).halted && !(s.core c).waiting

/-- An uncorrectable error, by where it stands: a transient of the unit and the loss of its operation, a store reload, a
lane's mirror mismatch, GECC on a guard read in normal service, BUS on a scalar access, FETCH on a fetch, the alarm of
a key-cache word, a share on the key path or the completion writer, or a word of the event log that is lost. -/
def execUncorrectableEccError (u : Nat) (site : EccSite) (s : State) : Out :=
  match site with
  | .guardFile c =>
    if 69 ≤ c then .fault .noSuchCore else if s.issuing c then .next (s.guardError c) else .next s
  | .coreData c a =>
    if 69 ≤ c then .fault .noSuchCore else if s.issuing c then .next (s.except c 4 a) else .next s
  | .coreFetch c =>
    if 69 ≤ c then .fault .noSuchCore else if s.issuing c then .next (s.except c 5 (s.core c).pc) else .next s
  | .keyCache => if s.pastStage Stage.hbm then .next (s.alarm 4 0x50) else .next s
  | .keyPath => if s.pastStage Stage.hbm then .next (s.alarm 4 0x53) else .next s
  | .writer => if s.ready then .next (s.alarm 5 0x63) else .next s
  | .logWord area w => .next { s with log := s.log.spoilWord area w }
  | site =>
    if 104 ≤ u then .fault .noSuchUnit
    else if !s.serving then .next s
    else match site with
      | .sheetSram => .next (if unitKind u = 0 then s.eccFault u else s)
      | .engineOps => .next (if unitKind u = 1 then s.eccFault u else s)
      | .laneState lane => .next (if 2 ≤ unitKind u then s.laneFault u lane else s)
      | .store kind => .next (s.storeFault u kind)
      | .storeBit => .next (s.storeBit u)
      | _ => .next (s.eccFault u)

end Sys2Proof.Machine
end

