-- ==== Sys2Proof/Machine/VecOps.lean ====
section
/-! DEFINITION. The issue, the beats and the interlocks of the long-vector instructions (R319, R320, R322, R325 to R327,
R332, R334). -/

namespace Sys2Proof.Machine

open Sys2Proof

/-- The number of a pipe in the occupancy table. -/
def Pipe.no (p : Pipe) : Nat :=
  match p with
  | .valu => 0
  | .vmul => 1
  | .vlsu => 2
  | .vperm => 3

/-- B: the beats of a captured VL. -/
def beatsOf (vl : Nat) : Nat := max 1 (ceilDiv vl 32)

/-- A consumer in pipe `p` chains on a beat of this producer. -/
def chains (p : Pipe) (b : Beat) : Bool :=
  (b.unitLoad && (p == .vmul || p == .valu)) || (b.pipe == .vmul && p == .valu)

/-- The cycle before which the core's next vector instruction cannot start for one beat in flight: `srcs` are the
registers it reads, chained where they may be, `late` those never chained. -/
def startAfter (p : Pipe) (beats : Nat) (srcs late : List Nat) (b : Beat) : Nat :=
  if late.contains b.reg then b.leave + 1
  else if srcs.contains b.reg then
    if chains p b then (if b.idx < beats then b.leave + 1 - b.idx else 0) else b.leave + 1
  else 0

/-- The cycle before which it cannot start for the order of writes: beat `k` leaves at start + `lat k`. -/
def writeAfter (beats : Nat) (dst : Option Nat) (lat : Nat → Nat) (b : Beat) : Nat :=
  if dst = some b.reg ∧ b.idx < beats then b.leave + 1 - lat b.idx else 0

/-- What the issue of a vector instruction is made of. -/
structure VecShape where
  pipe : Pipe
  srcs : List Nat            -- vector registers read beat by beat
  late : List Nat            -- registers and guards (32 + n) read only when complete
  dst : Option Nat           -- the register or guard written
  lat : Nat → Nat            -- beat k leaves at the end of start + lat k
  occupy : Nat → Nat         -- cycles for which B beats hold the pipe
  unitLoad : Bool

/-- The cycle at which beat 0 starts. -/
def Core.vecStart (k : Core) (h : VecShape) : Nat :=
  let n := beatsOf k.vl
  let at0 := max k.cycle (k.pipeNext.getD h.pipe.no 0)
  k.beats.foldl (fun a b => max a (max (startAfter h.pipe n h.srcs h.late b) (writeAfter n h.dst h.lat b))) at0

/-- Every beat in flight has written: what the interlocks let an instruction see. -/
def Core.ahead (k : Core) : Core := { k.beats.foldl Core.leave k with beats := [] }

/-- Issue stalls until beat 0 starts. -/
def Core.vecWait (k : Core) (h : VecShape) : Core :=
  let s := k.vecStart h
  (k.stallTo s).settleTo s

/-- Beat 0 starts at the core's cycle, its waits done; `e` are the element writes, and the next instruction may issue in
the following cycle. -/
def Core.vecIssue (k : Core) (h : VecShape) (e : List (Nat × BitVec 32)) : Core :=
  let n := beatsOf k.vl
  let s := k.cycle
  let add := match h.dst with
    | none => []
    | some r => (List.range n).map fun i =>
      ({ leave := s + h.lat i, pipe := h.pipe, unitLoad := h.unitLoad, idx := i, reg := r
         elems := e.filter fun p => p.1 / 32 == i, issue := k.issues } : Beat)
  { k with beats := k.beats ++ add, issues := k.issues + 1, pipeNext := k.pipeNext.put h.pipe.no (s + h.occupy n) }

/-- The active elements: below VL, with their mask bit 1 (R320). -/
def Core.active (k : Core) (vm : BitVec 3) : List Nat :=
  let m := k.mask vm
  (List.range k.vl).filter fun e => m.getLsbD e

/-- The guard of a mask as an operand: g0 needs no wait. -/
def maskReg (vm : BitVec 3) : List Nat := if vm = 0 then [] else [32 + vm.toNat]

/-- A vector instruction on a sheet: any other core finds it ILLEGAL. `xr` and `xw` are the x registers it reads and
writes, `vr` the v registers it reads or writes. -/
def State.vecRow (s : State) (c : Nat) (g : BitVec 4) (w : BitVec 32) (illegal : Bool) (xr xw : List (BitVec 5))
    (vr : List Nat) (body : State → State) : Out :=
  s.insn c g w (coreKind c != 2 || illegal) false fun s =>
    body (State.cpWait c 5 (Core.awaitsV vr) cpFuel (s.sync c xr xw))

/-- The second operand of an arithmetic instruction: a v register, or the low word of an x register for every element. -/
def Core.vecB (k : Core) (x : Bool) (vs2 : BitVec 5) (e : Nat) : BitVec 32 :=
  if x then (k.gx vs2).setWidth 32 else k.elem vs2 e

/-- The v registers among the second operand. -/
def bReg (x : Bool) (vs2 : BitVec 5) : List Nat := if x then [] else [vs2.toNat]

/-- The x registers among it. -/
def bX (x : Bool) (vs2 : BitVec 5) : List (BitVec 5) := if x then [vs2] else []

end Sys2Proof.Machine
end

