-- ==== Sys2Proof/Machine/Vector.lean ====
section
/-! DEFINITION. The long-vector arithmetic, permutation and compare instructions, VSETVL and the beats that leave their
pipes (R320, R324, R325, R328 to R330). -/

namespace Sys2Proof.Machine

open Sys2Proof

/-! ## Arithmetic on words -/

/-- A word as a number, and back. -/
def wn (a : BitVec 32) : Nat := a.toNat
def nw (n : Nat) : BitVec 32 := BitVec.ofNat 32 n

/-- The modular result for a modulus; an unusable one gives 0 (R328). -/
def modWord (q : Nat) (v : Int) : BitVec 32 := nw (residue q v)

/-- 2^−32 modulo an odd q. -/
def montInv (q : Nat) : Nat := ((q + 1) / 2) ^ 32 % q

/-- VMULM: a product modulo q, times 2^−32 in Montgomery form. -/
def mulmNat (mont : Bool) (q : Nat) (a b : BitVec 32) : Nat :=
  if q < 2 then 0 else wn a * wn b * (if mont then montInv q else 1) % q

/-- QMOD cannot be used for a modular operation. -/
def Core.badQ (k : Core) (product : Bool) : Bool := decide (k.qmod.toNat < 2) || (product && k.vcfg && k.qmod.toNat % 2 == 0)

/-- VSRR: a shift right with rounding, of an unsigned or a signed word. -/
def srr (signed : Bool) (n : Nat) (a : BitVec 32) : BitVec 32 :=
  if n = 0 then a
  else BitVec.ofInt 32 (((if signed then a.toInt else (wn a : Int)) + 2 ^ (n - 1)) / 2 ^ n)

/-- A signed word clamped to a range. -/
def clamp (lo hi : Int) (a : BitVec 32) : BitVec 32 := BitVec.ofInt 32 (max lo (min hi a.toInt))

/-- VMULHR.S before the one overflow is clipped. -/
def mulhrS (a b : BitVec 32) : Int := (a.toInt * b.toInt + 2 ^ 30) / 2 ^ 31

/-- VCOMP. -/
def compress (q d : Nat) (a : BitVec 32) : Nat :=
  if q < 2 then 0 else (2 ^ (d + 1) * (wn a % q) + q) / (2 * q) % 2 ^ d

/-- VDECOMP. -/
def decompress (q d : Nat) (a : BitVec 32) : Nat :=
  if q < 2 then 0 else (2 * q * (wn a % 2 ^ d) + 2 ^ d) / 2 ^ (d + 1)

/-! ## Shapes of rows -/

/-- A beat leaves after the depth of its pipe. -/
def plainShape (p : Pipe) (depth : Nat) (srcs late : List Nat) (dst : Option Nat) : VecShape :=
  { pipe := p, srcs := srcs, late := late, dst := dst, lat := fun i => i + depth - 1, occupy := id, unitLoad := false }

/-- The status bits that an instruction with active elements sets. -/
def Core.setQerr (k : Core) (b : Bool) : Core := if b then { k with qerr := true } else k
def Core.setSat (k : Core) (b : Bool) : Core := if b then { k with sat := true } else k

/-- An elementwise instruction: `f` gives element e of vd, `bits` the status bits. -/
def State.elemRow (s : State) (c : Nat) (g : BitVec 4) (w : BitVec 32) (illegal : Bool) (xr : List (BitVec 5)) (p : Pipe)
    (depth : Nat) (srcs : List Nat) (vd : BitVec 5) (vm : BitVec 3) (f : Core → Nat → BitVec 32)
    (bits : Core → List Nat → Core → Core) : Out :=
  s.vecRow c g w illegal xr [] (vd.toNat :: srcs) fun s =>
    (s.onCore c fun k =>
      let h := plainShape p depth srcs (maskReg vm) (some vd.toNat)
      let k := k.vecWait h
      let a := k.ahead
      let l := a.active vm
      bits a l (k.vecIssue h (l.map fun e => (e, f a e)))).advance c

/-- No status bit. -/
def noBits (_ : Core) (_ : List Nat) (k : Core) : Core := k

/-- QERR, where an element is active and QMOD cannot be used. -/
def qBits (product : Bool) (a : Core) (l : List Nat) (k : Core) : Core := k.setQerr (!l.isEmpty && a.badQ product)

/-- A two-operand row of majors `major` and `major` + 1. -/
def State.pairRow (s : State) (c : Nat) (g : BitVec 4) (major func : Nat) (p : Pipe) (depth : Nat) (x : Bool)
    (vd vs1 vs2 : BitVec 5) (vm : BitVec 3) (op : BitVec 32 → BitVec 32 → BitVec 32) : Out :=
  s.elemRow c g (insnWord g (major + b2n x) (fmtV vd vs1 vs2 vm func)) false (bX x vs2) p depth (vs1.toNat :: bReg x vs2)
    vd vm (fun k e => op (k.elem vs1 e) (k.vecB x vs2 e)) noBits

/-- A modular two-operand row. -/
def State.modRow (s : State) (c : Nat) (g : BitVec 4) (major func : Nat) (p : Pipe) (depth : Nat) (product : Bool)
    (x : Bool) (vd vs1 vs2 : BitVec 5) (more : List Nat) (vm : BitVec 3)
    (op : Core → Nat → Nat → BitVec 32 → BitVec 32 → Nat) : Out :=
  s.elemRow c g (insnWord g (major + b2n x) (fmtV vd vs1 vs2 vm func)) false (bX x vs2) p depth
    (vs1.toNat :: (bReg x vs2 ++ more)) vd vm
    (fun k e => if k.badQ product then 0 else nw (op k e k.qmod.toNat (k.elem vs1 e) (k.vecB x vs2 e))) (qBits product)

/-! ## VALU (majors 0x20, 0x21) -/

def execVadd (c : Nat) (g : BitVec 4) (x : Bool) (vd vs1 vs2 : BitVec 5) (vm : BitVec 3) (s : State) : Out :=
  s.pairRow c g 0x20 0 .valu 1 x vd vs1 vs2 vm fun a b => a + b
def execVsub (c : Nat) (g : BitVec 4) (x : Bool) (vd vs1 vs2 : BitVec 5) (vm : BitVec 3) (s : State) : Out :=
  s.pairRow c g 0x20 1 .valu 1 x vd vs1 vs2 vm fun a b => a - b
def execVand (c : Nat) (g : BitVec 4) (x : Bool) (vd vs1 vs2 : BitVec 5) (vm : BitVec 3) (s : State) : Out :=
  s.pairRow c g 0x20 2 .valu 1 x vd vs1 vs2 vm fun a b => a &&& b
def execVor (c : Nat) (g : BitVec 4) (x : Bool) (vd vs1 vs2 : BitVec 5) (vm : BitVec 3) (s : State) : Out :=
  s.pairRow c g 0x20 3 .valu 1 x vd vs1 vs2 vm fun a b => a ||| b
def execVxor (c : Nat) (g : BitVec 4) (x : Bool) (vd vs1 vs2 : BitVec 5) (vm : BitVec 3) (s : State) : Out :=
  s.pairRow c g 0x20 4 .valu 1 x vd vs1 vs2 vm fun a b => a ^^^ b
def execVandn (c : Nat) (g : BitVec 4) (x : Bool) (vd vs1 vs2 : BitVec 5) (vm : BitVec 3) (s : State) : Out :=
  s.pairRow c g 0x20 5 .valu 1 x vd vs1 vs2 vm fun a b => a &&& ~~~b
def execVsll (c : Nat) (g : BitVec 4) (x : Bool) (vd vs1 vs2 : BitVec 5) (vm : BitVec 3) (s : State) : Out :=
  s.pairRow c g 0x20 6 .valu 1 x vd vs1 vs2 vm fun a b => a <<< (wn b % 32)
def execVsrl (c : Nat) (g : BitVec 4) (x : Bool) (vd vs1 vs2 : BitVec 5) (vm : BitVec 3) (s : State) : Out :=
  s.pairRow c g 0x20 7 .valu 1 x vd vs1 vs2 vm fun a b => a >>> (wn b % 32)
def execVsra (c : Nat) (g : BitVec 4) (x : Bool) (vd vs1 vs2 : BitVec 5) (vm : BitVec 3) (s : State) : Out :=
  s.pairRow c g 0x20 8 .valu 1 x vd vs1 vs2 vm fun a b => a.sshiftRight (wn b % 32)
def execVmin (c : Nat) (g : BitVec 4) (x : Bool) (vd vs1 vs2 : BitVec 5) (vm : BitVec 3) (s : State) : Out :=
  s.pairRow c g 0x20 9 .valu 1 x vd vs1 vs2 vm fun a b => if a.slt b then a else b
def execVmax (c : Nat) (g : BitVec 4) (x : Bool) (vd vs1 vs2 : BitVec 5) (vm : BitVec 3) (s : State) : Out :=
  s.pairRow c g 0x20 10 .valu 1 x vd vs1 vs2 vm fun a b => if a.slt b then b else a
def execVminu (c : Nat) (g : BitVec 4) (x : Bool) (vd vs1 vs2 : BitVec 5) (vm : BitVec 3) (s : State) : Out :=
  s.pairRow c g 0x20 11 .valu 1 x vd vs1 vs2 vm fun a b => if a.ult b then a else b
def execVmaxu (c : Nat) (g : BitVec 4) (x : Bool) (vd vs1 vs2 : BitVec 5) (vm : BitVec 3) (s : State) : Out :=
  s.pairRow c g 0x20 12 .valu 1 x vd vs1 vs2 vm fun a b => if a.ult b then b else a

def execVaddm (c : Nat) (g : BitVec 4) (x : Bool) (vd vs1 vs2 : BitVec 5) (vm : BitVec 3) (s : State) : Out :=
  s.modRow c g 0x20 13 .valu 1 false x vd vs1 vs2 [] vm fun _ _ q a b => residue q (wn a + wn b : Int)
def execVsubm (c : Nat) (g : BitVec 4) (x : Bool) (vd vs1 vs2 : BitVec 5) (vm : BitVec 3) (s : State) : Out :=
  s.modRow c g 0x20 14 .valu 1 false x vd vs1 vs2 [] vm fun _ _ q a b => residue q (wn a - wn b : Int)

/-! ## Major 0x22 -/

/-- VNEGM. -/
def execVnegm (c : Nat) (g : BitVec 4) (vd vs1 : BitVec 5) (vm : BitVec 3) (s : State) : Out :=
  s.elemRow c g (insnWord g 0x22 (fmtV vd vs1 0 vm 4)) false [] .valu 1 [vs1.toNat] vd vm
    (fun k e => modWord k.qmod.toNat (-(wn (k.elem vs1 e)) : Int)) (qBits false)

/-- A row of major 0x22 with an immediate. -/
def State.fixRow (s : State) (c : Nat) (g : BitVec 4) (func : Nat) (illegal : Bool) (vd vs1 n : BitVec 5) (vm : BitVec 3)
    (op : BitVec 32 → BitVec 32) (sat : Bool) : Out :=
  s.elemRow c g (insnWord g 0x22 (fmtV vd vs1 n vm func)) illegal [] .valu 1 [vs1.toNat] vd vm
    (fun k e => op (k.elem vs1 e))
    (fun a l k => k.setSat (sat && l.any fun e => op (a.elem vs1 e) != a.elem vs1 e))

def execVsrrU (c : Nat) (g : BitVec 4) (vd vs1 n : BitVec 5) (vm : BitVec 3) (s : State) : Out :=
  s.fixRow c g 0 false vd vs1 n vm (srr false n.toNat) false
def execVsrrS (c : Nat) (g : BitVec 4) (vd vs1 n : BitVec 5) (vm : BitVec 3) (s : State) : Out :=
  s.fixRow c g 1 false vd vs1 n vm (srr true n.toNat) false
/-- VSAT.U: n is imm5 + 1. -/
def execVsatU (c : Nat) (g : BitVec 4) (vd vs1 n : BitVec 5) (vm : BitVec 3) (s : State) : Out :=
  s.fixRow c g 2 false vd vs1 n vm (clamp 0 (2 ^ (n.toNat + 1) - 1)) true
/-- VSAT.S: n is imm5 + 1, and n = 1 is ILLEGAL. -/
def execVsatS (c : Nat) (g : BitVec 4) (vd vs1 n : BitVec 5) (vm : BitVec 3) (s : State) : Out :=
  s.fixRow c g 3 (n == 0) vd vs1 n vm (clamp (-(2 ^ n.toNat)) (2 ^ n.toNat - 1)) true

/-! ## VMUL (majors 0x23, 0x24) -/

def execVmul (c : Nat) (g : BitVec 4) (x : Bool) (vd vs1 vs2 : BitVec 5) (vm : BitVec 3) (s : State) : Out :=
  s.pairRow c g 0x23 0 .vmul 3 x vd vs1 vs2 vm fun a b => a * b
def execVmulhu (c : Nat) (g : BitVec 4) (x : Bool) (vd vs1 vs2 : BitVec 5) (vm : BitVec 3) (s : State) : Out :=
  s.pairRow c g 0x23 1 .vmul 3 x vd vs1 vs2 vm fun a b => nw (wn a * wn b / 2 ^ 32)
def execVmulhrU (c : Nat) (g : BitVec 4) (x : Bool) (vd vs1 vs2 : BitVec 5) (vm : BitVec 3) (s : State) : Out :=
  s.pairRow c g 0x23 2 .vmul 3 x vd vs1 vs2 vm fun a b => nw ((wn a * wn b + 2 ^ 31) / 2 ^ 32)

/-- VMULHR.S: the one overflow is clipped and sets SAT. -/
def execVmulhrS (c : Nat) (g : BitVec 4) (x : Bool) (vd vs1 vs2 : BitVec 5) (vm : BitVec 3) (s : State) : Out :=
  s.elemRow c g (insnWord g (0x23 + b2n x) (fmtV vd vs1 vs2 vm 3)) false (bX x vs2) .vmul 3 (vs1.toNat :: bReg x vs2) vd vm
    (fun k e => BitVec.ofInt 32 (min (2 ^ 31 - 1) (mulhrS (k.elem vs1 e) (k.vecB x vs2 e))))
    (fun a l k => k.setSat (l.any fun e => decide (2 ^ 31 ≤ mulhrS (a.elem vs1 e) (a.vecB x vs2 e))))

def execVmulm (c : Nat) (g : BitVec 4) (x : Bool) (vd vs1 vs2 : BitVec 5) (vm : BitVec 3) (s : State) : Out :=
  s.modRow c g 0x23 4 .vmul 4 true x vd vs1 vs2 [] vm fun k _ q a b => mulmNat k.vcfg q a b

/-- VMACM also reads vd. -/
def execVmacm (c : Nat) (g : BitVec 4) (x : Bool) (vd vs1 vs2 : BitVec 5) (vm : BitVec 3) (s : State) : Out :=
  s.modRow c g 0x23 5 .vmul 4 true x vd vs1 vs2 [vd.toNat] vm fun k e q a b => (wn (k.elem vd e) + mulmNat k.vcfg q a b) % q

/-! ## VPERM (major 0x25) -/

/-- A permutation: its source is never chained; `f` gives the element, or leaves it. -/
def State.permRow (s : State) (c : Nat) (g : BitVec 4) (w : BitVec 32) (illegal : Bool) (xr : List (BitVec 5))
    (srcs : List Nat) (vd : BitVec 5) (vm : BitVec 3) (f : Core → Nat → Option (BitVec 32))
    (bits : Core → List Nat → Core → Core) : Out :=
  s.vecRow c g w illegal xr [] (vd.toNat :: srcs) fun s =>
    (s.onCore c fun k =>
      let h := plainShape .vperm 2 [] (srcs ++ maskReg vm) (some vd.toNat)
      let k := k.vecWait h
      let a := k.ahead
      let l := a.active vm
      bits a l (k.vecIssue h (l.filterMap fun e => (f a e).map fun w => (e, w)))).advance c

def execVmv (c : Nat) (g : BitVec 4) (vd vs1 : BitVec 5) (vm : BitVec 3) (s : State) : Out :=
  s.permRow c g (insnWord g 0x25 (fmtV vd vs1 0 vm 0)) false [] [vs1.toNat] vd vm (fun k e => some (k.elem vs1 e)) noBits

def execVsplat (c : Nat) (g : BitVec 4) (vd xs : BitVec 5) (vm : BitVec 3) (s : State) : Out :=
  s.permRow c g (insnWord g 0x25 (fmtV vd 0 xs vm 1)) false [xs] [] vd vm (fun k _ => some ((k.gx xs).setWidth 32)) noBits

def execVslideup (c : Nat) (g : BitVec 4) (vd vs1 xs : BitVec 5) (vm : BitVec 3) (s : State) : Out :=
  s.permRow c g (insnWord g 0x25 (fmtV vd vs1 xs vm 3)) false [xs] [vs1.toNat] vd vm
    (fun k e => let d := (k.gx xs).toNat; if d ≤ e then some (k.elem vs1 (e - d)) else none) noBits

def execVslidedn (c : Nat) (g : BitVec 4) (vd vs1 xs : BitVec 5) (vm : BitVec 3) (s : State) : Out :=
  s.permRow c g (insnWord g 0x25 (fmtV vd vs1 xs vm 4)) false [xs] [vs1.toNat] vd vm
    (fun k e => let j := e + (k.gx xs).toNat; some (if 256 ≤ j then 0 else k.elem vs1 j)) noBits

/-- The low `b` bits of a number in reverse order. -/
def bitRev (b e : Nat) : Nat := (List.range b).foldl (fun a i => 2 * a + (if bitOf e i then 1 else 0)) 0

/-- VBREV: b from 1 to 8. -/
def execVbrev (c : Nat) (g : BitVec 4) (vd vs1 n : BitVec 5) (vm : BitVec 3) (s : State) : Out :=
  let b := n.toNat
  s.permRow c g (insnWord g 0x25 (fmtV vd vs1 n vm 5)) (decide (b < 1 ∨ 8 < b)) [] [vs1.toNat] vd vm
    (fun k e => if e < 2 ^ b then some (k.elem vs1 (bitRev b e)) else none) noBits

/-- VCOMP and VDECOMP: d from 1 to 12. -/
def State.compRow (s : State) (c : Nat) (g : BitVec 4) (func : Nat) (vd vs1 n : BitVec 5) (vm : BitVec 3)
    (op : Nat → Nat → BitVec 32 → Nat) : Out :=
  let d := n.toNat
  s.permRow c g (insnWord g 0x25 (fmtV vd vs1 n vm func)) (decide (d < 1 ∨ 12 < d)) [] [vs1.toNat] vd vm
    (fun k e => some (nw (op k.qmod.toNat d (k.elem vs1 e)))) (qBits false)

def execVcomp (c : Nat) (g : BitVec 4) (vd vs1 n : BitVec 5) (vm : BitVec 3) (s : State) : Out :=
  s.compRow c g 6 vd vs1 n vm compress
def execVdecomp (c : Nat) (g : BitVec 4) (vd vs1 n : BitVec 5) (vm : BitVec 3) (s : State) : Out :=
  s.compRow c g 7 vd vs1 n vm decompress

/-- VEXT: an element to an x register, interlocked; with VL 0 nothing is written (log 70). -/
def execVext (c : Nat) (g : BitVec 4) (xd vs1 xs : BitVec 5) (s : State) : Out :=
  s.vecRow c g (insnWord g 0x25 (fmtV xd vs1 xs 0 2)) false [xs] [xd] [vs1.toNat] fun s =>
    (s.onCore c fun k =>
      let h := plainShape .vperm 2 [] [vs1.toNat] none
      let k := k.vecWait h
      let v := k.ahead.elem vs1 ((k.gx xs).toNat % 256)
      let k := k.vecIssue h []
      if k.vl = 0 then k else { k.setX xd (v.setWidth 64) with loadRd := xd.toNat, loadAt := k.cycle + 2 }).advance c

/-! ## Compares (majors 0x26, 0x27) -/

/-- VCMP: bit e of gd for each active element; a write of g0 is discarded. -/
def State.cmpRow (s : State) (c : Nat) (g : BitVec 4) (func : Nat) (x : Bool) (gd : BitVec 3) (vs1 vs2 : BitVec 5)
    (vm : BitVec 3) (op : BitVec 32 → BitVec 32 → Bool) : Out :=
  s.vecRow c g (insnWord g (0x26 + b2n x) (fmtVC gd vs1 vs2 vm func)) false (bX x vs2) [] (vs1.toNat :: bReg x vs2) fun s =>
    (s.onCore c fun k =>
      let h := plainShape .valu 1 (vs1.toNat :: bReg x vs2) (maskReg vm) (if gd = 0 then none else some (32 + gd.toNat))
      let k := k.vecWait h
      let a := k.ahead
      k.vecIssue h ((a.active vm).map fun e => (e, if op (a.elem vs1 e) (a.vecB x vs2 e) then 1#32 else 0#32))).advance c

def execVcmpeq (c : Nat) (g : BitVec 4) (x : Bool) (gd : BitVec 3) (vs1 vs2 : BitVec 5) (vm : BitVec 3) (s : State) : Out :=
  s.cmpRow c g 0 x gd vs1 vs2 vm fun a b => a == b
def execVcmpne (c : Nat) (g : BitVec 4) (x : Bool) (gd : BitVec 3) (vs1 vs2 : BitVec 5) (vm : BitVec 3) (s : State) : Out :=
  s.cmpRow c g 1 x gd vs1 vs2 vm fun a b => a != b
def execVcmpltu (c : Nat) (g : BitVec 4) (x : Bool) (gd : BitVec 3) (vs1 vs2 : BitVec 5) (vm : BitVec 3) (s : State) : Out :=
  s.cmpRow c g 2 x gd vs1 vs2 vm fun a b => a.ult b
def execVcmpgeu (c : Nat) (g : BitVec 4) (x : Bool) (gd : BitVec 3) (vs1 vs2 : BitVec 5) (vm : BitVec 3) (s : State) : Out :=
  s.cmpRow c g 3 x gd vs1 vs2 vm fun a b => !a.ult b
def execVcmplt (c : Nat) (g : BitVec 4) (x : Bool) (gd : BitVec 3) (vs1 vs2 : BitVec 5) (vm : BitVec 3) (s : State) : Out :=
  s.cmpRow c g 4 x gd vs1 vs2 vm fun a b => a.slt b
def execVcmpge (c : Nat) (g : BitVec 4) (x : Bool) (gd : BitVec 3) (vs1 vs2 : BitVec 5) (vm : BitVec 3) (s : State) : Out :=
  s.cmpRow c g 5 x gd vs1 vs2 vm fun a b => !a.slt b

/-! ## VL (major 0x2B) -/

/-- VL and rd take a length, at most 256, for the next instruction. -/
def State.setVl (s : State) (c : Nat) (g : BitVec 4) (w : BitVec 32) (xr : List (BitVec 5)) (rd : BitVec 5)
    (f : Core → Nat) : Out :=
  s.insn c g w (coreKind c != 2) false fun s =>
    ((s.sync c xr [rd]).onCore c fun k =>
      let n := min (f k) 256
      { k.setX rd (BitVec.ofNat 64 n) with vl := n }).advance c

def execVsetvl (c : Nat) (g : BitVec 4) (rd rs1 : BitVec 5) (s : State) : Out :=
  s.setVl c g (insnWord g 0x2B (fmtVS rd rs1 0 0)) [rs1] rd fun k => (k.gx rs1).toNat
def execVsetvli (c : Nat) (g : BitVec 4) (rd : BitVec 5) (imm : BitVec 9) (s : State) : Out :=
  s.setVl c g (insnWord g 0x2B (fmtVS rd 0 imm 1)) [] rd fun _ => imm.toNat

/-! ## Beats (R325) -/

/-- The beats that have left by the core's cycle write; the next one of a core that issues nothing leaves. -/
def execBeatLeavesPipe (c : Nat) (s : State) : Out :=
  if 69 ≤ c then .fault .noSuchCore
  else
    .next (s.onCore c fun k =>
      let i := if k.waiting || k.halted then
                 match k.beats with
                 | [] => k.cycle
                 | b :: t => max k.cycle (t.foldl (fun a b => min a b.leave) b.leave + 1)
               else k.cycle
      (k.stallTo i).leaveDue i)

end Sys2Proof.Machine
end

