-- ==== Sys2Proof/Machine/VectorMem.lean ====
section
/-! DEFINITION. Vector memory access: unit-stride and strided loads and stores, gather and scatter (R331 to R333). -/

namespace Sys2Proof.Machine

open Sys2Proof

/-- Octets of an element. -/
def elemSize (sz : BitVec 2) : Nat := 2 ^ sz.toNat

/-- The address of element `e` under a base and a stride (R331). -/
def strideAddr (base stride : BitVec 64) (e : Nat) : BitVec 64 := base + BitVec.ofNat 64 e * stride

/-- The stride: the element size when rs2 is x0. -/
def Core.stride (k : Core) (sz : BitVec 2) (rs2 : BitVec 5) : BitVec 64 :=
  if rs2 = 0 then BitVec.ofNat 64 (elemSize sz) else k.gx rs2

/-- The address of element `e` under an index register (R333). -/
def Core.indexAddr (k : Core) (sz : BitVec 2) (rs1 vs2 : BitVec 5) (e : Nat) : BitVec 64 :=
  k.gx rs1 + BitVec.ofNat 64 ((k.elem vs2 e).toNat * elemSize sz)

/-- An element passes the check of R332: alignment to its size, and the range. -/
def elemOk (unit : Bool) (sz : BitVec 2) (a : BitVec 64) : Bool :=
  let n := elemSize sz
  let x := a.toNat
  x % n == 0 && (inSram x n || (unit && (within 0x300000 0x304000 x n || within 0x400000 0x500000 x n)))

/-- The lowest active element that fails. -/
def firstBad (unit : Bool) (sz : BitVec 2) (l : List Nat) (addr : Nat → BitVec 64) : Option Nat :=
  l.find? fun e => !elemOk unit sz (addr e)

/-- One octet that a sheet's vector unit reaches: its SRAM, or its windows (R308, R331). -/
def State.vecByte (s : State) (c a : Nat) : Byte := if inSram a 1 then (s.core c).dmem.getD a 0 else s.sheetByte c a

/-- An element as it is loaded, zero-extended. -/
def State.loadElem (s : State) (c : Nat) (sz : BitVec 2) (a : BitVec 64) : BitVec 32 :=
  BitVec.ofNat 32 (leNat ((List.range (elemSize sz)).map fun i => s.vecByte c (a.toNat + i)))

/-- An element stored. -/
def State.storeElem (s : State) (c : Nat) (sz : BitVec 2) (a : BitVec 64) (w : BitVec 32) : State :=
  let b := le (elemSize sz) w.toNat
  if inSram a.toNat 1 then s.onCore c fun k => k.wrMem a.toNat b else s.putSheet c a.toNat b

/-- VFAULT at element `f` (R332). -/
def State.vfault (s : State) (c f : Nat) (a : BitVec 64) : State :=
  (s.onCore c fun k => { k with vfaultIdx := f }).except c 9 a

/-- The free latencies of the beats of an access to the context or the scratch window: in order, each at least one cycle
after the one before (R331). -/
def slowLat (free : Nat) (i : Nat) : Nat :=
  ((List.range (i + 1)).map fun j => (Config.freeWord (free + j)).toNat + 1).sum

/-- The timing of an access: unit-stride in sheet SRAM, unit-stride elsewhere, or strided and indexed. -/
inductive Access where
  | sram | slow | strided
  deriving DecidableEq, Repr

/-- The class of a unit-stride access follows its base, one of a stride is strided. -/
def accessOf (rs2 : BitVec 5) (base : BitVec 64) : Access :=
  if rs2 ≠ 0 then .strided else if inSram base.toNat 1 then .sram else .slow

/-- The shape of a vector memory instruction of `n` beats. -/
def memShape (x : Access) (store : Bool) (free n : Nat) (srcs : List Nat) (dst : Option Nat) : VecShape :=
  { pipe := .vlsu, srcs := [], late := srcs, dst := dst
    lat := match x with
      | .sram => fun i => if store then i else i + 1
      | .slow => slowLat free
      | .strided => fun _ => 4 * n + 1
    occupy := match x with
      | .sram => id
      | .slow => fun b => slowLat free (b - 1) + 1
      | .strided => fun b => 4 * b
    unitLoad := !store && x != .strided }

/-- The free values that an access uses up. -/
def Access.draws (x : Access) (n : Nat) : Nat := if x = .slow then n else 0

/-- A vector memory instruction: its waits, the check of every active element, and `body` on the elements. `first`: an
element that fails after the first active one ends the instruction there (VGATHER.FF). -/
def State.memRow (s : State) (c : Nat) (g : BitVec 4) (w : BitVec 32) (sz : BitVec 2) (xr : List (BitVec 5)) (vr : List Nat)
    (store : Bool) (access : Core → Access) (srcs : List Nat) (dst : Option Nat) (vm : BitVec 3) (first : Bool)
    (addr : Core → Nat → BitVec 64) (body : VecShape → Core → List Nat → State → State) : Out :=
  s.vecRow c g w (sz == 3) xr [] vr fun s =>
    let k := s.core c
    let n := beatsOf k.vl
    let x := access k
    let h := memShape x store s.free n (srcs ++ maskReg vm) dst
    let s := s.onCore c fun k => k.vecWait h
    let a := (s.core c).ahead
    let l := a.active vm
    let run := fun (s : State) (l : List Nat) => (body h a l s).advance c
    match firstBad (x != .strided) sz l (addr a) with
    | some f =>
      if first ∧ l.head? ≠ some f then
        (run s (l.filter (· < f))).onCore c fun k => { k with vl := f, ffHit := true }
      else s.vfault c f (addr a f)
    | none => run { s with free := s.free + x.draws n } l

/-- Loads of the elements. -/
def loadBody (c : Nat) (sz : BitVec 2) (addr : Core → Nat → BitVec 64) (h : VecShape) (a : Core) (l : List Nat) (s : State) : State :=
  s.onCore c fun k => k.vecIssue h (l.map fun e => (e, s.loadElem c sz (addr a e)))

/-- Stores of the elements in ascending order. -/
def storeBody (c : Nat) (sz : BitVec 2) (v : BitVec 5) (addr : Core → Nat → BitVec 64) (h : VecShape) (a : Core) (l : List Nat)
    (s : State) : State :=
  l.foldl (fun s e => s.storeElem c sz (addr a e) (a.elem v e)) (s.onCore c fun k => k.vecIssue h [])

/-- VLD. -/
def execVld (c : Nat) (g : BitVec 4) (sz : BitVec 2) (v rs1 rs2 : BitVec 5) (vm : BitVec 3) (s : State) : Out :=
  let addr := fun (k : Core) e => strideAddr (k.gx rs1) (k.stride sz rs2) e
  s.memRow c g (insnWord g 0x28 (fmtVM v rs1 rs2 vm sz 0)) sz [rs1, rs2] [v.toNat] false
    (fun k => accessOf rs2 (k.gx rs1)) [] (some v.toNat) vm false addr (loadBody c sz addr)

/-- VST. -/
def execVst (c : Nat) (g : BitVec 4) (sz : BitVec 2) (v rs1 rs2 : BitVec 5) (vm : BitVec 3) (s : State) : Out :=
  let addr := fun (k : Core) e => strideAddr (k.gx rs1) (k.stride sz rs2) e
  s.memRow c g (insnWord g 0x29 (fmtVM v rs1 rs2 vm sz 0)) sz [rs1, rs2] [v.toNat] true
    (fun k => accessOf rs2 (k.gx rs1)) [v.toNat] none vm false addr (storeBody c sz v addr)

/-- VGATHER. -/
def execVgather (c : Nat) (g : BitVec 4) (sz : BitVec 2) (v rs1 vs2 : BitVec 5) (vm : BitVec 3) (s : State) : Out :=
  let addr := fun (k : Core) e => k.indexAddr sz rs1 vs2 e
  s.memRow c g (insnWord g 0x2A (fmtVM v rs1 vs2 vm sz 0)) sz [rs1] [v.toNat, vs2.toNat] false (fun _ => .strided)
    [vs2.toNat] (some v.toNat) vm false addr (loadBody c sz addr)

/-- VGATHER.FF. -/
def execVgatherFf (c : Nat) (g : BitVec 4) (sz : BitVec 2) (v rs1 vs2 : BitVec 5) (vm : BitVec 3) (s : State) : Out :=
  let addr := fun (k : Core) e => k.indexAddr sz rs1 vs2 e
  s.memRow c g (insnWord g 0x2A (fmtVM v rs1 vs2 vm sz 1)) sz [rs1] [v.toNat, vs2.toNat] false (fun _ => .strided)
    [vs2.toNat] (some v.toNat) vm true addr (loadBody c sz addr)

/-- VSCATTER. -/
def execVscatter (c : Nat) (g : BitVec 4) (sz : BitVec 2) (v rs1 vs2 : BitVec 5) (vm : BitVec 3) (s : State) : Out :=
  let addr := fun (k : Core) e => k.indexAddr sz rs1 vs2 e
  s.memRow c g (insnWord g 0x2A (fmtVM v rs1 vs2 vm sz 2)) sz [rs1] [v.toNat, vs2.toNat] true (fun _ => .strided)
    [v.toNat, vs2.toNat] none vm false addr (storeBody c sz v addr)

end Sys2Proof.Machine
end

