-- ==== Sys2Proof/Machine/Words.lean ====
section
/-! DEFINITION. Which Casmar words are defined: assigned majors and functions, and fields that must be zero (R293, R299 to
R304, R309, R316, R319, R323, R324, R329, R330). -/

namespace Sys2Proof.Machine

open Sys2Proof

/-- Bits [lo + n - 1 : lo] of a word. -/
def wField (w : BitVec 32) (lo n : Nat) : Nat := fieldOf w.toNat lo n

/-- The words of majors 0x00 to 0x0F. -/
def wordLow (w : BitVec 32) : Bool :=
  let func := wField w 0 6
  let rs2 := wField w 7 5
  match wField w 22 6 with
  | 0x00 => decide (func ≤ 0x15) && (decide (func < 0x12) || rs2 == 0)
  | 0x06 => wField w 16 1 == 0
  | 0x09 => decide (wField w 6 6 ≤ 3)
  | 0x0A => wField w 17 5 == 0
  | 0x0C => wField w 9 3 != 7
  | 0x0E =>
    let gf := wField w 0 3
    wField w 17 2 == 0 && decide (gf ≤ 5) &&
      (gf < 2 || gf == 5 || (wField w 5 2 == 0 && wField w 15 2 == 0 && wField w 10 2 == 0))
  | 0x0F => false
  | _ => true

/-- The words of majors 0x10 to 0x1F. -/
def wordHigh (c : Nat) (w : BitVec 32) : Bool :=
  let func := wField w 0 7
  let rd := wField w 17 5
  let rs1 := wField w 12 5
  let rs2 := wField w 7 5
  match wField w 22 6 with
  | 0x10 =>
    let op := func / 4
    decide (op ≤ 5) && (rd == 0 || op == 1 || op == 2 || op == 4) && (op != 4 || (rs1 == 0 && rs2 == 0)) && (op != 5 || rs2 == 0)
  | 0x18 => true
  | 0x19 => true
  | 0x1A => true
  | 0x1C => rs1 == 0 && assigned c (wField w 0 12)
  | 0x1D => rs1 == 0 && assigned c (wField w 0 12)
  | 0x1E => decide (func ≤ 5) && rd == 0 && (func == 5 || (rs1 == 0 && rs2 == 0))
  | 0x1F => decide (func / 32 ≤ 2) && decide (func % 32 ≤ 0x11)
  | _ => false

/-- The words of the long-vector majors. -/
def wordVector (w : BitVec 32) : Bool :=
  let func := wField w 0 4
  let imm := wField w 7 5
  let mem := fun n => decide (wField w 0 2 ≤ n) && wField w 2 2 != 3
  match wField w 22 6 with
  | 0x20 => decide (func ≤ 14)
  | 0x21 => decide (func ≤ 14)
  | 0x22 => decide (func ≤ 4) && (func != 3 || imm != 0) && (func != 4 || imm == 0)
  | 0x23 => decide (func ≤ 5)
  | 0x24 => decide (func ≤ 5)
  | 0x25 =>
    decide (func ≤ 7) && (func != 1 || wField w 12 5 == 0) && (func != 2 || wField w 4 3 == 0) &&
      (func != 5 || decide (1 ≤ imm ∧ imm ≤ 8)) && (func < 6 || decide (1 ≤ imm ∧ imm ≤ 12))
  | 0x26 => wField w 20 2 == 0 && decide (func ≤ 5)
  | 0x27 => wField w 20 2 == 0 && decide (func ≤ 5)
  | 0x28 => mem 0
  | 0x29 => mem 0
  | 0x2A => mem 2
  | 0x2B => (wField w 0 3 == 0 && wField w 3 9 == 0) || (wField w 0 3 == 1 && wField w 12 5 == 0)
  | _ => false

/-- The last cfunc that each coprocessor defines (R318, R336). -/
def lastCfunc (p : Nat) : Nat :=
  match p with
  | 0 => 4
  | 1 => 6
  | 2 => 4
  | 3 => 4
  | 4 => 4
  | 5 => 3
  | 6 => 3
  | _ => 0

/-- A cfunc below 0x78 that a coprocessor defines, an algorithm pack's included. -/
def State.cfuncOk (s : State) (p fn : Nat) : Bool :=
  (decide (1 ≤ fn ∧ fn ≤ lastCfunc p) || (decide (0x60 ≤ fn) && (storeKind p).isSome)) && s.entryLoaded p fn

/-- A word is defined on a core. -/
def State.wordLegal (s : State) (c : Nat) (w : BitVec 32) : Bool :=
  let major := wField w 22 6
  let fn := wField w 15 7
  if major < 0x10 then wordLow w
  else if major < 0x20 then wordHigh c w
  else if major < 0x30 then coreKind c == 2 && wordVector w
  else fn == 0x78 || fn == 0x7F || (decide (fn < 0x78) && (!hasCp c (major - 0x30) || s.cfuncOk (major - 0x30) fn))

/-- A core issues a word that no other command stands for: ILLEGAL where it is undefined, CP_ABSENT where it goes to a
coprocessor that the core lacks. A word that is defined is not this event. -/
def execUndefinedEncoding (c : Nat) (w : BitVec 32) (s : State) : Out :=
  let major := wField w 22 6
  let g := BitVec.ofNat 4 (wField w 28 4)
  if 69 ≤ c then .fault .noSuchCore
  else if !s.wordLegal c w then s.insn c g w true false id
  else if 0x30 ≤ major ∧ !hasCp c (major - 0x30) then
    s.insn c g w false (cpPriv (major - 0x30)) fun s => s.except c 6 (BitVec.ofNat 64 (major - 0x30))
  else .next s

end Sys2Proof.Machine
end

