-- ==== Sys2Proof/Machine/Dispatch.lean ====
section
/-! DEFINITION. Which meaning each command has: one arm for each row of the table, in its order. -/

namespace Sys2Proof.Machine

open Sys2Proof

def exec (i : Instr) (s : State) : Host.Outcome State Fault Refusal :=
  match i with
  | .tickBoundary => Sys2Proof.Machine.execTickBoundary s
  | .datumHoldoverWiden => Sys2Proof.Machine.execDatumHoldoverWiden s
  | .datumChallenge via => Sys2Proof.Machine.execDatumChallenge via s
  | .datumToken via => Sys2Proof.Machine.execDatumToken via s
  | .datumTokenApply => Sys2Proof.Machine.execDatumTokenApply s
  | .datumChallengeExpire => Sys2Proof.Machine.execDatumChallengeExpire s
  | .datumRead ctx => Sys2Proof.Machine.execDatumRead ctx s
  | .datumPpsEdge subNs => Sys2Proof.Machine.execDatumPpsEdge subNs s
  | .ptmExchange master cycles ok => Sys2Proof.Machine.execPtmExchange master cycles ok s
  | .datumRefineApply => Sys2Proof.Machine.execDatumRefineApply s
  | .sqDoorbell q v ide => Sys2Proof.Machine.execSqDoorbell q v ide s
  | .cqDoorbell q v ide => Sys2Proof.Machine.execCqDoorbell q v ide s
  | .noticeEntry q => Sys2Proof.Machine.execNoticeEntry q s
  | .packetConsume q => Sys2Proof.Machine.execPacketConsume q s
  | .operationLaunch ctx u => Sys2Proof.Machine.execOperationLaunch ctx u s
  | .operationComplete ctx => Sys2Proof.Machine.execOperationComplete ctx s
  | .checkLaunch ctx u => Sys2Proof.Machine.execCheckLaunch ctx u s
  | .checkComplete ctx ok => Sys2Proof.Machine.execCheckComplete ctx ok s
  | .rerunLaunch ctx u => Sys2Proof.Machine.execRerunLaunch ctx u s
  | .legLaunch ctx => Sys2Proof.Machine.execLegLaunch ctx s
  | .benchmarkLaunch u fam => Sys2Proof.Machine.execBenchmarkLaunch u fam s
  | .benchmarkComplete u ok => Sys2Proof.Machine.execBenchmarkComplete u ok s
  | .hatchingLaunch u => Sys2Proof.Machine.execHatchingLaunch u s
  | .collectorAdmit r => Sys2Proof.Machine.execCollectorAdmit r s
  | .completionWrite => Sys2Proof.Machine.execCompletionWrite s
  | .coalesceTimerExpire v => Sys2Proof.Machine.execCoalesceTimerExpire v s
  | .queCtrlEnableWrite v => Sys2Proof.Machine.execQueCtrlEnableWrite v s
  | .sliceCreate ctx => Sys2Proof.Machine.execSliceCreate ctx s
  | .sliceResize ctx => Sys2Proof.Machine.execSliceResize ctx s
  | .sliceDestroy ctx => Sys2Proof.Machine.execSliceDestroy ctx s
  | .sliceReset ctx => Sys2Proof.Machine.execSliceReset ctx s
  | .sliceFreeze ctx => Sys2Proof.Machine.execSliceFreeze ctx s
  | .sliceQuiesced ctx => Sys2Proof.Machine.execSliceQuiesced ctx s
  | .sliceExport ctx => Sys2Proof.Machine.execSliceExport ctx s
  | .sliceImport ctx => Sys2Proof.Machine.execSliceImport ctx s
  | .sliceThaw ctx => Sys2Proof.Machine.execSliceThaw ctx s
  | .importPrepare ctx => Sys2Proof.Machine.execImportPrepare ctx s
  | .importSessionExpire session => Sys2Proof.Machine.execImportSessionExpire session s
  | .sliceQuery ctx => Sys2Proof.Machine.execSliceQuery ctx s
  | .qpCreate ctx => Sys2Proof.Machine.execQpCreate ctx s
  | .qpDestroy ctx => Sys2Proof.Machine.execQpDestroy ctx s
  | .qpShutdownComplete q => Sys2Proof.Machine.execQpShutdownComplete q s
  | .sliceInfo ctx => Sys2Proof.Machine.execSliceInfo ctx s
  | .sliceEpochAdvance ctx => Sys2Proof.Machine.execSliceEpochAdvance ctx s
  | .mlkemKeygen ctx => Sys2Proof.Machine.execMlkemKeygen ctx s
  | .mlkemEncaps ctx => Sys2Proof.Machine.execMlkemEncaps ctx s
  | .mlkemDecaps ctx => Sys2Proof.Machine.execMlkemDecaps ctx s
  | .mlkemPublic ctx => Sys2Proof.Machine.execMlkemPublic ctx s
  | .mldsaKeygen ctx => Sys2Proof.Machine.execMldsaKeygen ctx s
  | .mldsaSign ctx => Sys2Proof.Machine.execMldsaSign ctx s
  | .mldsaVerify ctx => Sys2Proof.Machine.execMldsaVerify ctx s
  | .mldsaPublic ctx => Sys2Proof.Machine.execMldsaPublic ctx s
  | .hybridKeygen ctx => Sys2Proof.Machine.execHybridKeygen ctx s
  | .hybridEncaps ctx => Sys2Proof.Machine.execHybridEncaps ctx s
  | .hybridDecaps ctx => Sys2Proof.Machine.execHybridDecaps ctx s
  | .compositeKeygen ctx => Sys2Proof.Machine.execCompositeKeygen ctx s
  | .compositeSign ctx => Sys2Proof.Machine.execCompositeSign ctx s
  | .compositeVerify ctx => Sys2Proof.Machine.execCompositeVerify ctx s
  | .keyPreparation handle ctx u ok => Sys2Proof.Machine.execKeyPreparation handle ctx u ok s
  | .keyResidency handle r => Sys2Proof.Machine.execKeyResidency handle r s
  | .slhdsaKeygen ctx => Sys2Proof.Machine.execSlhdsaKeygen ctx s
  | .slhdsaSign ctx => Sys2Proof.Machine.execSlhdsaSign ctx s
  | .slhdsaVerify ctx => Sys2Proof.Machine.execSlhdsaVerify ctx s
  | .slhdsaPublic ctx => Sys2Proof.Machine.execSlhdsaPublic ctx s
  | .lmsKeygen ctx => Sys2Proof.Machine.execLmsKeygen ctx s
  | .lmsSign ctx => Sys2Proof.Machine.execLmsSign ctx s
  | .lmsVerify ctx => Sys2Proof.Machine.execLmsVerify ctx s
  | .lmsPublic ctx => Sys2Proof.Machine.execLmsPublic ctx s
  | .lmsState ctx => Sys2Proof.Machine.execLmsState ctx s
  | .xmssKeygen ctx => Sys2Proof.Machine.execXmssKeygen ctx s
  | .xmssSign ctx => Sys2Proof.Machine.execXmssSign ctx s
  | .xmssVerify ctx => Sys2Proof.Machine.execXmssVerify ctx s
  | .xmssPublic ctx => Sys2Proof.Machine.execXmssPublic ctx s
  | .xmssState ctx => Sys2Proof.Machine.execXmssState ctx s
  | .treeBatchLaunch keyId level u ok => Sys2Proof.Machine.execTreeBatchLaunch keyId level u ok s
  | .journalReserve keyId => Sys2Proof.Machine.execJournalReserve keyId s
  | .mceKeygen ctx => Sys2Proof.Machine.execMceKeygen ctx s
  | .mceEncaps ctx => Sys2Proof.Machine.execMceEncaps ctx s
  | .mceDecaps ctx => Sys2Proof.Machine.execMceDecaps ctx s
  | .mcePublic ctx => Sys2Proof.Machine.execMcePublic ctx s
  | .hqcKeygen ctx => Sys2Proof.Machine.execHqcKeygen ctx s
  | .hqcEncaps ctx => Sys2Proof.Machine.execHqcEncaps ctx s
  | .hqcDecaps ctx => Sys2Proof.Machine.execHqcDecaps ctx s
  | .hqcPublic ctx => Sys2Proof.Machine.execHqcPublic ctx s
  | .surveyBatch ctx => Sys2Proof.Machine.execSurveyBatch ctx s
  | .bearingFormationComplete ctx reformed checks => Sys2Proof.Machine.execBearingFormationComplete ctx reformed checks s
  | .surveyAnchor ctx => Sys2Proof.Machine.execSurveyAnchor ctx s
  | .verifyBearing ctx => Sys2Proof.Machine.execVerifyBearing ctx s
  | .anchorDrop ctx => Sys2Proof.Machine.execAnchorDrop ctx s
  | .ecKeygen ctx => Sys2Proof.Machine.execEcKeygen ctx s
  | .ecdsaSign ctx => Sys2Proof.Machine.execEcdsaSign ctx s
  | .ecdsaVerify ctx => Sys2Proof.Machine.execEcdsaVerify ctx s
  | .eddsaSign ctx => Sys2Proof.Machine.execEddsaSign ctx s
  | .eddsaVerify ctx => Sys2Proof.Machine.execEddsaVerify ctx s
  | .ecAgree ctx => Sys2Proof.Machine.execEcAgree ctx s
  | .ecPublic ctx => Sys2Proof.Machine.execEcPublic ctx s
  | .rsaKeygen ctx => Sys2Proof.Machine.execRsaKeygen ctx s
  | .rsaSign ctx => Sys2Proof.Machine.execRsaSign ctx s
  | .rsaVerify ctx => Sys2Proof.Machine.execRsaVerify ctx s
  | .rsaDecrypt ctx => Sys2Proof.Machine.execRsaDecrypt ctx s
  | .rsaEncrypt ctx => Sys2Proof.Machine.execRsaEncrypt ctx s
  | .rsaPublic ctx => Sys2Proof.Machine.execRsaPublic ctx s
  | .digest ctx => Sys2Proof.Machine.execDigest ctx s
  | .digestBatch ctx => Sys2Proof.Machine.execDigestBatch ctx s
  | .mac ctx => Sys2Proof.Machine.execMac ctx s
  | .macVerify ctx => Sys2Proof.Machine.execMacVerify ctx s
  | .kdfHkdf ctx => Sys2Proof.Machine.execKdfHkdf ctx s
  | .kdfCounter ctx => Sys2Proof.Machine.execKdfCounter ctx s
  | .kdfKmac ctx => Sys2Proof.Machine.execKdfKmac ctx s
  | .seal ctx => Sys2Proof.Machine.execSeal ctx s
  | .openSeal ctx => Sys2Proof.Machine.execOpenSeal ctx s
  | .wrap ctx => Sys2Proof.Machine.execWrap ctx s
  | .unwrap ctx => Sys2Proof.Machine.execUnwrap ctx s
  | .slabLaunch ctx u lane cu clane => Sys2Proof.Machine.execSlabLaunch ctx u lane cu clane s
  | .slabComplete ctx ok => Sys2Proof.Machine.execSlabComplete ctx ok s
  | .keyGenerate ctx => Sys2Proof.Machine.execKeyGenerate ctx s
  | .keyLoadPublic ctx => Sys2Proof.Machine.execKeyLoadPublic ctx s
  | .keyInfo ctx => Sys2Proof.Machine.execKeyInfo ctx s
  | .keyDestroy ctx => Sys2Proof.Machine.execKeyDestroy ctx s
  | .generationBump => Sys2Proof.Machine.execGenerationBump s
  | .slotReclaim handle => Sys2Proof.Machine.execSlotReclaim handle s
  | .keyPersist ctx => Sys2Proof.Machine.execKeyPersist ctx s
  | .keyRestore ctx => Sys2Proof.Machine.execKeyRestore ctx s
  | .keyReceivePrepare ctx => Sys2Proof.Machine.execKeyReceivePrepare ctx s
  | .keyExport ctx => Sys2Proof.Machine.execKeyExport ctx s
  | .keyImport ctx => Sys2Proof.Machine.execKeyImport ctx s
  | .keyEpochAdvance ctx => Sys2Proof.Machine.execKeyEpochAdvance ctx s
  | .peerEnrol ctx => Sys2Proof.Machine.execPeerEnrol ctx s
  | .attestQuote ctx => Sys2Proof.Machine.execAttestQuote ctx s
  | .randomBytes ctx => Sys2Proof.Machine.execRandomBytes ctx s
  | .randomStatus ctx => Sys2Proof.Machine.execRandomStatus ctx s
  | .conditionedBlock => Sys2Proof.Machine.execConditionedBlock s
  | .healthFailure test cell value => Sys2Proof.Machine.execHealthFailure test cell s value
  | .balanceWindow cell ones => Sys2Proof.Machine.execBalanceWindow cell ones s
  | .balanceTimeout cell => Sys2Proof.Machine.execBalanceTimeout cell s
  | .sourceStageComplete failed => Sys2Proof.Machine.execSourceStageComplete s failed
  | .drbgReseed d => Sys2Proof.Machine.execDrbgReseed d s
  | .drbgReseedLimit d => Sys2Proof.Machine.execDrbgReseedLimit d s
  | .drbgPeriodicKat d test ok => Sys2Proof.Machine.execDrbgPeriodicKat d test s ok
  | .rngWaitExpire ctx => Sys2Proof.Machine.execRngWaitExpire ctx s
  | .addi c g rd rs1 imm => Sys2Proof.Machine.execAddi c g rd rs1 imm s
  | .andi c g rd rs1 imm => Sys2Proof.Machine.execAndi c g rd rs1 imm s
  | .ori c g rd rs1 imm => Sys2Proof.Machine.execOri c g rd rs1 imm s
  | .xori c g rd rs1 imm => Sys2Proof.Machine.execXori c g rd rs1 imm s
  | .ldk c g rd h imm => Sys2Proof.Machine.execLdk c g rd h imm s
  | .ldkh c g rd h imm => Sys2Proof.Machine.execLdkh c g rd h imm s
  | .shk c g rd imm => Sys2Proof.Machine.execShk c g rd imm s
  | .addk c g rd h imm => Sys2Proof.Machine.execAddk c g rd h imm s
  | .slli c g rd rs1 sh => Sys2Proof.Machine.execSlli c g rd rs1 sh s
  | .srli c g rd rs1 sh => Sys2Proof.Machine.execSrli c g rd rs1 sh s
  | .srai c g rd rs1 sh => Sys2Proof.Machine.execSrai c g rd rs1 sh s
  | .rori c g rd rs1 sh => Sys2Proof.Machine.execRori c g rd rs1 sh s
  | .cmpi c g rs1 imm => Sys2Proof.Machine.execCmpi c g rs1 imm s
  | .addpc c g rd imm => Sys2Proof.Machine.execAddpc c g rd imm s
  | .ld c g sz rd rs1 imm => Sys2Proof.Machine.execLd c g sz rd rs1 imm s
  | .st c g sz rs2 rs1 imm => Sys2Proof.Machine.execSt c g sz rs2 rs1 imm s
  | .b c g imm => Sys2Proof.Machine.execB c g imm s
  | .bl c g imm => Sys2Proof.Machine.execBl c g imm s
  | .jr c g rd rs1 imm => Sys2Proof.Machine.execJr c g rd rs1 imm s
  | .sysrd c g rd num => Sys2Proof.Machine.execSysrd c g rd num s
  | .syswr c g rs num => Sys2Proof.Machine.execSyswr c g rs num s
  | .eoi c src => Sys2Proof.Machine.execEoi c src s
  | .fence c g => Sys2Proof.Machine.execFence c g s
  | .eret c g => Sys2Proof.Machine.execEret c g s
  | .wfi c g => Sys2Proof.Machine.execWfi c g s
  | .plainx c g => Sys2Proof.Machine.execPlainx c g s
  | .plaine c g => Sys2Proof.Machine.execPlaine c g s
  | .trap c g code => Sys2Proof.Machine.execTrap c g code s
  | .add c g f rd rs1 rs2 => Sys2Proof.Machine.execAdd c g f rd rs1 rs2 s
  | .sub c g f rd rs1 rs2 => Sys2Proof.Machine.execSub c g f rd rs1 rs2 s
  | .and c g f rd rs1 rs2 => Sys2Proof.Machine.execAnd c g f rd rs1 rs2 s
  | .or c g f rd rs1 rs2 => Sys2Proof.Machine.execOr c g f rd rs1 rs2 s
  | .xor c g f rd rs1 rs2 => Sys2Proof.Machine.execXor c g f rd rs1 rs2 s
  | .andn c g f rd rs1 rs2 => Sys2Proof.Machine.execAndn c g f rd rs1 rs2 s
  | .sll c g f rd rs1 rs2 => Sys2Proof.Machine.execSll c g f rd rs1 rs2 s
  | .srl c g f rd rs1 rs2 => Sys2Proof.Machine.execSrl c g f rd rs1 rs2 s
  | .sra c g f rd rs1 rs2 => Sys2Proof.Machine.execSra c g f rd rs1 rs2 s
  | .ror c g f rd rs1 rs2 => Sys2Proof.Machine.execRor c g f rd rs1 rs2 s
  | .adc c g f rd rs1 rs2 => Sys2Proof.Machine.execAdc c g f rd rs1 rs2 s
  | .sbc c g f rd rs1 rs2 => Sys2Proof.Machine.execSbc c g f rd rs1 rs2 s
  | .addw c g f rd rs1 rs2 => Sys2Proof.Machine.execAddw c g f rd rs1 rs2 s
  | .subw c g f rd rs1 rs2 => Sys2Proof.Machine.execSubw c g f rd rs1 rs2 s
  | .min c g f rd rs1 rs2 => Sys2Proof.Machine.execMin c g f rd rs1 rs2 s
  | .max c g f rd rs1 rs2 => Sys2Proof.Machine.execMax c g f rd rs1 rs2 s
  | .minu c g f rd rs1 rs2 => Sys2Proof.Machine.execMinu c g f rd rs1 rs2 s
  | .maxu c g f rd rs1 rs2 => Sys2Proof.Machine.execMaxu c g f rd rs1 rs2 s
  | .clz c g f rd rs1 => Sys2Proof.Machine.execClz c g f rd rs1 s
  | .ctz c g f rd rs1 => Sys2Proof.Machine.execCtz c g f rd rs1 s
  | .popc c g f rd rs1 => Sys2Proof.Machine.execPopc c g f rd rs1 s
  | .bswap c g f rd rs1 => Sys2Proof.Machine.execBswap c g f rd rs1 s
  | .padd c g es rd rs1 rs2 => Sys2Proof.Machine.execPadd c g es rd rs1 rs2 s
  | .psub c g es rd rs1 rs2 => Sys2Proof.Machine.execPsub c g es rd rs1 rs2 s
  | .padds c g es rd rs1 rs2 => Sys2Proof.Machine.execPadds c g es rd rs1 rs2 s
  | .paddus c g es rd rs1 rs2 => Sys2Proof.Machine.execPaddus c g es rd rs1 rs2 s
  | .psubs c g es rd rs1 rs2 => Sys2Proof.Machine.execPsubs c g es rd rs1 rs2 s
  | .psubus c g es rd rs1 rs2 => Sys2Proof.Machine.execPsubus c g es rd rs1 rs2 s
  | .pmull c g es rd rs1 rs2 => Sys2Proof.Machine.execPmull c g es rd rs1 rs2 s
  | .pmulhu c g es rd rs1 rs2 => Sys2Proof.Machine.execPmulhu c g es rd rs1 rs2 s
  | .pcmpeq c g es rd rs1 rs2 => Sys2Proof.Machine.execPcmpeq c g es rd rs1 rs2 s
  | .pcmpgt c g es rd rs1 rs2 => Sys2Proof.Machine.execPcmpgt c g es rd rs1 rs2 s
  | .pmin c g es rd rs1 rs2 => Sys2Proof.Machine.execPmin c g es rd rs1 rs2 s
  | .pmax c g es rd rs1 rs2 => Sys2Proof.Machine.execPmax c g es rd rs1 rs2 s
  | .pminu c g es rd rs1 rs2 => Sys2Proof.Machine.execPminu c g es rd rs1 rs2 s
  | .pmaxu c g es rd rs1 rs2 => Sys2Proof.Machine.execPmaxu c g es rd rs1 rs2 s
  | .psll c g es rd rs1 rs2 => Sys2Proof.Machine.execPsll c g es rd rs1 rs2 s
  | .psrl c g es rd rs1 rs2 => Sys2Proof.Machine.execPsrl c g es rd rs1 rs2 s
  | .psra c g es rd rs1 rs2 => Sys2Proof.Machine.execPsra c g es rd rs1 rs2 s
  | .pavgu c g es rd rs1 rs2 => Sys2Proof.Machine.execPavgu c g es rd rs1 rs2 s
  | .gcmp c g gd rs1 rs2 cc => Sys2Proof.Machine.execGcmp c g gd rs1 rs2 cc s
  | .gset c g gd cc => Sys2Proof.Machine.execGset c g gd cc s
  | .gand c g gd gs1 gs2 inv1 inv2 => Sys2Proof.Machine.execGand c g gd gs1 gs2 inv1 inv2 s
  | .gor c g gd gs1 gs2 inv1 inv2 => Sys2Proof.Machine.execGor c g gd gs1 gs2 inv1 inv2 s
  | .gxor c g gd gs1 gs2 inv1 inv2 => Sys2Proof.Machine.execGxor c g gd gs1 gs2 inv1 inv2 s
  | .gfromx c g gd rs1 inv => Sys2Proof.Machine.execGfromx c g gd rs1 inv s
  | .mul64 c g yd rs1 rs2 => Sys2Proof.Machine.execMul64 c g yd rs1 rs2 s
  | .mulw c g yd rd rs1 rs2 => Sys2Proof.Machine.execMulw c g yd rd rs1 rs2 s
  | .mulws c g yd rd rs1 rs2 => Sys2Proof.Machine.execMulws c g yd rd rs1 rs2 s
  | .mulm c g yd rs1 rs2 => Sys2Proof.Machine.execMulm c g yd rs1 rs2 s
  | .mfy c g rd ys => Sys2Proof.Machine.execMfy c g rd ys s
  | .mty c g yd rs1 => Sys2Proof.Machine.execMty c g yd rs1 s
  | .yieldWriteLand c => Sys2Proof.Machine.execYieldWriteLand c s
  | .interruptAccept c => Sys2Proof.Machine.execInterruptAccept c s
  | .coreWdogExpire c => Sys2Proof.Machine.execCoreWdogExpire c s
  | .cpstat c g cp rd => Sys2Proof.Machine.execCpstat c g cp rd s
  | .cpsync c g cp rd => Sys2Proof.Machine.execCpsync c g cp rd s
  | .coprocessorCommandComplete c cp => Sys2Proof.Machine.execCoprocessorCommandComplete c cp s
  | .bnlaunch c g rd rs1 rs2 => Sys2Proof.Machine.execBnlaunch c g rd rs1 rs2 s
  | .bnpoll c g rd rs1 => Sys2Proof.Machine.execBnpoll c g rd rs1 s
  | .bnclear c g rs1 => Sys2Proof.Machine.execBnclear c g rs1 s
  | .sequencerWatchdogExpire u => Sys2Proof.Machine.execSequencerWatchdogExpire u s
  | .controlStoreReloadEnd u => Sys2Proof.Machine.execControlStoreReloadEnd u s
  | .nttFwd c g rs1 => Sys2Proof.Machine.execNttFwd c g rs1 s
  | .nttInv c g rs1 => Sys2Proof.Machine.execNttInv c g rs1 s
  | .nttPmul c g rs1 rs2 => Sys2Proof.Machine.execNttPmul c g rs1 rs2 s
  | .nttPmacc c g rs1 rs2 => Sys2Proof.Machine.execNttPmacc c g rs1 rs2 s
  | .hInit c g => Sys2Proof.Machine.execHInit c g s
  | .hAbsorb c g rs1 rs2 => Sys2Proof.Machine.execHAbsorb c g rs1 rs2 s
  | .hFinal c g => Sys2Proof.Machine.execHFinal c g s
  | .hSqueeze c g rs1 rs2 => Sys2Proof.Machine.execHSqueeze c g rs1 rs2 s
  | .hSave c g rs1 => Sys2Proof.Machine.execHSave c g rs1 s
  | .hLoad c g rs1 => Sys2Proof.Machine.execHLoad c g rs1 s
  | .smpUnif c g rs1 rs2 => Sys2Proof.Machine.execSmpUnif c g rs1 rs2 s
  | .smpCbd c g rs1 rs2 => Sys2Proof.Machine.execSmpCbd c g rs1 rs2 s
  | .smpBound c g rs1 rs2 => Sys2Proof.Machine.execSmpBound c g rs1 rs2 s
  | .smpBall c g rs1 => Sys2Proof.Machine.execSmpBall c g rs1 s
  | .bfMulv c g rs1 rs2 => Sys2Proof.Machine.execBfMulv c g rs1 rs2 s
  | .bfMatvec c g rs1 rs2 => Sys2Proof.Machine.execBfMatvec c g rs1 rs2 s
  | .bfEval c g rs1 rs2 => Sys2Proof.Machine.execBfEval c g rs1 rs2 s
  | .bfBmstep c g rs1 rs2 => Sys2Proof.Machine.execBfBmstep c g rs1 rs2 s
  | .kpSel c g rd rs1 => Sys2Proof.Machine.execKpSel c g rd rs1 s
  | .kpAbsorb c g rs1 rs2 => Sys2Proof.Machine.execKpAbsorb c g rs1 rs2 s
  | .kpBfload c g rs1 rs2 => Sys2Proof.Machine.execKpBfload c g rs1 rs2 s
  | .kpDrop c g => Sys2Proof.Machine.execKpDrop c g s
  | .rpMseed c g => Sys2Proof.Machine.execRpMseed c g s
  | .rpDraw c g rs1 => Sys2Proof.Machine.execRpDraw c g rs1 s
  | .rpMaskv c g vd => Sys2Proof.Machine.execRpMaskv c g vd s
  | .vadd c g x vd vs1 vs2 vm => Sys2Proof.Machine.execVadd c g x vd vs1 vs2 vm s
  | .vsub c g x vd vs1 vs2 vm => Sys2Proof.Machine.execVsub c g x vd vs1 vs2 vm s
  | .vand c g x vd vs1 vs2 vm => Sys2Proof.Machine.execVand c g x vd vs1 vs2 vm s
  | .vor c g x vd vs1 vs2 vm => Sys2Proof.Machine.execVor c g x vd vs1 vs2 vm s
  | .vxor c g x vd vs1 vs2 vm => Sys2Proof.Machine.execVxor c g x vd vs1 vs2 vm s
  | .vandn c g x vd vs1 vs2 vm => Sys2Proof.Machine.execVandn c g x vd vs1 vs2 vm s
  | .vsll c g x vd vs1 vs2 vm => Sys2Proof.Machine.execVsll c g x vd vs1 vs2 vm s
  | .vsrl c g x vd vs1 vs2 vm => Sys2Proof.Machine.execVsrl c g x vd vs1 vs2 vm s
  | .vsra c g x vd vs1 vs2 vm => Sys2Proof.Machine.execVsra c g x vd vs1 vs2 vm s
  | .vmin c g x vd vs1 vs2 vm => Sys2Proof.Machine.execVmin c g x vd vs1 vs2 vm s
  | .vmax c g x vd vs1 vs2 vm => Sys2Proof.Machine.execVmax c g x vd vs1 vs2 vm s
  | .vminu c g x vd vs1 vs2 vm => Sys2Proof.Machine.execVminu c g x vd vs1 vs2 vm s
  | .vmaxu c g x vd vs1 vs2 vm => Sys2Proof.Machine.execVmaxu c g x vd vs1 vs2 vm s
  | .vaddm c g x vd vs1 vs2 vm => Sys2Proof.Machine.execVaddm c g x vd vs1 vs2 vm s
  | .vsubm c g x vd vs1 vs2 vm => Sys2Proof.Machine.execVsubm c g x vd vs1 vs2 vm s
  | .vnegm c g vd vs1 vm => Sys2Proof.Machine.execVnegm c g vd vs1 vm s
  | .vsrrU c g vd vs1 n vm => Sys2Proof.Machine.execVsrrU c g vd vs1 n vm s
  | .vsrrS c g vd vs1 n vm => Sys2Proof.Machine.execVsrrS c g vd vs1 n vm s
  | .vsatU c g vd vs1 n vm => Sys2Proof.Machine.execVsatU c g vd vs1 n vm s
  | .vsatS c g vd vs1 n vm => Sys2Proof.Machine.execVsatS c g vd vs1 n vm s
  | .vmul c g x vd vs1 vs2 vm => Sys2Proof.Machine.execVmul c g x vd vs1 vs2 vm s
  | .vmulhu c g x vd vs1 vs2 vm => Sys2Proof.Machine.execVmulhu c g x vd vs1 vs2 vm s
  | .vmulhrU c g x vd vs1 vs2 vm => Sys2Proof.Machine.execVmulhrU c g x vd vs1 vs2 vm s
  | .vmulhrS c g x vd vs1 vs2 vm => Sys2Proof.Machine.execVmulhrS c g x vd vs1 vs2 vm s
  | .vmulm c g x vd vs1 vs2 vm => Sys2Proof.Machine.execVmulm c g x vd vs1 vs2 vm s
  | .vmacm c g x vd vs1 vs2 vm => Sys2Proof.Machine.execVmacm c g x vd vs1 vs2 vm s
  | .vmv c g vd vs1 vm => Sys2Proof.Machine.execVmv c g vd vs1 vm s
  | .vsplat c g vd xs vm => Sys2Proof.Machine.execVsplat c g vd xs vm s
  | .vext c g xd vs1 xs => Sys2Proof.Machine.execVext c g xd vs1 xs s
  | .vslideup c g vd vs1 xs vm => Sys2Proof.Machine.execVslideup c g vd vs1 xs vm s
  | .vslidedn c g vd vs1 xs vm => Sys2Proof.Machine.execVslidedn c g vd vs1 xs vm s
  | .vbrev c g vd vs1 n vm => Sys2Proof.Machine.execVbrev c g vd vs1 n vm s
  | .vcomp c g vd vs1 n vm => Sys2Proof.Machine.execVcomp c g vd vs1 n vm s
  | .vdecomp c g vd vs1 n vm => Sys2Proof.Machine.execVdecomp c g vd vs1 n vm s
  | .vcmpeq c g x gd vs1 vs2 vm => Sys2Proof.Machine.execVcmpeq c g x gd vs1 vs2 vm s
  | .vcmpne c g x gd vs1 vs2 vm => Sys2Proof.Machine.execVcmpne c g x gd vs1 vs2 vm s
  | .vcmpltu c g x gd vs1 vs2 vm => Sys2Proof.Machine.execVcmpltu c g x gd vs1 vs2 vm s
  | .vcmpgeu c g x gd vs1 vs2 vm => Sys2Proof.Machine.execVcmpgeu c g x gd vs1 vs2 vm s
  | .vcmplt c g x gd vs1 vs2 vm => Sys2Proof.Machine.execVcmplt c g x gd vs1 vs2 vm s
  | .vcmpge c g x gd vs1 vs2 vm => Sys2Proof.Machine.execVcmpge c g x gd vs1 vs2 vm s
  | .vld c g sz v rs1 rs2 vm => Sys2Proof.Machine.execVld c g sz v rs1 rs2 vm s
  | .vst c g sz v rs1 rs2 vm => Sys2Proof.Machine.execVst c g sz v rs1 rs2 vm s
  | .vgather c g sz v rs1 vs2 vm => Sys2Proof.Machine.execVgather c g sz v rs1 vs2 vm s
  | .vgatherFf c g sz v rs1 vs2 vm => Sys2Proof.Machine.execVgatherFf c g sz v rs1 vs2 vm s
  | .vscatter c g sz v rs1 vs2 vm => Sys2Proof.Machine.execVscatter c g sz v rs1 vs2 vm s
  | .vsetvl c g rd rs1 => Sys2Proof.Machine.execVsetvl c g rd rs1 s
  | .vsetvli c g rd imm => Sys2Proof.Machine.execVsetvli c g rd imm s
  | .unitRetire u cause => Sys2Proof.Machine.execUnitRetire u cause s
  | .regionRetire r reason => Sys2Proof.Machine.execRegionRetire r reason s
  | .retirementMapUpdate => Sys2Proof.Machine.execRetirementMapUpdate s
  | .transientExpire u => Sys2Proof.Machine.execTransientExpire u s
  | .contextStall ctx => Sys2Proof.Machine.execContextStall ctx s
  | .lockstepMismatch => Sys2Proof.Machine.execLockstepMismatch s
  | .regionCoreMismatch r => Sys2Proof.Machine.execRegionCoreMismatch r s
  | .hbmScrubRead line found => Sys2Proof.Machine.execHbmScrubRead line found s
  | .railVoltageExcursion rail mv ns => Sys2Proof.Machine.execRailVoltageExcursion rail mv ns s
  | .tempSensorConversion temps => Sys2Proof.Machine.execTempSensorConversion temps s
  | .hbmStackTempRead t => Sys2Proof.Machine.execHbmStackTempRead t s
  | .referenceClockFault ppm stopNs => Sys2Proof.Machine.execReferenceClockFault ppm stopNs s
  | .lightSensorTrigger => Sys2Proof.Machine.execLightSensorTrigger s
  | .tamperInN lowNs => Sys2Proof.Machine.execTamperInN lowNs s
  | .thermtripN t => Sys2Proof.Machine.execThermtripN t s
  | .msixVectorMaskWrite v mask => Sys2Proof.Machine.execMsixVectorMaskWrite v mask s
  | .msixFunctionMaskWrite mask => Sys2Proof.Machine.execMsixFunctionMaskWrite mask s
  | .evcClassWrite cl v => Sys2Proof.Machine.execEvcClassWrite cl v s
  | .evcIntRouteMaskWrite cl mask chief => Sys2Proof.Machine.execEvcIntRouteMaskWrite cl mask chief s
  | .eventRecordWrite => Sys2Proof.Machine.execEventRecordWrite s
  | .repeatFlush => Sys2Proof.Machine.execRepeatFlush s
  | .opSecondsPersist => Sys2Proof.Machine.execOpSecondsPersist s
  | .logRead ctx => Sys2Proof.Machine.execLogRead ctx s
  | .logInfo => Sys2Proof.Machine.execLogInfo s
  | .logGet area start count => Sys2Proof.Machine.execLogGet area start count s
  | .perstNDeassert env => Sys2Proof.Machine.execPerstNDeassert env s
  | .fuseGroupBurnComplete blown => Sys2Proof.Machine.execFuseGroupBurnComplete blown s
  | .hbmTrainingComplete ok => Sys2Proof.Machine.execHbmTrainingComplete ok s
  | .datumAcqExpire => Sys2Proof.Machine.execDatumAcqExpire s
  | .perstNAssert => Sys2Proof.Machine.execPerstNAssert s
  | .powerLoss => Sys2Proof.Machine.execPowerLoss s
  | .flr => Sys2Proof.Machine.execFlr s
  | .hotReset => Sys2Proof.Machine.execHotReset s
  | .configRequest isWrite => Sys2Proof.Machine.execConfigRequest isWrite s
  | .memoryRequestBeforeReady => Sys2Proof.Machine.execMemoryRequestBeforeReady s
  | .configStatus ctx => Sys2Proof.Machine.execConfigStatus ctx s
  | .configCommit ctx flashOk => Sys2Proof.Machine.execConfigCommit ctx flashOk s
  | .commitTokenGain => Sys2Proof.Machine.execCommitTokenGain s
  | .stageGet => Sys2Proof.Machine.execStageGet s
  | .identGet => Sys2Proof.Machine.execIdentGet s
  | .lcsRequest via => Sys2Proof.Machine.execLcsRequest via s
  | .lcsCancel via => Sys2Proof.Machine.execLcsCancel via s
  | .debugInstall via => Sys2Proof.Machine.execDebugInstall via s
  | .getVersion via msg => Sys2Proof.Machine.execGetVersion s via msg
  | .getCapabilities via msg => Sys2Proof.Machine.execGetCapabilities s via msg
  | .negotiateAlgorithms via msg => Sys2Proof.Machine.execNegotiateAlgorithms via s msg
  | .getDigests via msg => Sys2Proof.Machine.execGetDigests s via msg
  | .getCertificate via head body => Sys2Proof.Machine.execGetCertificate via head body s
  | .challenge via msg => Sys2Proof.Machine.execChallenge via msg s
  | .getMeasurements via head body => Sys2Proof.Machine.execGetMeasurements via head body s
  | .keyExchange via msg => Sys2Proof.Machine.execKeyExchange via msg s
  | .finish via record => Sys2Proof.Machine.execFinish via s record
  | .endSession via record => Sys2Proof.Machine.execEndSession s via record
  | .keyUpdate via record => Sys2Proof.Machine.execKeyUpdate via s record
  | .heartbeat via record => Sys2Proof.Machine.execHeartbeat s via record
  | .ideKm head body => Sys2Proof.Machine.execIdeKm head body s
  | .getTdispVersion record => Sys2Proof.Machine.execGetTdispVersion record s
  | .getTdispCapabilities record => Sys2Proof.Machine.execGetTdispCapabilities record s
  | .lockInterfaceRequest head body => Sys2Proof.Machine.execLockInterfaceRequest head body s
  | .getDeviceInterfaceReport record => Sys2Proof.Machine.execGetDeviceInterfaceReport record s
  | .getDeviceInterfaceState record => Sys2Proof.Machine.execGetDeviceInterfaceState record s
  | .startInterfaceRequest record => Sys2Proof.Machine.execStartInterfaceRequest record s
  | .stopInterfaceRequest record => Sys2Proof.Machine.execStopInterfaceRequest record s
  | .lowWordRead off width => Sys2Proof.Machine.execLowWordRead off s width
  | .dtmValueLowRead width => Sys2Proof.Machine.execDtmValueLowRead width s
  | .rcRead off width => Sys2Proof.Machine.execRcRead off width s
  | .lowWordWrite off v => Sys2Proof.Machine.execLowWordWrite off v s
  | .highWordWrite off v => Sys2Proof.Machine.execHighWordWrite off v s
  | .registerWrite off width v => Sys2Proof.Machine.execRegisterWrite off width v s
  | .powerUp smbAddr => Sys2Proof.Machine.execPowerUp smbAddr s
  | .queueWindowAccess isWrite off len data ide poison => Sys2Proof.Machine.execQueueWindowAccess isWrite off len data ide poison s
  | .undefinedEncoding c w => Sys2Proof.Machine.execUndefinedEncoding c w s
  | .beatLeavesPipe c => Sys2Proof.Machine.execBeatLeavesPipe c s
  | .uncorrectableEccError u site => Sys2Proof.Machine.execUncorrectableEccError u site s
  | .hbmChannelFailure phy => Sys2Proof.Machine.execHbmChannelFailure phy s
  | .smbusTimeout => Sys2Proof.Machine.execSmbusTimeout s
  | .jtagAccess op => Sys2Proof.Machine.execJtagAccess op s
  | .identityChainProvisioning chain => Sys2Proof.Machine.execIdentityChainProvisioning chain s

end Sys2Proof.Machine
end

