-- ==== Sys2Proof/Safety.lean ====
section
/-! DEFINITION. What a safe run is: no step stops, and the datum keeps its bounds. -/

namespace Sys2Proof

open Machine

/-- The machine can take its next step: it neither faults nor refuses. -/
def safeNow (s : State) : Prop := ∃ t, step s = .next t

/-- `k` steps from `s` all answer a next state. -/
def safeFor : Nat → State → Prop
  | 0, _ => True
  | k + 1, s => ∃ t, step s = .next t ∧ safeFor k t

end Sys2Proof
end

