-- ==== Sys2Proof/Certificates/Slice0/Obligations.lean ====
section
/-! DEFINITION. The statements about the model: first the words they are written in, then one definition for each
statement. Every statement names the rule of spec/ that it says, or the log entry where it says a choice of the model. -/

namespace Sys2Proof.Claims

open Sys2Proof Sys2Proof.Machine

/-! ## Words that many statements use -/

/-- The command does exactly this: it answers the state given. -/
abbrev Gives (i : Instr) (s t : State) : Prop := exec i s = .next t

/-- A command that finds nothing to do leaves the state alone. -/
abbrev Idle (i : Instr) (s : State) : Prop := exec i s = .next s

/-- Outside the cores two states are the same. -/
def SameOutside (t b : State) : Prop := { t with cores := b.cores } = b

/-- `t` is `b` with core `c` changed to `k`, and nothing else changed. -/
def CoreOnly (t b : State) (c : Nat) (k : Core) : Prop :=
  t.core c = k ∧ (∀ d, d ≠ c → t.core d = b.core d) ∧ SameOutside t b

/-- Core `c` issues an instruction with guard field `g`: it exists, is not held in reset, halted or waiting, its PC can
be fetched from, and its guard or condition holds once what it depends on has been written (R289, R294 to R296, R308). -/
structure Runs (s : State) (c : Nat) (g : BitVec 4) : Prop where
  core : c < 69
  held : (s.core c).held = false
  halted : (s.core c).halted = false
  waiting : (s.core c).waiting = false
  fetch : fetchOk c (s.core c).pc = true
  guard : ((s.atGuard c g).core c).takes g = true

/-- The core runs in supervisor mode when the instruction passes its guard. -/
def Super (s : State) (c : Nat) (g : BitVec 4) : Prop := ((s.atGuard c g).core c).priv = true

/-- The state in which an instruction reads its operands: its interlocks are done (R296, R308, R317). -/
def before (s : State) (c : Nat) (g : BitVec 4) (reads writes : List (BitVec 5)) : State :=
  (s.atGuard c g).sync c reads writes

/-- The instruction's result: one x register takes `v` (x0 takes nothing), FL takes `fl`, PC takes `pc`, one cycle
passes, and nothing else changes (R289, R291). -/
def Writes (t b : State) (c : Nat) (rd : BitVec 5) (v : BitVec 64) (fl : BitVec 4) (pc : BitVec 64) : Prop :=
  (∀ r, (t.core c).gx r = if r = rd ∧ r ≠ 0 then v else (b.core c).gx r) ∧
  CoreOnly t b c { b.core c with x := (t.core c).x, fl := fl, pc := pc, cycle := (b.core c).cycle + 1 }

/-- A flags word: Z in bit 0, N in bit 1, C in bit 2, V in bit 3 (R291). -/
def flags (z n c v : Bool) : BitVec 4 := BitVec.ofBool v ++ BitVec.ofBool c ++ BitVec.ofBool n ++ BitVec.ofBool z

/-- Z and N of a result, with C and V kept (R300). -/
def zn (fl : BitVec 4) (r : BitVec 64) : BitVec 4 := flags (r == 0) r.msb (fl.getLsbD 2) (fl.getLsbD 3)

/-- The flags of a sum: C is the carry out, V that the signed sum does not fit (R300). -/
def sumFlags {w : Nat} (a b : BitVec w) (cin : Nat) : BitVec 4 :=
  let r := a + b + BitVec.ofNat w cin
  flags (r == 0) r.msb (decide (2 ^ w ≤ a.toNat + b.toNat + cin)) (decide (a.toInt + b.toInt + cin ≠ r.toInt))

/-- The flags of a difference: C is 1 when there is no borrow, V that the signed difference does not fit (R300). -/
def diffFlags {w : Nat} (a b : BitVec w) (borrow : Nat) : BitVec 4 :=
  let r := a - b - BitVec.ofNat w borrow
  flags (r == 0) r.msb (decide (b.toNat + borrow ≤ a.toNat)) (decide (a.toInt - b.toInt - borrow ≠ r.toInt))

/-- C as a number. -/
def carry (k : Core) : Nat := (k.fl.getLsbD 2).toNat

/-! ## Scalar instructions (R299 to R301) -/

/-- What a register instruction is made of: its core, guard field, the registers it waits for, and its results. -/
structure RegForm where
  c : Nat
  g : BitVec 4
  reads : List (BitVec 5)
  rd : BitVec 5
  value : Core → BitVec 64
  fl : Core → BitVec 4

/-- An immediate form: FL is kept. -/
def immForm (c : Nat) (g : BitVec 4) (rd rs1 : BitVec 5) (v : BitVec 64 → BitVec 64) : Option RegForm :=
  some ⟨c, g, [rs1], rd, fun k => v (k.gx rs1), Core.fl⟩

/-- A form that builds a constant: `reads` is rd where the old value counts. -/
def constForm (c : Nat) (g : BitVec 4) (rd : BitVec 5) (reads : List (BitVec 5)) (v : Core → BitVec 64) : Option RegForm :=
  some ⟨c, g, reads, rd, v, Core.fl⟩

/-- An ALU form whose C and V are kept: F selects whether Z and N are written. -/
def logicForm (c : Nat) (g : BitVec 4) (f : Bool) (rd rs1 rs2 : BitVec 5) (v : BitVec 64 → BitVec 64 → BitVec 64) :
    Option RegForm :=
  some ⟨c, g, [rs1, rs2], rd, fun k => v (k.gx rs1) (k.gx rs2),
    fun k => if f then zn k.fl (v (k.gx rs1) (k.gx rs2)) else k.fl⟩

/-- An ALU form that writes all of FL. -/
def arithForm (c : Nat) (g : BitVec 4) (f : Bool) (rd rs1 rs2 : BitVec 5) (v : Core → BitVec 64 → BitVec 64 → BitVec 64)
    (fl : Core → BitVec 64 → BitVec 64 → BitVec 4) : Option RegForm :=
  some ⟨c, g, [rs1, rs2], rd, fun k => v k (k.gx rs1) (k.gx rs2),
    fun k => if f then fl k (k.gx rs1) (k.gx rs2) else k.fl⟩

/-- The low half of a register. -/
def lo32 (a : BitVec 64) : BitVec 32 := a.setWidth 32

/-- The immediate of LDK and LDKH: zero-extended when h is 0, sign-extended when it is 1. -/
def extended (h : Bool) (imm : BitVec 16) : BitVec 64 := if h then imm.signExtend 64 else imm.setWidth 64

/-- The scalar instructions with a register or flag result, as the tables of R299 and R300 give them, and MFY (R304). -/
def scalarForm : Instr → Option RegForm
  | .addi c g rd rs1 imm => immForm c g rd rs1 fun a => a + imm.signExtend 64
  | .andi c g rd rs1 imm => immForm c g rd rs1 fun a => a &&& imm.signExtend 64
  | .ori c g rd rs1 imm => immForm c g rd rs1 fun a => a ||| imm.signExtend 64
  | .xori c g rd rs1 imm => immForm c g rd rs1 fun a => a ^^^ imm.signExtend 64
  | .ldk c g rd h imm => constForm c g rd [] fun _ => extended h imm
  | .ldkh c g rd h imm => constForm c g rd [] fun _ => extended h imm <<< 16
  | .shk c g rd imm => constForm c g rd [rd] fun k => (k.gx rd <<< 16) ||| imm.setWidth 64
  | .addk c g rd h imm => constForm c g rd [rd] fun k => k.gx rd + (imm.signExtend 64 <<< (if h then 16 else 0))
  | .slli c g rd rs1 sh => immForm c g rd rs1 fun a => a <<< sh.toNat
  | .srli c g rd rs1 sh => immForm c g rd rs1 fun a => a >>> sh.toNat
  | .srai c g rd rs1 sh => immForm c g rd rs1 fun a => a.sshiftRight sh.toNat
  | .rori c g rd rs1 sh => immForm c g rd rs1 fun a => a.rotateRight sh.toNat
  | .cmpi c g rs1 imm => some ⟨c, g, [rs1], 0, fun _ => 0, fun k => diffFlags (k.gx rs1) (imm.signExtend 64) 0⟩
  | .mfy c g rd ys => constForm c g rd [0, 0] fun k => k.gy ys
  | .addpc c g rd imm => constForm c g rd [] fun k => k.pc + imm.signExtend 64 * 4
  | .add c g f rd rs1 rs2 => arithForm c g f rd rs1 rs2 (fun _ a b => a + b) fun _ a b => sumFlags a b 0
  | .sub c g f rd rs1 rs2 => arithForm c g f rd rs1 rs2 (fun _ a b => a - b) fun _ a b => diffFlags a b 0
  | .and c g f rd rs1 rs2 => logicForm c g f rd rs1 rs2 fun a b => a &&& b
  | .or c g f rd rs1 rs2 => logicForm c g f rd rs1 rs2 fun a b => a ||| b
  | .xor c g f rd rs1 rs2 => logicForm c g f rd rs1 rs2 fun a b => a ^^^ b
  | .andn c g f rd rs1 rs2 => logicForm c g f rd rs1 rs2 fun a b => a &&& ~~~b
  | .sll c g f rd rs1 rs2 => logicForm c g f rd rs1 rs2 fun a b => a <<< (b.toNat % 64)
  | .srl c g f rd rs1 rs2 => logicForm c g f rd rs1 rs2 fun a b => a >>> (b.toNat % 64)
  | .sra c g f rd rs1 rs2 => logicForm c g f rd rs1 rs2 fun a b => a.sshiftRight (b.toNat % 64)
  | .ror c g f rd rs1 rs2 => logicForm c g f rd rs1 rs2 fun a b => a.rotateRight (b.toNat % 64)
  | .adc c g f rd rs1 rs2 => arithForm c g f rd rs1 rs2 (fun k a b => a + b + BitVec.ofNat 64 (carry k)) fun k a b => sumFlags a b (carry k)
  | .sbc c g f rd rs1 rs2 => arithForm c g f rd rs1 rs2 (fun k a b => a - b - BitVec.ofNat 64 (1 - carry k)) fun k a b => diffFlags a b (1 - carry k)
  | .addw c g f rd rs1 rs2 => arithForm c g f rd rs1 rs2 (fun _ a b => (lo32 (a + b)).signExtend 64) fun _ a b => sumFlags (lo32 a) (lo32 b) 0
  | .subw c g f rd rs1 rs2 => arithForm c g f rd rs1 rs2 (fun _ a b => (lo32 (a - b)).signExtend 64) fun _ a b => diffFlags (lo32 a) (lo32 b) 0
  | .min c g f rd rs1 rs2 => logicForm c g f rd rs1 rs2 fun a b => if a.toInt ≤ b.toInt then a else b
  | .max c g f rd rs1 rs2 => logicForm c g f rd rs1 rs2 fun a b => if a.toInt ≤ b.toInt then b else a
  | .minu c g f rd rs1 rs2 => logicForm c g f rd rs1 rs2 fun a b => if a.toNat ≤ b.toNat then a else b
  | .maxu c g f rd rs1 rs2 => logicForm c g f rd rs1 rs2 fun a b => if a.toNat ≤ b.toNat then b else a
  | .clz c g f rd rs1 => logicForm c g f rd rs1 0 fun a _ => BitVec.ofNat 64 (if a = 0 then 64 else 63 - a.toNat.log2)
  | .ctz c g f rd rs1 => logicForm c g f rd rs1 0 fun a _ => BitVec.ofNat 64 ((List.range 64).takeWhile fun i => !a.getLsbD i).length
  | .popc c g f rd rs1 => logicForm c g f rd rs1 0 fun a _ => BitVec.ofNat 64 ((List.range 64).filter fun i => a.getLsbD i).length
  | .bswap c g f rd rs1 => logicForm c g f rd rs1 0 fun a _ =>
      BitVec.ofNat 64 (leNat ((List.range 8).map fun i => (a >>> (8 * (7 - i))).setWidth 8))
  | _ => none

/-! ## Short vectors (R302) -/

/-- Element `i` of `w` bits of a packed word. -/
def element (w : Nat) (a : BitVec 64) (i : Nat) : BitVec w := (a >>> (w * i)).setWidth w

/-- A value brought into the signed range of `w` bits. -/
def satSigned (w : Nat) (v : Int) : BitVec w :=
  if v < -(2 ^ (w - 1)) then BitVec.intMin w else if 2 ^ (w - 1) - 1 < v then BitVec.intMax w else BitVec.ofInt w v

/-- A value brought into the unsigned range of `w` bits. -/
def satUnsigned (w : Nat) (v : Int) : BitVec w :=
  if v < 0 then 0 else if 2 ^ w - 1 < v then BitVec.allOnes w else BitVec.ofInt w v

/-- A short-vector instruction: element size selector, registers, and what it does to one pair of elements; `n` is the
shift count rs2[4:0]. -/
structure PackedForm where
  c : Nat
  g : BitVec 4
  es : BitVec 2
  rd : BitVec 5
  rs1 : BitVec 5
  rs2 : BitVec 5
  op : (w : Nat) → BitVec w → BitVec w → Nat → BitVec w

/-- The short-vector table of R302. -/
def packedForm : Instr → Option PackedForm
  | .padd c g es rd rs1 rs2 => some ⟨c, g, es, rd, rs1, rs2, fun _ a b _ => a + b⟩
  | .psub c g es rd rs1 rs2 => some ⟨c, g, es, rd, rs1, rs2, fun _ a b _ => a - b⟩
  | .padds c g es rd rs1 rs2 => some ⟨c, g, es, rd, rs1, rs2, fun w a b _ => satSigned w (a.toInt + b.toInt)⟩
  | .paddus c g es rd rs1 rs2 => some ⟨c, g, es, rd, rs1, rs2, fun w a b _ => satUnsigned w (a.toNat + b.toNat)⟩
  | .psubs c g es rd rs1 rs2 => some ⟨c, g, es, rd, rs1, rs2, fun w a b _ => satSigned w (a.toInt - b.toInt)⟩
  | .psubus c g es rd rs1 rs2 => some ⟨c, g, es, rd, rs1, rs2, fun w a b _ => satUnsigned w ((a.toNat : Int) - b.toNat)⟩
  | .pmull c g es rd rs1 rs2 => some ⟨c, g, es, rd, rs1, rs2, fun _ a b _ => a * b⟩
  | .pmulhu c g es rd rs1 rs2 => some ⟨c, g, es, rd, rs1, rs2, fun w a b _ => BitVec.ofNat w (a.toNat * b.toNat / 2 ^ w)⟩
  | .pcmpeq c g es rd rs1 rs2 => some ⟨c, g, es, rd, rs1, rs2, fun w a b _ => if a = b then BitVec.allOnes w else 0⟩
  | .pcmpgt c g es rd rs1 rs2 => some ⟨c, g, es, rd, rs1, rs2, fun w a b _ => if b.toInt < a.toInt then BitVec.allOnes w else 0⟩
  | .pmin c g es rd rs1 rs2 => some ⟨c, g, es, rd, rs1, rs2, fun _ a b _ => if a.toInt ≤ b.toInt then a else b⟩
  | .pmax c g es rd rs1 rs2 => some ⟨c, g, es, rd, rs1, rs2, fun _ a b _ => if a.toInt ≤ b.toInt then b else a⟩
  | .pminu c g es rd rs1 rs2 => some ⟨c, g, es, rd, rs1, rs2, fun _ a b _ => if a.toNat ≤ b.toNat then a else b⟩
  | .pmaxu c g es rd rs1 rs2 => some ⟨c, g, es, rd, rs1, rs2, fun _ a b _ => if a.toNat ≤ b.toNat then b else a⟩
  | .psll c g es rd rs1 rs2 => some ⟨c, g, es, rd, rs1, rs2, fun w a _ n => a <<< (n % w)⟩
  | .psrl c g es rd rs1 rs2 => some ⟨c, g, es, rd, rs1, rs2, fun w a _ n => a >>> (n % w)⟩
  | .psra c g es rd rs1 rs2 => some ⟨c, g, es, rd, rs1, rs2, fun w a _ n => a.sshiftRight (n % w)⟩
  | .pavgu c g es rd rs1 rs2 => some ⟨c, g, es, rd, rs1, rs2, fun w a b _ => BitVec.ofNat w ((a.toNat + b.toNat + 1) / 2)⟩
  | _ => none

/-! ## Guards and the multiplier (R303 to R306) -/

/-- A guard instruction: the registers and guards it waits for, and the value of gd. -/
structure GuardForm where
  c : Nat
  g : BitVec 4
  reads : List (BitVec 5)
  guards : List (BitVec 3)
  gd : BitVec 3
  value : Core → Bool

/-- The guard instructions of R303. -/
def guardForm : Instr → Option GuardForm
  | .gcmp c g gd rs1 rs2 cc => some ⟨c, g, [rs1, rs2], [], gd, fun k => condHolds cc (diffFlags (k.gx rs1) (k.gx rs2) 0)⟩
  | .gset c g gd cc => some ⟨c, g, [], [], gd, fun k => condHolds cc k.fl⟩
  | .gand c g gd gs1 gs2 i1 i2 => some ⟨c, g, [], [gs1, gs2], gd, fun k => (k.readG gs1 != i1) && (k.readG gs2 != i2)⟩
  | .gor c g gd gs1 gs2 i1 i2 => some ⟨c, g, [], [gs1, gs2], gd, fun k => (k.readG gs1 != i1) || (k.readG gs2 != i2)⟩
  | .gxor c g gd gs1 gs2 i1 i2 => some ⟨c, g, [], [gs1, gs2], gd, fun k => (k.readG gs1 != i1) != (k.readG gs2 != i2)⟩
  | .gfromx c g gd rs1 inv => some ⟨c, g, [rs1], [], gd, fun k => (k.gx rs1).getLsbD 0 != inv⟩
  | _ => none

/-- A guard write: all 256 bits of gd take the value and gd is written; a write of g0 is discarded (R291, R303, R322). -/
def WritesGuard (t b : State) (c : Nat) (gd : BitVec 3) (v : Bool) : Prop :=
  let k := b.core c
  (∀ n, (t.core c).gvec n = if n = gd ∧ n ≠ 0 then (if v then BitVec.allOnes 256 else 0) else k.gvec n) ∧
  (∀ n, (t.core c).written n = (k.written n || decide (n = gd))) ∧
  CoreOnly t b c { k with gv := (t.core c).gv, init := (t.core c).init, pc := k.pc + 4, cycle := k.cycle + 1 }

/-- One register write of a multiplier instruction, with its latency. -/
structure MulOut where
  toY : Bool
  reg : Nat
  value : Core → BitVec 64
  latency : Nat

/-- A multiplier instruction and the writes it starts. -/
structure MulForm where
  c : Nat
  g : BitVec 4
  reads : List (BitVec 5)
  rd : BitVec 5
  outs : List MulOut

/-- The low half to rd and the high half to yd; an rd of zero takes nothing. -/
def wideOuts (yd : BitVec 2) (rd : BitVec 5) (p : Core → BitVec 128) : List MulOut :=
  ⟨true, yd.toNat, fun k => (p k >>> 64).setWidth 64, 4⟩ :: if rd = 0 then [] else [⟨false, rd.toNat, fun k => (p k).setWidth 64, 4⟩]

/-- The multiplier table of R304, MFY apart. -/
def mulForm : Instr → Option MulForm
  | .mul64 c g yd rs1 rs2 => some ⟨c, g, [rs1, rs2], 0, [⟨true, yd.toNat, fun k => k.gx rs1 * k.gx rs2, 3⟩]⟩
  | .mulw c g yd rd rs1 rs2 => some ⟨c, g, [rs1, rs2], rd, wideOuts yd rd fun k => (k.gx rs1).setWidth 128 * (k.gx rs2).setWidth 128⟩
  | .mulws c g yd rd rs1 rs2 => some ⟨c, g, [rs1, rs2], rd, wideOuts yd rd fun k => (k.gx rs1).signExtend 128 * (k.gx rs2).signExtend 128⟩
  | .mulm c g yd rs1 rs2 => some ⟨c, g, [rs1, rs2], 0, [⟨true, yd.toNat, fun k =>
      BitVec.ofNat 64 (if k.qmod.toNat < 2 then 0 else (lo32 (k.gx rs1)).toNat * (lo32 (k.gx rs2)).toNat % k.qmod.toNat), 5⟩]⟩
  | .mty c g yd rs1 => some ⟨c, g, [rs1, 0], 0, [⟨true, yd.toNat, fun k => k.gx rs1, 1⟩]⟩
  | _ => none

/-- The cycle at which a write issued now lands: i + L, or that of an earlier write of the same register that lands
later (R305, R306). -/
def landing (k : Core) (o : MulOut) : Nat :=
  (k.mulq.filter fun m => m.toY == o.toY && m.reg == o.reg).foldl (fun a m => max a m.land) (k.cycle + o.latency)

/-- The writes that an instruction has started. -/
def started (k : Core) (outs : List MulOut) : List MulWrite :=
  outs.map fun o => { land := landing k o, toY := o.toY, reg := o.reg, val := o.value k }

/-- The last pending write of a register that has landed by cycle `i`. -/
def landed (k : Core) (i : Nat) (toY : Bool) (reg : Nat) : Option MulWrite :=
  (k.mulq.filter fun m => decide (m.land ≤ i) && m.toY == toY && m.reg == reg).getLast?

/-! ## Memory, branches, system registers (R298, R299, R308, R309) -/

/-- The octets of a load's access. -/
def loadSize (sz : BitVec 3) : Nat := 2 ^ (sz.toNat / 2)

/-- A load's value: sz 0, 2 and 4 are sign-extended, 1, 3 and 5 zero-extended, and 6 is the whole word (R299). -/
def loadExtend (sz : BitVec 3) (v : Nat) : BitVec 64 :=
  match sz.toNat with
  | 0 => (BitVec.ofNat 8 v).signExtend 64
  | 2 => (BitVec.ofNat 16 v).signExtend 64
  | 4 => (BitVec.ofNat 32 v).signExtend 64
  | _ => BitVec.ofNat 64 v

/-- The address of a load: rs1 + sext(imm9) × size. -/
def loadAddr (k : Core) (sz : BitVec 3) (rs1 : BitVec 5) (imm : BitVec 9) : BitVec 64 :=
  k.gx rs1 + imm.signExtend 64 * BitVec.ofNat 64 (loadSize sz)

/-- The address of a store: rs1 + sext(imm10) × size. -/
def storeAddr (k : Core) (sz : BitVec 2) (rs1 : BitVec 5) (imm : BitVec 10) : BitVec 64 :=
  k.gx rs1 + imm.signExtend 64 * BitVec.ofNat 64 (2 ^ sz.toNat)

/-- The number that `n` octets of a place hold, little-endian. -/
def octets (s : State) (c : Nat) (p : Place) (a n : Nat) : Nat := leNat ((List.range n).map fun i => s.placeByte c p (a + i))

/-- A place that holds octets and that a store may reach: data SRAM, eMRAM, HBM, a sheet's context and scratch. -/
def memoryPlace (p : Place) : Prop := p = .data ∨ p = .emram ∨ p = .hbm ∨ p = .context

/-- The address lies in a record or an extent of the key vault (R26). -/
def inVault (s : State) (p : Place) (a : Nat) : Prop := p = .hbm ∧ (s.vaultAt (a - 0x10000000000)).isSome = true

/-- The contexts of two states are the same but for what the cores have stored in them. -/
def ContextsButMemory (t b : State) : Prop :=
  ∀ i, (t.ctxs.find i).map (fun x => { x with mem := [] }) = (b.ctxs.find i).map (fun x => { x with mem := [] })

/-- What the low bits of a system register keep of a value written to it (R292, R309, R321, R335). -/
def sysKeeps (s : State) (c n : Nat) (v : BitVec 64) : Option (BitVec 64) :=
  let k := s.core c
  let lo := fun (i : Nat) => BitVec.ofNat 64 (v.toNat % 2 ^ i)
  match n with
  | 0x000 => some ({ k with priv := v.getLsbD 0, ie := v.getLsbD 1, exl := v.getLsbD 2, curPrio := (v >>> 8).setWidth 5 }).pstate
  | 0x001 => some v
  | 0x002 => some v
  | 0x003 => some (v &&& 0x07FF01FF)
  | 0x004 => some v
  | 0x005 => some (v - lo 10)
  | 0x006 => some (if k.recovLocked then k.recovVec else v - lo 2)
  | 0x007 => some k.dfpc
  | 0x008 => some (k.dfcause.setWidth 64)
  | 0x00A => some (lo 4)
  | 0x015 => some (lo 32)
  | 0x020 => some (lo 32)
  | 0x100 => some (BitVec.ofNat 64 (Nat.min (v.toNat % 512) 256))
  | 0x101 => some (lo 1)
  | 0x102 => some (lo 3)
  | 0x103 => some (BitVec.ofNat 64 k.vfaultIdx)
  | 0x200 => some (lo 32)
  | 0x201 => some (lo 6)
  | 0x202 => some (lo 32)
  | 0x203 => some (lo 32)
  | 0x220 => some (lo 21)
  | 0x222 => some (lo 32)
  | 0x230 => some (lo 17)
  | 0x231 => some (lo 32)
  | 0x232 => some (lo 9)
  | 0x233 => some (lo 32)
  | 0x250 => some (lo 32)
  | _ => none

/-! ## Coprocessor commands (R316 to R318, R336, R337) -/

/-- A coprocessor command: coprocessor, cfunc, and registers. -/
structure CpForm where
  c : Nat
  g : BitVec 4
  p : Nat
  fn : Nat
  rd : BitVec 5
  rs1 : BitVec 5
  rs2 : BitVec 5

/-- The command tables of R318 and R336, RP.MASKV apart. -/
def cpForm : Instr → Option CpForm
  | .bnlaunch c g rd rs1 rs2 => some ⟨c, g, 6, 1, rd, rs1, rs2⟩
  | .bnpoll c g rd rs1 => some ⟨c, g, 6, 2, rd, rs1, 0⟩
  | .bnclear c g rs1 => some ⟨c, g, 6, 3, 0, rs1, 0⟩
  | .nttFwd c g rs1 => some ⟨c, g, 0, 1, 0, rs1, 0⟩
  | .nttInv c g rs1 => some ⟨c, g, 0, 2, 0, rs1, 0⟩
  | .nttPmul c g rs1 rs2 => some ⟨c, g, 0, 3, 0, rs1, rs2⟩
  | .nttPmacc c g rs1 rs2 => some ⟨c, g, 0, 4, 0, rs1, rs2⟩
  | .hInit c g => some ⟨c, g, 1, 1, 0, 0, 0⟩
  | .hAbsorb c g rs1 rs2 => some ⟨c, g, 1, 2, 0, rs1, rs2⟩
  | .hFinal c g => some ⟨c, g, 1, 3, 0, 0, 0⟩
  | .hSqueeze c g rs1 rs2 => some ⟨c, g, 1, 4, 0, rs1, rs2⟩
  | .hSave c g rs1 => some ⟨c, g, 1, 5, 0, rs1, 0⟩
  | .hLoad c g rs1 => some ⟨c, g, 1, 6, 0, rs1, 0⟩
  | .smpUnif c g rs1 rs2 => some ⟨c, g, 2, 1, 0, rs1, rs2⟩
  | .smpCbd c g rs1 rs2 => some ⟨c, g, 2, 2, 0, rs1, rs2⟩
  | .smpBound c g rs1 rs2 => some ⟨c, g, 2, 3, 0, rs1, rs2⟩
  | .smpBall c g rs1 => some ⟨c, g, 2, 4, 0, rs1, 0⟩
  | .bfMulv c g rs1 rs2 => some ⟨c, g, 3, 1, 0, rs1, rs2⟩
  | .bfMatvec c g rs1 rs2 => some ⟨c, g, 3, 2, 0, rs1, rs2⟩
  | .bfEval c g rs1 rs2 => some ⟨c, g, 3, 3, 0, rs1, rs2⟩
  | .bfBmstep c g rs1 rs2 => some ⟨c, g, 3, 4, 0, rs1, rs2⟩
  | .kpSel c g rd rs1 => some ⟨c, g, 4, 1, rd, rs1, 0⟩
  | .kpAbsorb c g rs1 rs2 => some ⟨c, g, 4, 2, 0, rs1, rs2⟩
  | .kpBfload c g rs1 rs2 => some ⟨c, g, 4, 3, 0, rs1, rs2⟩
  | .kpDrop c g => some ⟨c, g, 4, 4, 0, 0, 0⟩
  | .rpMseed c g => some ⟨c, g, 5, 1, 0, 0, 0⟩
  | .rpDraw c g rs1 => some ⟨c, g, 5, 2, 0, rs1, 0⟩
  | _ => none

/-- The commands whose value goes to an x register: BNLAUNCH, BNPOLL and KP.SEL. -/
def returns (p fn : Nat) : Bool := (p == 6 && (fn == 1 || fn == 2)) || (p == 4 && fn == 1)

/-- The coprocessors of a core (R289): 0 to 5 on a sheet, 6 on a region core, none on the chief. -/
def present (c p : Nat) : Prop := (5 ≤ c ∧ p ≤ 5) ∨ (1 ≤ c ∧ c ≤ 4 ∧ p = 6)

/-- The state from which a command joins its queue: its registers are there, and the queue has room (R317). -/
def beforeIssue (s : State) (c : Nat) (g : BitVec 4) (p : Nat) (reads writes : List (BitVec 5)) : State :=
  State.cpWait c p (fun k => decide (8 ≤ (k.cp p).queue.length)) cpFuel (before s c g reads writes)

/-- A command joins the queue of coprocessor `p` and the core goes on; no other queue and nothing else changes. -/
def Joins (t b : State) (c p : Nat) (m : CpCmd) : Prop :=
  let k := b.core c
  (∀ q, (t.core c).cp q = if q = p then { k.cp p with queue := (k.cp p).queue ++ [m] } else k.cp q) ∧
  CoreOnly t b c { k with cps := (t.core c).cps, issues := k.issues + 1, pc := k.pc + 4, cycle := k.cycle + 1 }

/-- The command as it stands in the queue: operands, VL and configuration are those of its issue (R335, R337). -/
def cpCmd (k : Core) (fn rd : Nat) (a b : BitVec 64) : CpCmd :=
  { seq := k.issues, issued := k.cycle, fn := fn, rd := rd, a := a, b := b, vl := k.vl, cfg := k.cpCfg }

/-! ## Long vectors (R319 to R334) -/

/-- The state in which a vector instruction finds its scalar operands: RP.MASKV commands that write its v registers have
ended (R337). -/
def beforeVec (s : State) (c : Nat) (g : BitVec 4) (xr xw : List (BitVec 5)) (vr : List Nat) : State :=
  State.cpWait c 5 (Core.awaitsV vr) cpFuel (before s c g xr xw)

/-- An elementwise or permutation instruction: its pipe, depth and operands, the value of element e (none: it is left
undisturbed), and the status bits that it sets. -/
structure VecForm where
  c : Nat
  g : BitVec 4
  xr : List (BitVec 5)
  srcs : List Nat
  vd : BitVec 5
  vm : BitVec 3
  pipe : Pipe
  depth : Nat
  value : Core → Nat → Option (BitVec 32)
  sat : Core → Nat → Bool
  qerr : Core → Bool

/-- The timing of a vector arithmetic instruction: beat k leaves P − 1 cycles after it starts; a permutation's source is
not chained (R325, R326). -/
def VecForm.shape (f : VecForm) : VecShape :=
  let m := if f.vm = 0 then [] else [32 + f.vm.toNat]
  { pipe := f.pipe, srcs := (if f.pipe = .vperm then [] else f.srcs), late := (if f.pipe = .vperm then f.srcs ++ m else m)
    dst := some f.vd.toNat, lat := fun i => i + f.depth - 1, occupy := id, unitLoad := false }

/-- Element e is active: below VL, with its mask bit 1 (R320, R322). -/
def isActive (k : Core) (vm : BitVec 3) (e : Nat) : Prop := e < k.vl ∧ (k.mask vm).getLsbD e = true

/-- The second operand of an arithmetic instruction: element e of vs2, or bits [31:0] of an x register (R324). -/
def operandB (k : Core) (x : Bool) (vs2 : BitVec 5) (e : Nat) : BitVec 32 :=
  if x then (k.gx vs2).setWidth 32 else k.elem vs2 e

/-- A two-operand instruction without status bits. -/
def twoOp (c : Nat) (g : BitVec 4) (x : Bool) (vd vs1 vs2 : BitVec 5) (vm : BitVec 3) (p : Pipe) (depth : Nat)
    (op : BitVec 32 → BitVec 32 → BitVec 32) : Option VecForm :=
  some ⟨c, g, if x then [vs2] else [], vs1.toNat :: (if x then [] else [vs2.toNat]), vd, vm, p, depth,
    fun k e => some (op (k.elem vs1 e) (operandB k x vs2 e)), fun _ _ => false, fun _ => false⟩

/-- A modular instruction cannot use QMOD: it is below 2, or even in the Montgomery form of a product (R328). -/
def unusable (k : Core) (product : Bool) : Bool :=
  decide (k.qmod.toNat < 2) || (product && k.vcfg && decide (k.qmod.toNat % 2 = 0))

/-- A modular two-operand instruction: with an unusable QMOD it gives 0 and sets QERR (R328). -/
def modOp (c : Nat) (g : BitVec 4) (x : Bool) (vd vs1 vs2 : BitVec 5) (more : List Nat) (vm : BitVec 3) (p : Pipe)
    (depth : Nat) (product : Bool) (op : Core → Nat → Int → Int → Int → Int) : Option VecForm :=
  some ⟨c, g, if x then [vs2] else [], vs1.toNat :: ((if x then [] else [vs2.toNat]) ++ more), vd, vm, p, depth,
    fun k e => some (if unusable k product then 0
      else BitVec.ofInt 32 (op k e k.qmod.toNat (k.elem vs1 e).toNat (operandB k x vs2 e).toNat % (k.qmod.toNat : Int))),
    fun _ _ => false, fun k => unusable k product⟩

/-- A one-operand instruction of major 0x22. -/
def oneOp (c : Nat) (g : BitVec 4) (vd vs1 : BitVec 5) (vm : BitVec 3) (op : BitVec 32 → BitVec 32) (sat : Bool) :
    Option VecForm :=
  some ⟨c, g, [], [vs1.toNat], vd, vm, .valu, 1, fun k e => some (op (k.elem vs1 e)),
    fun k e => sat && op (k.elem vs1 e) != k.elem vs1 e, fun _ => false⟩

/-- A shift right by n with rounding to nearest, ties up (R329). -/
def roundShift (n : Nat) (a : Int) : BitVec 32 := BitVec.ofInt 32 (if n = 0 then a else (a + 2 ^ (n - 1)) / 2 ^ n)

/-- A signed word brought into a range (R329). -/
def inRange (lo hi : Int) (a : BitVec 32) : BitVec 32 := BitVec.ofInt 32 (if a.toInt < lo then lo else if hi < a.toInt then hi else a.toInt)

/-- The rounded signed high product of VMULHR.S before its one overflow is clipped (R329). -/
def mulRound (a b : BitVec 32) : Int := (a.toInt * b.toInt + 2 ^ 30) / 2 ^ 31

/-- The product of VMULM and VMACM: plain, or in Montgomery form, times the inverse of 2^32 modulo an odd q (R328). -/
def mulMod (k : Core) (q a b : Int) : Int := a * b * (if k.vcfg then ((q + 1) / 2) ^ 32 else 1)

/-- A permutation; its source is never chained. -/
def permOp (c : Nat) (g : BitVec 4) (xr : List (BitVec 5)) (srcs : List Nat) (vd : BitVec 5) (vm : BitVec 3)
    (value : Core → Nat → Option (BitVec 32)) (qerr : Core → Bool) : Option VecForm :=
  some ⟨c, g, xr, srcs, vd, vm, .vperm, 2, value, fun _ _ => false, qerr⟩

/-- The low `b` bits of e in reverse order. -/
def reversed (b e : Nat) : Nat := ((List.range b).map fun i => if e.testBit i then 2 ^ (b - 1 - i) else 0).sum

/-- The arithmetic and permutation instructions of R324, R328 to R330, in the encodings that are not ILLEGAL. -/
def vecForm : Instr → Option VecForm
  | .vadd c g x vd vs1 vs2 vm => twoOp c g x vd vs1 vs2 vm .valu 1 fun a b => a + b
  | .vsub c g x vd vs1 vs2 vm => twoOp c g x vd vs1 vs2 vm .valu 1 fun a b => a - b
  | .vand c g x vd vs1 vs2 vm => twoOp c g x vd vs1 vs2 vm .valu 1 fun a b => a &&& b
  | .vor c g x vd vs1 vs2 vm => twoOp c g x vd vs1 vs2 vm .valu 1 fun a b => a ||| b
  | .vxor c g x vd vs1 vs2 vm => twoOp c g x vd vs1 vs2 vm .valu 1 fun a b => a ^^^ b
  | .vandn c g x vd vs1 vs2 vm => twoOp c g x vd vs1 vs2 vm .valu 1 fun a b => a &&& ~~~b
  | .vsll c g x vd vs1 vs2 vm => twoOp c g x vd vs1 vs2 vm .valu 1 fun a b => a <<< (b.toNat % 32)
  | .vsrl c g x vd vs1 vs2 vm => twoOp c g x vd vs1 vs2 vm .valu 1 fun a b => a >>> (b.toNat % 32)
  | .vsra c g x vd vs1 vs2 vm => twoOp c g x vd vs1 vs2 vm .valu 1 fun a b => a.sshiftRight (b.toNat % 32)
  | .vmin c g x vd vs1 vs2 vm => twoOp c g x vd vs1 vs2 vm .valu 1 fun a b => if a.toInt ≤ b.toInt then a else b
  | .vmax c g x vd vs1 vs2 vm => twoOp c g x vd vs1 vs2 vm .valu 1 fun a b => if a.toInt ≤ b.toInt then b else a
  | .vminu c g x vd vs1 vs2 vm => twoOp c g x vd vs1 vs2 vm .valu 1 fun a b => if a.toNat ≤ b.toNat then a else b
  | .vmaxu c g x vd vs1 vs2 vm => twoOp c g x vd vs1 vs2 vm .valu 1 fun a b => if a.toNat ≤ b.toNat then b else a
  | .vaddm c g x vd vs1 vs2 vm => modOp c g x vd vs1 vs2 [] vm .valu 1 false fun _ _ _ a b => a + b
  | .vsubm c g x vd vs1 vs2 vm => modOp c g x vd vs1 vs2 [] vm .valu 1 false fun _ _ _ a b => a - b
  | .vnegm c g vd vs1 vm => some ⟨c, g, [], [vs1.toNat], vd, vm, .valu, 1,
      fun k e => some (if unusable k false then 0 else BitVec.ofInt 32 (-((k.elem vs1 e).toNat : Int) % (k.qmod.toNat : Int))),
      fun _ _ => false, fun k => unusable k false⟩
  | .vsrrU c g vd vs1 n vm => oneOp c g vd vs1 vm (fun a => roundShift n.toNat a.toNat) false
  | .vsrrS c g vd vs1 n vm => oneOp c g vd vs1 vm (fun a => roundShift n.toNat a.toInt) false
  | .vsatU c g vd vs1 n vm => oneOp c g vd vs1 vm (inRange 0 (2 ^ (n.toNat + 1) - 1)) true
  | .vsatS c g vd vs1 n vm => if n = 0 then none else oneOp c g vd vs1 vm (inRange (-(2 ^ n.toNat)) (2 ^ n.toNat - 1)) true
  | .vmul c g x vd vs1 vs2 vm => twoOp c g x vd vs1 vs2 vm .vmul 3 fun a b => a * b
  | .vmulhu c g x vd vs1 vs2 vm => twoOp c g x vd vs1 vs2 vm .vmul 3 fun a b => BitVec.ofNat 32 (a.toNat * b.toNat / 2 ^ 32)
  | .vmulhrU c g x vd vs1 vs2 vm => twoOp c g x vd vs1 vs2 vm .vmul 3 fun a b => BitVec.ofNat 32 ((a.toNat * b.toNat + 2 ^ 31) / 2 ^ 32)
  | .vmulhrS c g x vd vs1 vs2 vm => some ⟨c, g, if x then [vs2] else [], vs1.toNat :: (if x then [] else [vs2.toNat]), vd, vm, .vmul, 3,
      fun k e => let v := mulRound (k.elem vs1 e) (operandB k x vs2 e); some (if 2 ^ 31 ≤ v then BitVec.intMax 32 else BitVec.ofInt 32 v),
      fun k e => decide (2 ^ 31 ≤ mulRound (k.elem vs1 e) (operandB k x vs2 e)), fun _ => false⟩
  | .vmulm c g x vd vs1 vs2 vm => modOp c g x vd vs1 vs2 [] vm .vmul 4 true fun k _ q a b => mulMod k q a b
  | .vmacm c g x vd vs1 vs2 vm => modOp c g x vd vs1 vs2 [vd.toNat] vm .vmul 4 true fun k e q a b => (k.elem vd e).toNat + mulMod k q a b
  | .vmv c g vd vs1 vm => permOp c g [] [vs1.toNat] vd vm (fun k e => some (k.elem vs1 e)) fun _ => false
  | .vsplat c g vd xs vm => permOp c g [xs] [] vd vm (fun k _ => some ((k.gx xs).setWidth 32)) fun _ => false
  | .vslideup c g vd vs1 xs vm => permOp c g [xs] [vs1.toNat] vd vm
      (fun k e => if (k.gx xs).toNat ≤ e then some (k.elem vs1 (e - (k.gx xs).toNat)) else none) fun _ => false
  | .vslidedn c g vd vs1 xs vm => permOp c g [xs] [vs1.toNat] vd vm
      (fun k e => some (if e + (k.gx xs).toNat ≥ 256 then 0 else k.elem vs1 (e + (k.gx xs).toNat))) fun _ => false
  | .vbrev c g vd vs1 n vm => if n.toNat < 1 ∨ 8 < n.toNat then none else permOp c g [] [vs1.toNat] vd vm
      (fun k e => if e < 2 ^ n.toNat then some (k.elem vs1 (reversed n.toNat e)) else none) fun _ => false
  | .vcomp c g vd vs1 n vm => if n.toNat < 1 ∨ 12 < n.toNat then none else permOp c g [] [vs1.toNat] vd vm
      (fun k e => some (if unusable k false then 0 else BitVec.ofNat 32
        ((2 ^ (n.toNat + 1) * ((k.elem vs1 e).toNat % k.qmod.toNat) + k.qmod.toNat) / (2 * k.qmod.toNat) % 2 ^ n.toNat)))
      fun k => unusable k false
  | .vdecomp c g vd vs1 n vm => if n.toNat < 1 ∨ 12 < n.toNat then none else permOp c g [] [vs1.toNat] vd vm
      (fun k e => some (if unusable k false then 0 else BitVec.ofNat 32
        ((2 * k.qmod.toNat * ((k.elem vs1 e).toNat % 2 ^ n.toNat) + 2 ^ n.toNat) / 2 ^ (n.toNat + 1))))
      fun k => unusable k false
  | _ => none

/-- A vector compare and its test (R324). -/
structure CmpForm where
  c : Nat
  g : BitVec 4
  x : Bool
  gd : BitVec 3
  vs1 : BitVec 5
  vs2 : BitVec 5
  vm : BitVec 3
  holds : BitVec 32 → BitVec 32 → Bool

/-- The compares of majors 0x26 and 0x27. -/
def cmpForm : Instr → Option CmpForm
  | .vcmpeq c g x gd vs1 vs2 vm => some ⟨c, g, x, gd, vs1, vs2, vm, fun a b => decide (a = b)⟩
  | .vcmpne c g x gd vs1 vs2 vm => some ⟨c, g, x, gd, vs1, vs2, vm, fun a b => decide (a ≠ b)⟩
  | .vcmpltu c g x gd vs1 vs2 vm => some ⟨c, g, x, gd, vs1, vs2, vm, fun a b => decide (a.toNat < b.toNat)⟩
  | .vcmpgeu c g x gd vs1 vs2 vm => some ⟨c, g, x, gd, vs1, vs2, vm, fun a b => decide (b.toNat ≤ a.toNat)⟩
  | .vcmplt c g x gd vs1 vs2 vm => some ⟨c, g, x, gd, vs1, vs2, vm, fun a b => decide (a.toInt < b.toInt)⟩
  | .vcmpge c g x gd vs1 vs2 vm => some ⟨c, g, x, gd, vs1, vs2, vm, fun a b => decide (b.toInt ≤ a.toInt)⟩
  | _ => none

/-- The timing of a compare: the VALU, into the guard unless it is g0 (R325). -/
def CmpForm.shape (f : CmpForm) : VecShape :=
  { pipe := .valu, srcs := f.vs1.toNat :: (if f.x then [] else [f.vs2.toNat]), late := if f.vm = 0 then [] else [32 + f.vm.toNat]
    dst := if f.gd = 0 then none else some (32 + f.gd.toNat), lat := fun i => i, occupy := id, unitLoad := false }

/-- A vector memory instruction: registers, the timing class of its access, its addresses, and whether it stores (R331,
R333). -/
structure VmemForm where
  c : Nat
  g : BitVec 4
  sz : BitVec 2
  v : BitVec 5
  xr : List (BitVec 5)
  vr : List Nat
  vm : BitVec 3
  store : Bool
  access : Core → Access
  srcs : List Nat
  ff : Bool
  addr : Core → Nat → BitVec 64

/-- The address of element e of a strided access: x[rs1] + e × stride, the element size when rs2 is x0 (R331). -/
def lineAddr (sz : BitVec 2) (rs1 rs2 : BitVec 5) (k : Core) (e : Nat) : BitVec 64 :=
  k.gx rs1 + BitVec.ofNat 64 e * (if rs2 = 0 then BitVec.ofNat 64 (2 ^ sz.toNat) else k.gx rs2)

/-- The address of element e of an indexed access: x[rs1] + zext(vs2[e]) × size (R333). -/
def indexedAddr (sz : BitVec 2) (rs1 vs2 : BitVec 5) (k : Core) (e : Nat) : BitVec 64 :=
  k.gx rs1 + BitVec.ofNat 64 ((k.elem vs2 e).toNat * 2 ^ sz.toNat)

/-- The vector memory instructions with a legal element size. -/
def vmemForm : Instr → Option VmemForm
  | .vld c g sz v rs1 rs2 vm => if sz = 3 then none else
      some ⟨c, g, sz, v, [rs1, rs2], [v.toNat], vm, false, fun k => accessOf rs2 (k.gx rs1), [], false, lineAddr sz rs1 rs2⟩
  | .vst c g sz v rs1 rs2 vm => if sz = 3 then none else
      some ⟨c, g, sz, v, [rs1, rs2], [v.toNat], vm, true, fun k => accessOf rs2 (k.gx rs1), [v.toNat], false, lineAddr sz rs1 rs2⟩
  | .vgather c g sz v rs1 vs2 vm => if sz = 3 then none else
      some ⟨c, g, sz, v, [rs1], [v.toNat, vs2.toNat], vm, false, fun _ => .strided, [vs2.toNat], false, indexedAddr sz rs1 vs2⟩
  | .vgatherFf c g sz v rs1 vs2 vm => if sz = 3 then none else
      some ⟨c, g, sz, v, [rs1], [v.toNat, vs2.toNat], vm, false, fun _ => .strided, [vs2.toNat], true, indexedAddr sz rs1 vs2⟩
  | .vscatter c g sz v rs1 vs2 vm => if sz = 3 then none else
      some ⟨c, g, sz, v, [rs1], [v.toNat, vs2.toNat], vm, true, fun _ => .strided, [v.toNat, vs2.toNat], false, indexedAddr sz rs1 vs2⟩
  | _ => none

/-- An element passes the check of R332: it is aligned to its size and lies in sheet SRAM, or, for a unit-stride access,
in the operation context or the scratch window. -/
def elementOk (x : Access) (sz : BitVec 2) (addr : BitVec 64) : Prop :=
  let a := addr.toNat
  let n := 2 ^ sz.toNat
  a % n = 0 ∧ (0x200000 ≤ a ∧ a + n ≤ 0x240000 ∨
    x ≠ .strided ∧ (0x300000 ≤ a ∧ a + n ≤ 0x304000 ∨ 0x400000 ≤ a ∧ a + n ≤ 0x500000))

/-- The core once the instruction may start, and what it then sees: every beat in flight written (R326). -/
def VmemForm.waited (f : VmemForm) (b : State) : Core :=
  let k := b.core f.c
  let dst := if f.store then none else some f.v.toNat
  k.vecWait (memShape (f.access k) f.store b.free (beatsOf k.vl) (f.srcs ++ maskReg f.vm) dst)

/-- The element that a load brings: its octets, zero-extended. -/
def loadedElement (s : State) (c : Nat) (sz : BitVec 2) (a : BitVec 64) : BitVec 32 :=
  BitVec.ofNat 32 (leNat ((List.range (2 ^ sz.toNat)).map fun i => s.vecByte c (a.toNat + i)))

/-- An address of a sheet's SRAM or of its windows. -/
def sheetPlace (y : Nat) : Prop :=
  (0x200000 ≤ y ∧ y < 0x240000) ∨ (0x300000 ≤ y ∧ y < 0x304000) ∨ (0x400000 ≤ y ∧ y < 0x500000)

/-- The state whose free values an access has used up: one for each beat that HBM returns (log 80). -/
def drawnBy (x : Access) (b : State) (c : Nat) : State :=
  if x = .slow then { b with free := b.free + beatsOf (b.core c).vl } else b

/-- The core and the guard field of every instruction of the cores, UNDEFINED_ENCODING apart. -/
def guarded : Instr → Option (Nat × BitVec 4)
  | .addi c g _ _ _ => some (c, g)
  | .andi c g _ _ _ => some (c, g)
  | .ori c g _ _ _ => some (c, g)
  | .xori c g _ _ _ => some (c, g)
  | .ldk c g _ _ _ => some (c, g)
  | .ldkh c g _ _ _ => some (c, g)
  | .shk c g _ _ => some (c, g)
  | .addk c g _ _ _ => some (c, g)
  | .slli c g _ _ _ => some (c, g)
  | .srli c g _ _ _ => some (c, g)
  | .srai c g _ _ _ => some (c, g)
  | .rori c g _ _ _ => some (c, g)
  | .cmpi c g _ _ => some (c, g)
  | .addpc c g _ _ => some (c, g)
  | .ld c g _ _ _ _ => some (c, g)
  | .st c g _ _ _ _ => some (c, g)
  | .b c g _ => some (c, g)
  | .bl c g _ => some (c, g)
  | .jr c g _ _ _ => some (c, g)
  | .sysrd c g _ _ => some (c, g)
  | .syswr c g _ _ => some (c, g)
  | .fence c g => some (c, g)
  | .eret c g => some (c, g)
  | .wfi c g => some (c, g)
  | .plainx c g => some (c, g)
  | .plaine c g => some (c, g)
  | .trap c g _ => some (c, g)
  | .add c g _ _ _ _ => some (c, g)
  | .sub c g _ _ _ _ => some (c, g)
  | .and c g _ _ _ _ => some (c, g)
  | .or c g _ _ _ _ => some (c, g)
  | .xor c g _ _ _ _ => some (c, g)
  | .andn c g _ _ _ _ => some (c, g)
  | .sll c g _ _ _ _ => some (c, g)
  | .srl c g _ _ _ _ => some (c, g)
  | .sra c g _ _ _ _ => some (c, g)
  | .ror c g _ _ _ _ => some (c, g)
  | .adc c g _ _ _ _ => some (c, g)
  | .sbc c g _ _ _ _ => some (c, g)
  | .addw c g _ _ _ _ => some (c, g)
  | .subw c g _ _ _ _ => some (c, g)
  | .min c g _ _ _ _ => some (c, g)
  | .max c g _ _ _ _ => some (c, g)
  | .minu c g _ _ _ _ => some (c, g)
  | .maxu c g _ _ _ _ => some (c, g)
  | .clz c g _ _ _ => some (c, g)
  | .ctz c g _ _ _ => some (c, g)
  | .popc c g _ _ _ => some (c, g)
  | .bswap c g _ _ _ => some (c, g)
  | .padd c g _ _ _ _ => some (c, g)
  | .psub c g _ _ _ _ => some (c, g)
  | .padds c g _ _ _ _ => some (c, g)
  | .paddus c g _ _ _ _ => some (c, g)
  | .psubs c g _ _ _ _ => some (c, g)
  | .psubus c g _ _ _ _ => some (c, g)
  | .pmull c g _ _ _ _ => some (c, g)
  | .pmulhu c g _ _ _ _ => some (c, g)
  | .pcmpeq c g _ _ _ _ => some (c, g)
  | .pcmpgt c g _ _ _ _ => some (c, g)
  | .pmin c g _ _ _ _ => some (c, g)
  | .pmax c g _ _ _ _ => some (c, g)
  | .pminu c g _ _ _ _ => some (c, g)
  | .pmaxu c g _ _ _ _ => some (c, g)
  | .psll c g _ _ _ _ => some (c, g)
  | .psrl c g _ _ _ _ => some (c, g)
  | .psra c g _ _ _ _ => some (c, g)
  | .pavgu c g _ _ _ _ => some (c, g)
  | .gcmp c g _ _ _ _ => some (c, g)
  | .gset c g _ _ => some (c, g)
  | .gand c g _ _ _ _ _ => some (c, g)
  | .gor c g _ _ _ _ _ => some (c, g)
  | .gxor c g _ _ _ _ _ => some (c, g)
  | .gfromx c g _ _ _ => some (c, g)
  | .mul64 c g _ _ _ => some (c, g)
  | .mulw c g _ _ _ _ => some (c, g)
  | .mulws c g _ _ _ _ => some (c, g)
  | .mulm c g _ _ _ => some (c, g)
  | .mfy c g _ _ => some (c, g)
  | .mty c g _ _ => some (c, g)
  | .cpstat c g _ _ => some (c, g)
  | .cpsync c g _ _ => some (c, g)
  | .bnlaunch c g _ _ _ => some (c, g)
  | .bnpoll c g _ _ => some (c, g)
  | .bnclear c g _ => some (c, g)
  | .nttFwd c g _ => some (c, g)
  | .nttInv c g _ => some (c, g)
  | .nttPmul c g _ _ => some (c, g)
  | .nttPmacc c g _ _ => some (c, g)
  | .hInit c g => some (c, g)
  | .hAbsorb c g _ _ => some (c, g)
  | .hFinal c g => some (c, g)
  | .hSqueeze c g _ _ => some (c, g)
  | .hSave c g _ => some (c, g)
  | .hLoad c g _ => some (c, g)
  | .smpUnif c g _ _ => some (c, g)
  | .smpCbd c g _ _ => some (c, g)
  | .smpBound c g _ _ => some (c, g)
  | .smpBall c g _ => some (c, g)
  | .bfMulv c g _ _ => some (c, g)
  | .bfMatvec c g _ _ => some (c, g)
  | .bfEval c g _ _ => some (c, g)
  | .bfBmstep c g _ _ => some (c, g)
  | .kpSel c g _ _ => some (c, g)
  | .kpAbsorb c g _ _ => some (c, g)
  | .kpBfload c g _ _ => some (c, g)
  | .kpDrop c g => some (c, g)
  | .rpMseed c g => some (c, g)
  | .rpDraw c g _ => some (c, g)
  | .rpMaskv c g _ => some (c, g)
  | .vadd c g _ _ _ _ _ => some (c, g)
  | .vsub c g _ _ _ _ _ => some (c, g)
  | .vand c g _ _ _ _ _ => some (c, g)
  | .vor c g _ _ _ _ _ => some (c, g)
  | .vxor c g _ _ _ _ _ => some (c, g)
  | .vandn c g _ _ _ _ _ => some (c, g)
  | .vsll c g _ _ _ _ _ => some (c, g)
  | .vsrl c g _ _ _ _ _ => some (c, g)
  | .vsra c g _ _ _ _ _ => some (c, g)
  | .vmin c g _ _ _ _ _ => some (c, g)
  | .vmax c g _ _ _ _ _ => some (c, g)
  | .vminu c g _ _ _ _ _ => some (c, g)
  | .vmaxu c g _ _ _ _ _ => some (c, g)
  | .vaddm c g _ _ _ _ _ => some (c, g)
  | .vsubm c g _ _ _ _ _ => some (c, g)
  | .vnegm c g _ _ _ => some (c, g)
  | .vsrrU c g _ _ _ _ => some (c, g)
  | .vsrrS c g _ _ _ _ => some (c, g)
  | .vsatU c g _ _ _ _ => some (c, g)
  | .vsatS c g _ _ _ _ => some (c, g)
  | .vmul c g _ _ _ _ _ => some (c, g)
  | .vmulhu c g _ _ _ _ _ => some (c, g)
  | .vmulhrU c g _ _ _ _ _ => some (c, g)
  | .vmulhrS c g _ _ _ _ _ => some (c, g)
  | .vmulm c g _ _ _ _ _ => some (c, g)
  | .vmacm c g _ _ _ _ _ => some (c, g)
  | .vmv c g _ _ _ => some (c, g)
  | .vsplat c g _ _ _ => some (c, g)
  | .vext c g _ _ _ => some (c, g)
  | .vslideup c g _ _ _ _ => some (c, g)
  | .vslidedn c g _ _ _ _ => some (c, g)
  | .vbrev c g _ _ _ _ => some (c, g)
  | .vcomp c g _ _ _ _ => some (c, g)
  | .vdecomp c g _ _ _ _ => some (c, g)
  | .vcmpeq c g _ _ _ _ _ => some (c, g)
  | .vcmpne c g _ _ _ _ _ => some (c, g)
  | .vcmpltu c g _ _ _ _ _ => some (c, g)
  | .vcmpgeu c g _ _ _ _ _ => some (c, g)
  | .vcmplt c g _ _ _ _ _ => some (c, g)
  | .vcmpge c g _ _ _ _ _ => some (c, g)
  | .vld c g _ _ _ _ _ => some (c, g)
  | .vst c g _ _ _ _ _ => some (c, g)
  | .vgather c g _ _ _ _ _ => some (c, g)
  | .vgatherFf c g _ _ _ _ _ => some (c, g)
  | .vscatter c g _ _ _ _ _ => some (c, g)
  | .vsetvl c g _ _ => some (c, g)
  | .vsetvli c g _ _ => some (c, g)
  | _ => none

/-- The encoding is not ILLEGAL where it stands (R293, R299, R302, R309, R323, R324, R329 to R331, R348). -/
def legalForm (s : State) (i : Instr) : Prop :=
  (∀ f, cpForm i = some f → present f.c f.p → s.entryLoaded f.p f.fn = true) ∧
  match i with
  | .ld _ _ sz _ _ _ => sz ≠ 7
  | .sysrd c _ _ num => assigned c num.toNat = true
  | .syswr c _ _ num => assigned c num.toNat = true
  | .plainx c _ => ∀ n : BitVec 3, n ≠ 0 → (((s.settleCore c).waitGuards c [1, 2, 3, 4, 5, 6, 7]).core c).init.getLsbD n.toNat = true
  | .padd _ _ es _ _ _ => es ≠ 3
  | .psub _ _ es _ _ _ => es ≠ 3
  | .padds _ _ es _ _ _ => es ≠ 3
  | .paddus _ _ es _ _ _ => es ≠ 3
  | .psubs _ _ es _ _ _ => es ≠ 3
  | .psubus _ _ es _ _ _ => es ≠ 3
  | .pmull _ _ es _ _ _ => es ≠ 3
  | .pmulhu _ _ es _ _ _ => es ≠ 3
  | .pcmpeq _ _ es _ _ _ => es ≠ 3
  | .pcmpgt _ _ es _ _ _ => es ≠ 3
  | .pmin _ _ es _ _ _ => es ≠ 3
  | .pmax _ _ es _ _ _ => es ≠ 3
  | .pminu _ _ es _ _ _ => es ≠ 3
  | .pmaxu _ _ es _ _ _ => es ≠ 3
  | .psll _ _ es _ _ _ => es ≠ 3
  | .psrl _ _ es _ _ _ => es ≠ 3
  | .psra _ _ es _ _ _ => es ≠ 3
  | .pavgu _ _ es _ _ _ => es ≠ 3
  | .vadd c _ _ _ _ _ _ => 5 ≤ c
  | .vsub c _ _ _ _ _ _ => 5 ≤ c
  | .vand c _ _ _ _ _ _ => 5 ≤ c
  | .vor c _ _ _ _ _ _ => 5 ≤ c
  | .vxor c _ _ _ _ _ _ => 5 ≤ c
  | .vandn c _ _ _ _ _ _ => 5 ≤ c
  | .vsll c _ _ _ _ _ _ => 5 ≤ c
  | .vsrl c _ _ _ _ _ _ => 5 ≤ c
  | .vsra c _ _ _ _ _ _ => 5 ≤ c
  | .vmin c _ _ _ _ _ _ => 5 ≤ c
  | .vmax c _ _ _ _ _ _ => 5 ≤ c
  | .vminu c _ _ _ _ _ _ => 5 ≤ c
  | .vmaxu c _ _ _ _ _ _ => 5 ≤ c
  | .vaddm c _ _ _ _ _ _ => 5 ≤ c
  | .vsubm c _ _ _ _ _ _ => 5 ≤ c
  | .vnegm c _ _ _ _ => 5 ≤ c
  | .vsrrU c _ _ _ _ _ => 5 ≤ c
  | .vsrrS c _ _ _ _ _ => 5 ≤ c
  | .vsatU c _ _ _ _ _ => 5 ≤ c
  | .vsatS c _ _ _ n _ => 5 ≤ c ∧ n ≠ 0
  | .vmul c _ _ _ _ _ _ => 5 ≤ c
  | .vmulhu c _ _ _ _ _ _ => 5 ≤ c
  | .vmulhrU c _ _ _ _ _ _ => 5 ≤ c
  | .vmulhrS c _ _ _ _ _ _ => 5 ≤ c
  | .vmulm c _ _ _ _ _ _ => 5 ≤ c
  | .vmacm c _ _ _ _ _ _ => 5 ≤ c
  | .vmv c _ _ _ _ => 5 ≤ c
  | .vsplat c _ _ _ _ => 5 ≤ c
  | .vext c _ _ _ _ => 5 ≤ c
  | .vslideup c _ _ _ _ _ => 5 ≤ c
  | .vslidedn c _ _ _ _ _ => 5 ≤ c
  | .vbrev c _ _ _ n _ => 5 ≤ c ∧ 1 ≤ n.toNat ∧ n.toNat ≤ 8
  | .vcomp c _ _ _ n _ => 5 ≤ c ∧ 1 ≤ n.toNat ∧ n.toNat ≤ 12
  | .vdecomp c _ _ _ n _ => 5 ≤ c ∧ 1 ≤ n.toNat ∧ n.toNat ≤ 12
  | .vcmpeq c _ _ _ _ _ _ => 5 ≤ c
  | .vcmpne c _ _ _ _ _ _ => 5 ≤ c
  | .vcmpltu c _ _ _ _ _ _ => 5 ≤ c
  | .vcmpgeu c _ _ _ _ _ _ => 5 ≤ c
  | .vcmplt c _ _ _ _ _ _ => 5 ≤ c
  | .vcmpge c _ _ _ _ _ _ => 5 ≤ c
  | .vld c _ sz _ _ _ _ => 5 ≤ c ∧ sz ≠ 3
  | .vst c _ sz _ _ _ _ => 5 ≤ c ∧ sz ≠ 3
  | .vgather c _ sz _ _ _ _ => 5 ≤ c ∧ sz ≠ 3
  | .vgatherFf c _ sz _ _ _ _ => 5 ≤ c ∧ sz ≠ 3
  | .vscatter c _ sz _ _ _ _ => 5 ≤ c ∧ sz ≠ 3
  | .vsetvl c _ _ _ => 5 ≤ c
  | .vsetvli c _ _ _ => 5 ≤ c
  | _ => True

/-- The words of the instructions that task mode cannot execute (R292): MISC func, the commands of coprocessors 4 and 6,
and system registers. -/
def privWord : Instr → Option (Nat × BitVec 4 × BitVec 32)
  | .eret c g => some (c, g, insnWord g 0x1E (fmtR 0 0 0 0x01))
  | .wfi c g => some (c, g, insnWord g 0x1E (fmtR 0 0 0 0x02))
  | .plainx c g => some (c, g, insnWord g 0x1E (fmtR 0 0 0 0x03))
  | .plaine c g => some (c, g, insnWord g 0x1E (fmtR 0 0 0 0x04))
  | .bnlaunch c g rd rs1 rs2 => some (c, g, insnWord g 0x36 (fmtC 0x01 rd rs1 rs2))
  | .bnpoll c g rd rs1 => some (c, g, insnWord g 0x36 (fmtC 0x02 rd rs1 0))
  | .bnclear c g rs1 => some (c, g, insnWord g 0x36 (fmtC 0x03 0 rs1 0))
  | .kpSel c g rd rs1 => some (c, g, insnWord g 0x34 (fmtC 0x01 rd rs1 0))
  | .kpAbsorb c g rs1 rs2 => some (c, g, insnWord g 0x34 (fmtC 0x02 0 rs1 rs2))
  | .kpBfload c g rs1 rs2 => some (c, g, insnWord g 0x34 (fmtC 0x03 0 rs1 rs2))
  | .kpDrop c g => some (c, g, insnWord g 0x34 (fmtC 0x04 0 0 0))
  | .cpstat c g cp rd => if cp = 4 ∨ cp = 6 then some (c, g, insnWord g (0x30 + cp.toNat) (fmtC 0x78 rd 0 0)) else none
  | .cpsync c g cp rd => if cp = 4 ∨ cp = 6 then some (c, g, insnWord g (0x30 + cp.toNat) (fmtC 0x7F rd 0 0)) else none
  | .syswr c g rs num =>
    if num.toNat ≠ 0xA ∧ num.toNat ≠ 0x20 ∧ (num.toNat < 0x100 ∨ 0x200 ≤ num.toNat) then some (c, g, insnWord g 0x1D (rs ++ 0#5 ++ num))
    else none
  | .sysrd c g rd num =>
    if num.toNat ∈ [1, 2, 4, 7, 8] then some (c, g, insnWord g 0x1C (rd ++ 0#5 ++ num)) else none
  | _ => none

/-- A core and a word, where a condition holds. -/
def bad (p : Prop) [Decidable p] (c : Nat) (w : BitVec 32) : Option (Nat × BitVec 32) := if p then some (c, w) else none

/-- The encodings that are ILLEGAL where they stand, with their words: reserved sizes, system registers without an
assignment, fixed-point and permutation immediates out of range, and long vectors on a core without them (R299, R302, R309,
R323, R324, R329 to R331). -/
def illegalWord : Instr → Option (Nat × BitVec 32)
  | .padd c g es rd rs1 rs2 => bad (es = 3) c (insnWord g 0x1F (fmtR rd rs1 rs2 0x60))
  | .psub c g es rd rs1 rs2 => bad (es = 3) c (insnWord g 0x1F (fmtR rd rs1 rs2 0x61))
  | .padds c g es rd rs1 rs2 => bad (es = 3) c (insnWord g 0x1F (fmtR rd rs1 rs2 0x62))
  | .paddus c g es rd rs1 rs2 => bad (es = 3) c (insnWord g 0x1F (fmtR rd rs1 rs2 0x63))
  | .psubs c g es rd rs1 rs2 => bad (es = 3) c (insnWord g 0x1F (fmtR rd rs1 rs2 0x64))
  | .psubus c g es rd rs1 rs2 => bad (es = 3) c (insnWord g 0x1F (fmtR rd rs1 rs2 0x65))
  | .pmull c g es rd rs1 rs2 => bad (es = 3) c (insnWord g 0x1F (fmtR rd rs1 rs2 0x66))
  | .pmulhu c g es rd rs1 rs2 => bad (es = 3) c (insnWord g 0x1F (fmtR rd rs1 rs2 0x67))
  | .pcmpeq c g es rd rs1 rs2 => bad (es = 3) c (insnWord g 0x1F (fmtR rd rs1 rs2 0x68))
  | .pcmpgt c g es rd rs1 rs2 => bad (es = 3) c (insnWord g 0x1F (fmtR rd rs1 rs2 0x69))
  | .pmin c g es rd rs1 rs2 => bad (es = 3) c (insnWord g 0x1F (fmtR rd rs1 rs2 0x6A))
  | .pmax c g es rd rs1 rs2 => bad (es = 3) c (insnWord g 0x1F (fmtR rd rs1 rs2 0x6B))
  | .pminu c g es rd rs1 rs2 => bad (es = 3) c (insnWord g 0x1F (fmtR rd rs1 rs2 0x6C))
  | .pmaxu c g es rd rs1 rs2 => bad (es = 3) c (insnWord g 0x1F (fmtR rd rs1 rs2 0x6D))
  | .psll c g es rd rs1 rs2 => bad (es = 3) c (insnWord g 0x1F (fmtR rd rs1 rs2 0x6E))
  | .psrl c g es rd rs1 rs2 => bad (es = 3) c (insnWord g 0x1F (fmtR rd rs1 rs2 0x6F))
  | .psra c g es rd rs1 rs2 => bad (es = 3) c (insnWord g 0x1F (fmtR rd rs1 rs2 0x70))
  | .pavgu c g es rd rs1 rs2 => bad (es = 3) c (insnWord g 0x1F (fmtR rd rs1 rs2 0x71))
  | .ld c g sz rd rs1 imm => bad (sz = 7) c (insnWord g 0x0C (fmtL rd rs1 sz imm))
  | .sysrd c g rd num => bad (assigned c num.toNat = false) c (insnWord g 0x1C (fmtY rd num))
  | .syswr c g rs num => bad (assigned c num.toNat = false) c (insnWord g 0x1D (fmtY rs num))
  | .vadd c g x vd vs1 vs2 vm => bad (c < 5) c (insnWord g (0x20 + x.toNat) (fmtV vd vs1 vs2 vm 0))
  | .vsub c g x vd vs1 vs2 vm => bad (c < 5) c (insnWord g (0x20 + x.toNat) (fmtV vd vs1 vs2 vm 1))
  | .vand c g x vd vs1 vs2 vm => bad (c < 5) c (insnWord g (0x20 + x.toNat) (fmtV vd vs1 vs2 vm 2))
  | .vor c g x vd vs1 vs2 vm => bad (c < 5) c (insnWord g (0x20 + x.toNat) (fmtV vd vs1 vs2 vm 3))
  | .vxor c g x vd vs1 vs2 vm => bad (c < 5) c (insnWord g (0x20 + x.toNat) (fmtV vd vs1 vs2 vm 4))
  | .vandn c g x vd vs1 vs2 vm => bad (c < 5) c (insnWord g (0x20 + x.toNat) (fmtV vd vs1 vs2 vm 5))
  | .vsll c g x vd vs1 vs2 vm => bad (c < 5) c (insnWord g (0x20 + x.toNat) (fmtV vd vs1 vs2 vm 6))
  | .vsrl c g x vd vs1 vs2 vm => bad (c < 5) c (insnWord g (0x20 + x.toNat) (fmtV vd vs1 vs2 vm 7))
  | .vsra c g x vd vs1 vs2 vm => bad (c < 5) c (insnWord g (0x20 + x.toNat) (fmtV vd vs1 vs2 vm 8))
  | .vmin c g x vd vs1 vs2 vm => bad (c < 5) c (insnWord g (0x20 + x.toNat) (fmtV vd vs1 vs2 vm 9))
  | .vmax c g x vd vs1 vs2 vm => bad (c < 5) c (insnWord g (0x20 + x.toNat) (fmtV vd vs1 vs2 vm 10))
  | .vminu c g x vd vs1 vs2 vm => bad (c < 5) c (insnWord g (0x20 + x.toNat) (fmtV vd vs1 vs2 vm 11))
  | .vmaxu c g x vd vs1 vs2 vm => bad (c < 5) c (insnWord g (0x20 + x.toNat) (fmtV vd vs1 vs2 vm 12))
  | .vaddm c g x vd vs1 vs2 vm => bad (c < 5) c (insnWord g (0x20 + x.toNat) (fmtV vd vs1 vs2 vm 13))
  | .vsubm c g x vd vs1 vs2 vm => bad (c < 5) c (insnWord g (0x20 + x.toNat) (fmtV vd vs1 vs2 vm 14))
  | .vnegm c g vd vs1 vm => bad (c < 5) c (insnWord g 0x22 (fmtV vd vs1 0 vm 4))
  | .vsrrU c g vd vs1 n vm => bad (c < 5) c (insnWord g 0x22 (fmtV vd vs1 n vm 0))
  | .vsrrS c g vd vs1 n vm => bad (c < 5) c (insnWord g 0x22 (fmtV vd vs1 n vm 1))
  | .vsatU c g vd vs1 n vm => bad (c < 5) c (insnWord g 0x22 (fmtV vd vs1 n vm 2))
  | .vsatS c g vd vs1 n vm => bad (c < 5 ∨ n = 0) c (insnWord g 0x22 (fmtV vd vs1 n vm 3))
  | .vmul c g x vd vs1 vs2 vm => bad (c < 5) c (insnWord g (0x23 + x.toNat) (fmtV vd vs1 vs2 vm 0))
  | .vmulhu c g x vd vs1 vs2 vm => bad (c < 5) c (insnWord g (0x23 + x.toNat) (fmtV vd vs1 vs2 vm 1))
  | .vmulhrU c g x vd vs1 vs2 vm => bad (c < 5) c (insnWord g (0x23 + x.toNat) (fmtV vd vs1 vs2 vm 2))
  | .vmulhrS c g x vd vs1 vs2 vm => bad (c < 5) c (insnWord g (0x23 + x.toNat) (fmtV vd vs1 vs2 vm 3))
  | .vmulm c g x vd vs1 vs2 vm => bad (c < 5) c (insnWord g (0x23 + x.toNat) (fmtV vd vs1 vs2 vm 4))
  | .vmacm c g x vd vs1 vs2 vm => bad (c < 5) c (insnWord g (0x23 + x.toNat) (fmtV vd vs1 vs2 vm 5))
  | .vmv c g vd vs1 vm => bad (c < 5) c (insnWord g 0x25 (fmtV vd vs1 0 vm 0))
  | .vsplat c g vd xs vm => bad (c < 5) c (insnWord g 0x25 (fmtV vd 0 xs vm 1))
  | .vext c g xd vs1 xs => bad (c < 5) c (insnWord g 0x25 (fmtV xd vs1 xs 0 2))
  | .vslideup c g vd vs1 xs vm => bad (c < 5) c (insnWord g 0x25 (fmtV vd vs1 xs vm 3))
  | .vslidedn c g vd vs1 xs vm => bad (c < 5) c (insnWord g 0x25 (fmtV vd vs1 xs vm 4))
  | .vbrev c g vd vs1 n vm => bad (c < 5 ∨ n.toNat < 1 ∨ 8 < n.toNat) c (insnWord g 0x25 (fmtV vd vs1 n vm 5))
  | .vcomp c g vd vs1 n vm => bad (c < 5 ∨ n.toNat < 1 ∨ 12 < n.toNat) c (insnWord g 0x25 (fmtV vd vs1 n vm 6))
  | .vdecomp c g vd vs1 n vm => bad (c < 5 ∨ n.toNat < 1 ∨ 12 < n.toNat) c (insnWord g 0x25 (fmtV vd vs1 n vm 7))
  | .vcmpeq c g x gd vs1 vs2 vm => bad (c < 5) c (insnWord g (0x26 + x.toNat) (fmtVC gd vs1 vs2 vm 0))
  | .vcmpne c g x gd vs1 vs2 vm => bad (c < 5) c (insnWord g (0x26 + x.toNat) (fmtVC gd vs1 vs2 vm 1))
  | .vcmpltu c g x gd vs1 vs2 vm => bad (c < 5) c (insnWord g (0x26 + x.toNat) (fmtVC gd vs1 vs2 vm 2))
  | .vcmpgeu c g x gd vs1 vs2 vm => bad (c < 5) c (insnWord g (0x26 + x.toNat) (fmtVC gd vs1 vs2 vm 3))
  | .vcmplt c g x gd vs1 vs2 vm => bad (c < 5) c (insnWord g (0x26 + x.toNat) (fmtVC gd vs1 vs2 vm 4))
  | .vcmpge c g x gd vs1 vs2 vm => bad (c < 5) c (insnWord g (0x26 + x.toNat) (fmtVC gd vs1 vs2 vm 5))
  | .vld c g sz v rs1 rs2 vm => bad (c < 5 ∨ sz = 3) c (insnWord g 0x28 (fmtVM v rs1 rs2 vm sz 0))
  | .vst c g sz v rs1 rs2 vm => bad (c < 5 ∨ sz = 3) c (insnWord g 0x29 (fmtVM v rs1 rs2 vm sz 0))
  | .vgather c g sz v rs1 vs2 vm => bad (c < 5 ∨ sz = 3) c (insnWord g 0x2A (fmtVM v rs1 vs2 vm sz 0))
  | .vgatherFf c g sz v rs1 vs2 vm => bad (c < 5 ∨ sz = 3) c (insnWord g 0x2A (fmtVM v rs1 vs2 vm sz 1))
  | .vscatter c g sz v rs1 vs2 vm => bad (c < 5 ∨ sz = 3) c (insnWord g 0x2A (fmtVM v rs1 vs2 vm sz 2))
  | .vsetvl c g rd rs1 => bad (c < 5) c (insnWord g 0x2B (fmtVS rd rs1 0 0))
  | .vsetvli c g rd imm => bad (c < 5) c (insnWord g 0x2B (fmtVS rd 0 imm 1))
  | _ => none
/-! ## The results that commands compute on units -/

/-- A command that gives a launched operation its result: the operation's context, its opcode, its result. -/
structure Computed where
  ctx : Nat
  opcode : Nat
  result : Ctx → State → Result

/-- Every part of the operation has been launched, so that its draws are known (log 21); of a survey batch, the signing too. -/
def Launched (c : Ctx) : Prop :=
  c.phase = .running ∧ c.cont = false ∧ c.batch = false ∧ (∀ p ∈ c.parts, p.unit.isSome = true) ∧
  (c.opcode = 0x1A01 → ∃ p ∈ c.parts, p.stage = 2) ∧ (slabCommand c.opcode = true ∨ ∃ p ∈ c.parts, p.slab = false)

/-- The command gives the operation its result; the operation is decided at once where all its parts have passed, and
nothing else changes while a part has not. -/
def GivesResult (i : Instr) (r : Computed) : Prop :=
  ∀ (s : State) (c : Ctx), s.ctxs.find r.ctx = some c → c.opcode = r.opcode → Launched c → c.result = none →
    let t := s.setCtx r.ctx fun d => { d with result := some (r.result c s) }
    Gives i s (t.settle r.ctx) ∧ (c.drop = false → (∃ p ∈ c.parts, p.phase ≠ .passed) → Gives i s t)

/-- The lattice, hybrid, hash-based, code-based and survey commands (R126, R130 to R141, R153 to R161, R167, R173 to R176,
R187, R188, R194). -/
def schemeResult : Instr → Option Computed
  | .slhdsaKeygen x => some ⟨x, 0x1201, fun c s =>
    let p := s.setOf c
    let seeds := (c.drawn p).take (3 * slhN p)
    let m := seeds ++ fit (slhN p) (Config.prim .slhPublic p [seeds])
    s.createdResult c m [] (pubOf p m) 0 0⟩
  | .slhdsaSign x => some ⟨x, 0x1202, fun c s =>
    let p := s.setOf c
    let h := s.headOf c
    let key := s.secretIn c c.keyA
    let rnd := if uAt h 3 1 = 0 then (c.drawn p).take (slhN p) else bytesAt key (2 * slhN p) (slhN p)
    Result.output (fit (setRow p).out (Config.prim .slhSign p [key, signedString h 16 (s.messageOf c), rnd]))⟩
  | .slhdsaVerify x => some ⟨x, 0x1203, fun c s =>
    let p := s.setOf c
    let m' := signedString (s.headOf c) (s.sigOff c p + (setRow p).out) (s.messageOf c)
    Result.verdict (Config.verdict .slhVerify p [s.pkOf c 16 p, m', s.sigOf c p])⟩
  | .slhdsaPublic x => some ⟨x, 0x1204, fun c s => Result.output (s.publicOf c.keyA)⟩
  | .lmsSign x => some ⟨x, 0x1302, fun c s =>
    Result.output (fit (s.statefulSigLen c.keyA)
      (Config.prim .hssSign (s.setOf c) [s.secretIn c c.keyA, le 8 (c.leaf.getD 0), s.messageOf c]))⟩
  | .xmssSign x => some ⟨x, 0x1402, fun c s =>
    Result.output (fit (s.statefulSigLen c.keyA)
      (Config.prim .xmssSign (s.setOf c) [s.secretIn c c.keyA, le 8 (c.leaf.getD 0), s.messageOf c]))⟩
  | .lmsVerify x => some ⟨x, 0x1303, fun c s =>
    let pk := s.statefulVerifyKey c
    let sig := s.statefulVerifySig c
    Result.verdict (hssShape pk sig && Config.verdict .hssVerify 0x00130001 [pk, s.messageOf c, sig])⟩
  | .xmssVerify x => some ⟨x, 0x1403, fun c s =>
    let p := s.setOf c
    let pk := s.statefulVerifyKey c
    let sig := s.statefulVerifySig c
    Result.verdict (xmssShape p pk sig && Config.verdict .xmssVerify p [pk, s.messageOf c, sig])⟩
  | .mceKeygen x => some ⟨x, 0x1501, fun c s => s.codeKey c .mceSecret⟩
  | .hqcKeygen x => some ⟨x, 0x1511, fun c s => s.codeKey c .hqcSecret⟩
  | .mceEncaps x => some ⟨x, 0x1502, fun c s => s.codeEncaps c .mceKeyOk .mceEncapsCt .mceEncapsKey⟩
  | .hqcEncaps x => some ⟨x, 0x1512, fun c s => s.codeEncaps c .hqcKeyOk .hqcEncapsCt .hqcEncapsKey⟩
  | .mceDecaps x => some ⟨x, 0x1503, fun c s => s.codeDecaps c .mceDecaps⟩
  | .hqcDecaps x => some ⟨x, 0x1513, fun c s => s.codeDecaps c .hqcDecaps⟩
  | .mcePublic x => some ⟨x, 0x1504, fun c s => Result.output (s.publicOf c.keyA)⟩
  | .hqcPublic x => some ⟨x, 0x1514, fun c s => Result.output (s.publicOf c.keyA)⟩
  | .mlkemKeygen x => some ⟨x, 0x1001, fun c s =>
    s.createdResult c ((c.drawn (s.setOf c)).take (setRow (s.setOf c)).secret) []
      (pubOf (s.setOf c) ((c.drawn (s.setOf c)).take (setRow (s.setOf c)).secret)) 0 0⟩
  | .mlkemEncaps x => some ⟨x, 0x1002, fun c s =>
    let p := s.setOf c
    let pk := s.pkOf c 0 p
    let m := (c.drawn p).take 32
    if c.keyA = 0 ∧ !modulusOk p pk then Result.bare St.inputRejected
    else s.childResult c (fit 32 (Config.prim .mlkemEncapsKey p [pk, m])) true
      (fit (setRow p).out (Config.prim .mlkemEncapsCt p [pk, m]))⟩
  | .mlkemDecaps x => some ⟨x, 0x1003, fun c s =>
    s.childResult c (fit 32 (Config.prim .mlkemDecaps (s.setOf c) [s.secretIn c c.keyA, c.payload])) true []⟩
  | .mlkemPublic x => some ⟨x, 0x1004, fun c s => Result.output (s.publicOf c.keyA)⟩
  | .mldsaKeygen x => some ⟨x, 0x1101, fun c s =>
    s.createdResult c ((c.drawn (s.setOf c)).take (setRow (s.setOf c)).secret) []
      (pubOf (s.setOf c) ((c.drawn (s.setOf c)).take (setRow (s.setOf c)).secret)) 0 0⟩
  | .mldsaSign x => some ⟨x, 0x1102, fun c s =>
    let p := s.setOf c
    let h := s.headOf c
    let m' := if uAt h 0 1 = 2 then s.messageOf c else signedString h 16 (s.messageOf c)
    Result.output (fit (setRow p).out
      (Config.prim .mldsaSign (mldsaSel p h) [s.secretIn c c.keyA, m', rndOf h (c.drawn p) 32]))⟩
  | .mldsaVerify x => some ⟨x, 0x1103, fun c s =>
    let p := s.setOf c
    let h := s.headOf c
    let m' := if uAt h 0 1 = 2 then s.messageOf c else signedString h (s.sigOff c p + (setRow p).out) (s.messageOf c)
    Result.verdict (Config.verdict .mldsaVerify (mldsaSel p h) [s.pkOf c 16 p, m', s.sigOf c p])⟩
  | .mldsaPublic x => some ⟨x, 0x1104, fun c s => Result.output (s.publicOf c.keyA)⟩
  | .hybridKeygen x => some ⟨x, 0x1801, fun c s => s.twoPartKey c⟩
  | .hybridEncaps x => some ⟨x, 0x1802, fun c s =>
    let p := s.setOf c
    let lat := latticePart p
    let q := classicPart p
    let pk := s.pkOf c 0 p
    let ek := pk.take (setRow lat).pk
    let pkEc := pk.drop (setRow lat).pk
    let m := (c.drawn lat).take 32
    let d := classicSecret q (c.drawn q)
    let ctEc := classicPublic q d
    if (c.keyA = 0 && !modulusOk lat ek) || !agreeOk q d pkEc (c.drawn q) then Result.bare St.inputRejected
    else
      let k := hybridKey p (fit 32 (Config.prim .mlkemEncapsKey lat [ek, m])) (agreed q d pkEc (c.drawn q)) ctEc pkEc
      s.childResult c k true (fit (setRow lat).out (Config.prim .mlkemEncapsCt lat [ek, m]) ++ ctEc)⟩
  | .hybridDecaps x => some ⟨x, 0x1803, fun c s =>
    let p := s.setOf c
    let lat := latticePart p
    let q := classicPart p
    let key := s.secretIn c c.keyA
    let d := key.drop (setRow lat).secret
    let ctEc := c.payload.drop (setRow lat).out
    if !agreeOk q d ctEc (c.drawn q) then Result.bare St.inputRejected
    else
      let kpq := fit 32 (Config.prim .mlkemDecaps lat [key.take (setRow lat).secret, c.payload.take (setRow lat).out])
      s.childResult c (hybridKey p kpq (agreed q d ctEc (c.drawn q)) ctEc (classicPublic q d)) true []⟩
  | .compositeKeygen x => some ⟨x, 0x1811, fun c s => s.twoPartKey c⟩
  | .compositeSign x => some ⟨x, 0x1812, fun c s =>
    let p := s.setOf c
    let h := s.headOf c
    Result.output (compositeSig p (s.secretIn c c.keyA) (bytesAt h 16 (uAt h 0 1)) (s.messageOf c)
      ((c.drawn (latticePart p)).take 32) (c.drawn (classicPart p)))⟩
  | .compositeVerify x => some ⟨x, 0x1813, fun c s =>
    let p := s.setOf c
    let h := s.headOf c
    Result.verdict (compositeOk p (s.pkOf c 16 p) (bytesAt h (s.sigOff c p + (setRow p).out) (uAt h 0 1)) (s.messageOf c)
      (s.sigOf c p))⟩
  | .surveyBatch x => some ⟨x, 0x1A01, fun c s => { Result.bare St.ok with entries := s.surveyChain c }⟩
  | .surveyAnchor x => some ⟨x, 0x1A02, fun c s =>
    let p := s.setOf c
    let pk := s.anchorKey c
    let sig := c.payload.drop (80 + if c.keyA = 0 then (setRow p).pk else 0)
    let ctxs := ascii "MAELARN-SURVEY"
    let ok := if p = 0x00180013 then compositeOk p pk ctxs c.statement sig else mldsaOk p pk ctxs c.statement sig
    if statementOk c.statement && ok then Result.output (s.anchorId c) else Result.bare St.inputRejected⟩
  | _ => none

/-- The classical commands, the stream commands and those of the key store that units serve (R200 to R217, R226 to R240,
R253, R258, R262 to R270). -/
def serviceResult : Instr → Option Computed
  | .ecKeygen x => some ⟨x, 0x2001, fun c s =>
    let p := s.setOf c
    let m := classicSecret p (c.drawn p)
    s.createdResult c m [] (pubOf p m) 0 0⟩
  | .ecdsaSign x => some ⟨x, 0x2002, fun c s =>
    let p := s.setOf c
    let h := s.headOf c
    Result.output (ecdsaSig p (uAt h 1 1) (s.secretIn c c.keyA) (digestInput h (s.messageOf c)) (c.drawn p))⟩
  | .ecdsaVerify x => some ⟨x, 0x2003, fun c s =>
    let p := s.setOf c
    let h := s.headOf c
    let pk := s.pkOf c 16 p
    Result.verdict ((c.keyA != 0 || pointOk p pk) && ecdsaOk p pk (digestInput h (s.messageOf c)) (s.sigOf c p))⟩
  | .eddsaSign x => some ⟨x, 0x2004, fun c s =>
    let p := s.setOf c
    let h := s.headOf c
    Result.output (eddsaSig p (s.secretIn c c.keyA) (bytesAt h 16 (uAt h 2 1)) (s.messageOf c) (c.drawn p))⟩
  | .eddsaVerify x => some ⟨x, 0x2005, fun c s =>
    let p := s.setOf c
    let h := s.headOf c
    let ctxs := bytesAt h (s.sigOff c p + (setRow p).out) (uAt h 2 1)
    Result.verdict (eddsaOk p (s.pkOf c 16 p) ctxs (s.messageOf c) (s.sigOf c p))⟩
  | .ecAgree x => some ⟨x, 0x2006, fun c s =>
    let p := s.setOf c
    let d := s.secretIn c c.keyA
    if agreeOk p d c.payload (c.drawn p) then s.childResult c (agreed p d c.payload (c.drawn p)) true []
    else Result.bare St.inputRejected⟩
  | .ecPublic x => some ⟨x, 0x2007, fun c s => Result.output (s.publicOf c.keyA)⟩
  | .rsaKeygen x => some ⟨x, 0x2011, fun c s =>
    let p := s.setOf c
    let m := c.rsaMaterial p
    s.createdResult c m [] (pubOf p m) 0 0⟩
  | .rsaSign x => some ⟨x, 0x2012, fun c s =>
    let p := s.setOf c
    let h := s.headOf c
    let draw := c.drawn p
    let hash := uAt h 1 1
    Result.output (rsaSignature (rsaKeyOf (rsaLen p) (s.secretIn c c.keyA)) (maskSeed draw) (uAt h 4 1) hash (hashSel hash)
      (rsaLen p) (digestInput h (s.messageOf c)) (draw.take (uAt h 5 1)))⟩
  | .rsaVerify x => some ⟨x, 0x2013, fun c s =>
    let p := s.setOf c
    let h := s.headOf c
    let pk := s.pkOf c 16 p
    let sig := s.sigOf c p
    let hash := uAt h 1 1
    Result.verdict (rsaPubOk p pk && representativeOk p pk sig &&
      rsaSignatureOk (rsaN p pk) (rsaExp p pk) (uAt h 4 1) hash (hashSel hash) (rsaLen p) (uAt h 5 1)
        (digestInput h (s.messageOf c)) sig)⟩
  | .rsaDecrypt x => some ⟨x, 0x2014, fun c s =>
    let p := s.setOf c
    let b := c.payload
    let label := bytesAt b 16 (uAt b 2 2)
    let ct := b.drop (16 + uAt b 2 2)
    let key := s.secretIn c c.keyA
    if !representativeOk p (pubOf p key) ct then Result.bare St.inputRejected
    else s.childResult c (oaepSecret p (uAt b 4 2) (uAt b 0 1) key (maskSeed (c.drawn p)) label ct) true []⟩
  | .rsaEncrypt x => some ⟨x, 0x2015, fun c s =>
    let p := s.setOf c
    let b := s.headOf c
    let label := bytesAt b 16 (uAt b 2 2)
    let pk := s.pkOf c (16 + uAt b 2 2) p
    let hash := uAt b 0 1
    let em := oaepEncode (hashSel hash) (rsaLen p) label (s.messageOf c) ((c.drawn p).take (hashLen hash))
    if !rsaPubOk p pk then Result.bare St.inputRejected
    else Result.output (be (rsaLen p) (rsaPublicOp (rsaN p pk) (rsaExp p pk) (beNat em)))⟩
  | .rsaPublic x => some ⟨x, 0x2016, fun c s => Result.output (s.publicOf c.keyA)⟩
  | .digest x => some ⟨x, 0x3001, fun c s =>
    let b := s.headOf c
    let nl := uAt b 4 2
    Result.output (digestOf (s.setOf c) (s.messageOf c) (uAt b 0 4) (bytesAt b 16 nl) (bytesAt b (16 + nl) (uAt b 6 2)))⟩
  | .digestBatch x => some ⟨x, 0x3002, fun c s =>
    Result.output ((c.frags.map fun f => digestOf (s.setOf c) (bytesAt c.payload f.1 f.2) 0 [] []).flatten)⟩
  | .mac x => some ⟨x, 0x3101, fun c s => Result.output (s.tagOf c)⟩
  | .macVerify x => some ⟨x, 0x3102, fun c s =>
    let b := s.headOf c
    Result.verdict (s.tagOf c == bytesAt b (16 + uAt b 4 2) (uAt b 0 4))⟩
  | .kdfHkdf x => some ⟨x, 0x3111, fun c s =>
    s.derived c fun n key salt info =>
    hkdf (setSel (s.setOf c)) n key salt info (bitOf (uAt c.payload 6 1) 0)⟩
  | .kdfCounter x => some ⟨x, 0x3112, fun c s => s.derived c (kdfCounter (setSel (s.setOf c)))⟩
  | .kdfKmac x => some ⟨x, 0x3113, fun c s => s.derived c kdfKmac⟩
  | .seal x => some ⟨x, 0x3201, fun c s =>
    let b := s.headOf c
    let iv := bytesAt b 4 12
    Result.output (iv ++ gcmSeal (s.secretIn c c.keyA) iv (bytesAt b 32 (uAt b 0 4)) (s.messageOf c))⟩
  | .openSeal x => some ⟨x, 0x3202, fun c s =>
    let b := s.headOf c
    match gcmOpen (s.secretIn c c.keyA) (bytesAt b 4 12) (bytesAt b 32 (uAt b 0 4)) (s.messageOf c) (bytesAt b 16 16) with
    | some m => Result.output m
    | none => Result.bare St.inputRejected⟩
  | .wrap x => some ⟨x, 0x3203, fun c s =>
    let q := s.policyOfKey c.keyB
    let inner := q.bytes ++ s.secretIn c c.keyB
    let kek := s.secretIn c c.keyA
    Result.output (le 4 1 ++ le 4 q.param ++ le 4 inner.length ++ le 4 0 ++
      (if kwSet (s.setOf c) then kwWrap kek inner else kwpWrap kek inner))⟩
  | .unwrap x => some ⟨x, 0x3204, fun c s =>
    let b := c.payload
    let kek := s.secretIn c c.keyA
    match (if kwSet (s.setOf c) then kwUnwrap kek (b.drop 16) else kwpUnwrap kek (b.drop 16)) with
    | none => Result.bare St.inputRejected
    | some inner =>
      if uAt b 0 4 ≠ 1 ∨ uAt b 8 4 ≠ inner.length then Result.bare St.inputRejected
      else match enteringKey s inner (s.policyOfKey c.keyB) (s.polA c).shared with
        | some (p, m, pub) => Result.deposits c.maskOf p m pub []
        | none => Result.bare St.inputRejected⟩
  | .keyGenerate x => some ⟨x, 0x4001, fun c s =>
    s.createdResult c ((c.drawn 0x00320001).take (generatedLen (s.policyAt c.payload).param)) [] [] 0 0⟩
  | .keyLoadPublic x => some ⟨x, 0x4002, fun c s =>
    let pk := c.payload.drop 64
    if publicOk (s.policyAt c.payload).param pk then s.createdResult c pk pk [] 64 0 else Result.bare St.inputRejected⟩
  | .keyRestore x => some ⟨x, 0x4006, fun c s =>
    match s.openPersist c with
    | none => Result.bare St.inputRejected
    | some body =>
      { Result.bare St.ok with
        deposit := some (Masked.of (maskDraw c.maskOf (body.length - 64)) (body.drop 64)), depositPolicy := body.take 64 }⟩
  | .keyExport x => some ⟨x, 0x4008, fun c s =>
    let out := bytesAt c.payload 16 6307
    let chain := c.payload.drop 6323
    match s.keys.slots.find (slotKey c.keyA) with
    | none => Result.bare St.keyOrphaned
    | some x =>
      if !prepareOk "MAELARN-KEYMOVE" out chain then Result.bare St.inputRejected
      else
        let v := if c.startSt = .trusted then c.launchV else 0
        let blob := s.blobOf 2 "MAELARN-KEYMOVE" (uAt out 0 4) (uAt out 8 8) v (bytesAt out 16 1568)
          ((c.drawn 0x00100003).take 32) c.slabNonce (x.policy.bytes ++ x.material s.keys.vaultKey)
          ((c.drawn 0x00110003).take 32) ((c.drawn 0x00200002).take 32)
        { Result.output blob with destroySource := bitOf (uAt c.payload 4 2) 0 }⟩
  | .peerEnrol x => some ⟨x, 0x400B, fun c _ =>
    if chainOk c.payload then Result.output (le 8 (chainSerial c.payload)) else Result.bare St.inputRejected⟩
  | .attestQuote x => some ⟨x, 0x6010, fun c s => Result.output (s.evidence c ++ s.identitySigBy c "MAELARN-QUOTE" (s.evidence c))⟩
  | _ => none


/-! ## Commands of a queue that a core executes -/

/-- A waiting command of an opcode may execute at this boundary, its deadline test aside: the device is READY and not in
the safe state, what R38 and R259 put at this boundary is done, and neither a fence nor held entries hold it (R65, R90). -/
structure AtTurn (s : State) (i opcode : Nat) (c : Ctx) : Prop where
  found : s.ctxs.find i = some c
  opcode : c.opcode = opcode
  waiting : c.phase = .waiting
  accepted : c.accepted < s.now
  ready : s.start.stage = 0x0C
  safe : s.integ.safe = false
  settled : s.unsettled = false
  free : s.blocked c = false

/-- The command may execute now: its deadline test passes or does not apply (R56). -/
structure MayRun (s : State) (i opcode : Nat) (c : Ctx) : Prop extends AtTurn s i opcode c where
  time : s.deadlineTest c = none

/-- Context `i` of `t` holds the outcome `r` of command `c`, which has ended; the other contexts are as in `s`. -/
def Ended (t s : State) (i : Nat) (c : Ctx) (r : Result) : Prop :=
  t.ctxs.find i = some { c with phase := .finished, result := some r, finishedAt := s.now, progress := s.now, reserved := none } ∧
  ∀ j, j ≠ i → t.ctxs.find j = s.ctxs.find j

/-- Commands that a core answers from the state alone: context, opcode and output. -/
def coreAnswer : Instr → Option (Nat × Nat × (State → Ctx → Bytes))
  | .datumRead x => some (x, 0x6003, fun s _ =>
      le 8 s.datum.v ++ le 8 s.datum.lo ++ le 8 s.datum.hi ++ le 8 s.unc ++ le 4 s.datum.st.code ++ le 4 0)
  | .configStatus x => some (x, 0x0140, fun s _ =>
      s.bankRecord 0 ++ s.bankRecord 1 ++ le 4 s.start.commits ++ le 4 s.start.tokens ++ le 4 s.start.svnFloor ++ le 4 0)
  | .randomStatus x => some (x, 0x5002, fun s _ =>
      le 4 s.rng.code ++ le 4 (b2n s.rng.mode) ++ le 4 (s.rng.recent s.now).length ++ le 4 s.seededMask)
  | .logRead x => some (x, 0x0130, fun s c =>
      s.log.read (uAt c.payload 0 1) (uAt c.payload 8 8) (uAt c.payload 4 4))
  | _ => none

/-- The commands of stateful keys that the chief core answers after the key tests (R171). -/
def chiefAnswer : Instr → Option (Nat × Nat × (State → Ctx → Bytes))
  | .lmsPublic x => some (x, 0x1304, fun s c => s.publicOf c.keyA)
  | .xmssPublic x => some (x, 0x1404, fun s c => s.publicOf c.keyA)
  | .lmsState x => some (x, 0x1305, fun s c => s.statefulState c)
  | .xmssState x => some (x, 0x1405, fun s c => s.statefulState c)
  | _ => none

/-- The commands that a core executes as queue packets: context and opcode. -/
def coreCommand : Instr → Option (Nat × Nat)
  | .datumRead x => some (x, 0x6003)
  | .configStatus x => some (x, 0x0140)
  | .configCommit x _ => some (x, 0x0141)
  | .randomStatus x => some (x, 0x5002)
  | .randomBytes x => some (x, 0x5001)
  | .logRead x => some (x, 0x0130)
  | .lmsPublic x => some (x, 0x1304)
  | .xmssPublic x => some (x, 0x1404)
  | .lmsState x => some (x, 0x1305)
  | .xmssState x => some (x, 0x1405)
  | .lmsKeygen x => some (x, 0x1301)
  | .xmssKeygen x => some (x, 0x1401)
  | .keyInfo x => some (x, 0x4003)
  | .keyDestroy x => some (x, 0x4004)
  | .keyEpochAdvance x => some (x, 0x400A)
  | .anchorDrop x => some (x, 0x1A04)
  | .datumChallenge (.queue x) => some (x, 0x6001)
  | .lcsRequest (.queue x) => some (x, 0x0150)
  | .lcsCancel (.queue x) => some (x, 0x0152)
  | .debugInstall (.queue x) => some (x, 0x0151)
  | .sliceCreate x => some (x, 0x0101)
  | .sliceResize x => some (x, 0x0102)
  | .sliceDestroy x => some (x, 0x0103)
  | .sliceReset x => some (x, 0x0104)
  | .sliceFreeze x => some (x, 0x0105)
  | .sliceExport x => some (x, 0x0106)
  | .sliceImport x => some (x, 0x0107)
  | .sliceThaw x => some (x, 0x0108)
  | .importPrepare x => some (x, 0x0109)
  | .sliceQuery x => some (x, 0x010A)
  | .sliceEpochAdvance x => some (x, 0x0120)
  | .qpCreate x => some (x, 0x0201)
  | .qpDestroy x => some (x, 0x0202)
  | .sliceInfo x => some (x, 0x0203)
  | _ => none

/-- A command that names a slice has its turn: no earlier one of its queue that names the same slice is undecided (R97). -/
def SliceTurn (s : State) (i opcode n : Nat) (c : Ctx) : Prop :=
  MayRun s i opcode c ∧ uAt c.payload 0 2 = n ∧ s.sliceTurn c = true

/-! ## Datum tokens (R41, R42, R44) -/

/-- The tests of a token other than its length: version, zero fields, time and uncertainty, an enrolled authority, the open
challenge, a new sequence number, an uncertainty below the cap, and the signature (R42). An accepted token that still
awaits its boundary has taken its challenge and its sequence number (the model's, log 122). -/
structure TokenGood (d : Datum) (p : Bytes) : Prop where
  version : uAt p 0x00 2 = 1
  zero : uAt p 0x02 2 = 0 ∧ uAt p 0x1C 4 = 0
  early : uAt p 0x18 4 ≤ uAt p 0x10 8
  late : uAt p 0x10 8 < 2 ^ 63
  authority : uAt p 0x04 4 < d.authKeys.length
  challenge : ∃ b, d.chal = some (bytesAt p 0x20 16, b)
  sequence : d.tokSeq < uAt p 0x08 8
  queued : ∀ k ∈ d.tokens, k.chal ≠ bytesAt p 0x20 16 ∧ k.seq < uAt p 0x08 8
  uncertain : 0 < uAt p 0x18 4 ∧ uAt p 0x18 4 < d.cap
  signed : mldsaOk 0x00110002 (d.authKeys.getD (uAt p 0x04 4) []) (ascii "MAELARN-DATUM") (bytesAt p 0 0x30) (p.drop 0x30) = true

/-- A time in half nanoseconds, rounded up to a whole microsecond, in nanoseconds. -/
def upToUs (half : Nat) : Nat := (half + 1999) / 2000 * 1000

/-- The datum after the oldest accepted token `t` at boundary `now` (R44): the token's interval, met with the bounds where the datum is
trusted and they overlap; V never moves back. -/
def afterToken (d : Datum) (t : Token) (now : Nat) : Datum :=
  let low := t.time - t.unc
  let high := t.time + ((now - t.issued) * 1000 * 50001 + 49999) / 50000 + t.unc
  let overlap := max low d.lo ≤ min high d.hi
  let lo := if d.st = .trusted ∧ overlap then max low d.lo else low
  let hi := if d.st = .trusted ∧ overlap then min high d.hi else high
  let v := max d.v (upToUs (lo + hi))
  { d with
    v := v, lo := lo, hi := max hi v, tokSeq := t.seq, vAtToken := v, since := 0, widenDue := false, tokens := d.tokens.drop 1
    st := if max (v - lo) (max hi v - v) < d.cap then .trusted else .untrusted
    conflicts := if d.st = .trusted ∧ ¬ overlap then min (d.conflicts + 1) 65535 else d.conflicts
    chal := if d.chal.map Prod.fst = some t.chal then none else d.chal }

/-- SMBus answers commands of the datum: a start has reached the DATUM stage, is neither LOCKED nor FAILED, and the device
is not in the safe state (R397, R406). -/
structure SmbDatum (s : State) : Prop where
  power : s.start.vddGood = true
  started : s.start.perst = false
  stage : s.start.stage = 0x0B ∨ s.start.stage = 0x0C
  safe : s.integ.safe = false

/-- A sample of a refinement source waits for the next boundary, where it is evaluated after a token due there (R38, R47). -/
def sampled (d : Datum) (pps : Bool) (target sample8 now : Nat) : Datum :=
  { d with refine := d.refine ++ [{ pps := pps, target := target, sample8 := sample8, accepted := now }] }

/-! ## Queues (R75, R76, R96, R107, R108, R121) -/

/-- An access to slice `n` arrives on the stream that a locked interface is bound to, or the interface is not locked (R121). -/
def OnStream (s : State) (n : Nat) (ide : Option (BitVec 3)) : Prop :=
  ∀ y, s.slices.find n = some y → y.tdi = .configLocked ∨ y.tdi = .run → y.ideStream = ide

/-- Submission doorbells of the queue take effect: READY, not shutting down, and a slice that is active or frozen and
whose interface is not CONFIG_LOCKED; queue 0 has no slice (R96, R107, R108, R121). -/
def SqTakes (s : State) (x : Queue) : Prop :=
  s.start.stage = 0x0C ∧ x.st ≠ .shutting ∧
  ((s.slices.find x.slice = none ∧ x.slice = 0) ∨
   ∃ y, s.slices.find x.slice = some y ∧ (y.st = .active ∨ y.st = .frozen) ∧ y.tdi ≠ .configLocked)

/-- Completion doorbells of the queue take effect (R108, R111). -/
def CqTakes (s : State) (x : Queue) : Prop :=
  s.start.stage = 0x0C ∧
  ((s.slices.find x.slice = none ∧ x.slice = 0) ∨
   ∃ y, s.slices.find x.slice = some y ∧ y.st ≠ .exported ∧ y.tdi ≠ .configLocked)

/-- A discarded doorbell of value `v` is counted and joins the notice entry to come (R77). -/
def Discards (s : State) (x : Queue) (v : BitVec 32) : Queue :=
  { x with invalid := min (x.invalid + 1) 65535, noticeCount := x.noticeCount + 1, noticeTag := v
           noticeSince := if x.noticeCount = 0 then s.now else x.noticeSince }

/-- Queue `q` becomes `x`, and nothing else changes. -/
def QueueOnly (t s : State) (q : Nat) (x : Queue) : Prop :=
  t.queues.find q = some x ∧ (∀ p, p ≠ q → t.queues.find p = s.queues.find p) ∧ { t with queues := s.queues } = s

/-- The device may consume the packet at the head of a queue (R78). -/
structure MayConsume (s : State) (q i : Nat) (x : Queue) : Prop where
  queue : s.queues.find q = some x
  ready : s.start.stage = 0x0C
  filled : x.t ≠ x.h
  room : s.packets.length < 65536
  slice : ∀ y, s.slices.find x.slice = some y → s.inflight x.slice < y.inflightLimit
  settled : s.unsettled = false
  context : s.ctxs.firstFree 0 65536 = some i

/-! ## Units at work (R17 to R20, R31, R48 to R55, R152) -/

/-- Unit `u` takes a part of command `c` at this boundary: it is free, its region has a partner of its kind, the keys are
there, and randomness and a reserved lane where the part needs them; its slice and queue have the turn there (R101). -/
structure UnitTakes (s : State) (u : Nat) (c : Ctx) (p : Part) : Prop where
  number : u < 104
  free : s.unitFree u = true
  partners : s.meetsR19 (unitRegion u) p.kind = true
  keys : s.keysReady c (unitRegion u) = true
  draws : p.draws = 0 ∨ s.drawState (unitRegion u) = .serves
  lane : c.laneFor p = true → (s.laneToReserve (unitRegion u)).isSome = true
  turn : s.myTurn c.slice c.q (unitRegion u) (unitKind u) = true

/-- A launched command that is not dropped goes on at this boundary. -/
structure Under (s : State) (x : Nat) (c : Ctx) : Prop where
  found : s.ctxs.find x = some c
  running : c.phase = .running
  ready : s.start.stage = 0x0C
  safe : s.integ.safe = false
  settled : s.unsettled = false
  wanted : c.drop = false

/-- Part `p` of command `x` runs on unit `u`; it stands first of the command's parts. -/
def PartOn (t : State) (x u : Nat) (p : Part) (retries : Nat) : Prop :=
  (t.unitSt u).job = .op x ∧ ∃ d q rest, t.ctxs.find x = some d ∧ d.phase = .running ∧ d.region = unitRegion u ∧
    d.result = none ∧ d.parts = q :: rest ∧ q.phase = .running ∧ q.unit = some u ∧ q.checkUnit = none ∧ q.kind = p.kind ∧
    q.fam = p.fam ∧ q.retries = retries ∧ q.ends = (t.unitSt u).ends

/-- Part `k` of command `x` becomes `p`, and the command has made progress. -/
def PartSet (s : State) (x k : Nat) (c : Ctx) (p : Part) : State :=
  s.setCtx x fun d => { d with parts := c.parts.set k p, progress := s.now }

/-- The first part that meets a test is part `k`, `p`. -/
def FirstPart (c : Ctx) (f : Part → Prop) (k : Nat) (p : Part) : Prop :=
  c.parts[k]? = some p ∧ f p ∧ ∀ j q, j < k → c.parts[j]? = some q → ¬ f q

/-! ## Slabs on lanes (R220 to R225) -/

/-- Work lane `l` of pipe `u` and check lane `cl` of pipe `cu` take a slab of `base` ticks of a set: the pair fits, no
benchmark comes first, the lane is the one that R222 takes, a saved context of the stream passes its tag (R223), and its
slice and queue have the turn (R101). -/
structure LanesTake (s : State) (x u l cu cl : Nat) (c : Ctx) (kind base set : Nat) (first : Bool) (avoid : Option Nat) : Prop where
  units : u < 104 ∧ cu < 104
  lane : l < 4
  sameKind : unitKind u = kind
  opened : s.pipeOpen u = true
  mirror : s.mirrorOk u cu cl = true
  benchU : s.benchFirst u (base + s.switchTick ((s.unitSt u).lane l) (c.laneKey x) first) set = none
  benchC : s.benchFirst cu (base + s.switchTick ((s.unitSt u).lane l) (c.laneKey x) first) set = none
  placed : placedWell (s.laneChoices (unitRegion u) kind (c.laneKey x) base set first avoid) u l = true
  restores : s.restoreFails u l (c.laneKey x) first = false
  turn : s.myTurn c.slice c.q (unitRegion u) (unitKind u) = true

/-- The slab runs on the lanes until boundary `ends`, with its context resident on the work lane. -/
def SlabOn (t : State) (x u l cu cl key ends : Nat) : Prop :=
  ((t.unitSt u).lane l).busy = some x ∧ ((t.unitSt u).lane l).ends = ends ∧ ((t.unitSt u).lane l).resident = some key ∧
  ((t.unitSt cu).lane cl).busy = some x ∧ ((t.unitSt cu).lane cl).ends = ends ∧
  ∃ d q rest, t.ctxs.find x = some d ∧ d.phase = .running ∧ d.region = unitRegion u ∧ d.parts = q :: rest ∧ q.slab = true ∧
    q.phase = .running ∧ q.unit = some u ∧ q.lane = l ∧ q.checkUnit = some cu ∧ q.checkLane = cl ∧ q.ends = ends

/-! ## Starts and resets (R29, R394 to R398) -/

/-- What every reset leaves: eMRAM, fuses and flash keep their contents; everything else of the command model is gone (R29,
R398). -/
structure Survives (s t : State) : Prop where
  tokens : t.datum.tokSeq = s.datum.tokSeq ∧ t.datum.st = .unset
  keys : t.keys.epochs = s.keys.epochs ∧ t.keys.persistNext = s.keys.persistEnd ∧ t.keys.persistEnd = s.keys.persistEnd ∧
    t.keys.chain = s.keys.chain ∧ t.keys.serial = s.keys.serial ∧ t.keys.helpA = s.keys.helpA ∧ t.keys.helpB = s.keys.helpB
  journal : t.stateful.journal = s.stateful.journal ∧ t.stateful.keyIdCtr = s.stateful.keyIdCtr ∧
    t.stateful.ptr = s.stateful.ptr ∧ t.stateful.owed = []
  log : t.log.kept = s.log.stored.kept ∧ t.log.circ = s.log.stored.circ ∧ t.log.queue = [] ∧ t.log.opSeconds = s.log.persisted
  map : t.integ.mapCopyA = s.integ.mapCopyA ∧ t.integ.mapCopyB = s.integ.mapCopyB
  flash : t.start.flashA = s.start.flashA ∧ t.start.flashB = s.start.flashB ∧ t.start.commits = s.start.commits ∧
    t.start.tokens = s.start.tokens ∧ t.start.svnFloor = s.start.svnFloor
  life : t.lcs.signers = s.lcs.signers ∧ t.lcs.revoked.length = s.lcs.revoked.length ∧ t.lcs.pending = s.lcs.pending ∧
    t.lcs.cert = s.lcs.cert
  emram : t.emram = s.emram
  host : t.host = s.host
  gone : t.ctxs = [] ∧ t.queues = [] ∧ t.slices = [] ∧ t.collectors = [] ∧ t.keys.slots = [] ∧ t.keys.resident = [] ∧
    t.keys.prepared = [] ∧ t.keys.vaultKey = [] ∧ t.keys.root = [] ∧ t.keys.anchors = [] ∧ t.keys.imports = [] ∧ t.rng.drbgs = [] ∧ t.units = [] ∧ t.engines = [] ∧
    t.window = [] ∧ t.hbm = []
  safe : t.integ.safe = false ∧ t.integ.alarmOut = false

/-- The board lets a start run up to VERIFY: the references lock, the fuses agree, a copy of the map is valid, nothing is
pending in TEST to ANALYSIS, the root regenerates from a helper copy or, where a part in TEST holds none, from the copy that
enrolment writes, the flash answers, and there are two bank records (R244, R245, R364, R395, R397, R412, R417). -/
structure Boots (s : State) (e : StartEnv) : Prop where
  power : s.start.vddGood = true ∧ s.start.perst = true
  clocks : e.clk25 = true ∧ e.clk100 = true
  state : 1 ≤ s.lcs.code ∧ s.lcs.code ≤ 4
  fuses : e.fuseAgree = true ∧ s.lcs.pending = none ∧
    ((e.mapAOk = true ∧ mapValid s.integ.mapCopyA = true) ∨ (e.mapBOk = true ∧ mapValid s.integ.mapCopyB = true))
  root : if s.lcs.code = 1 ∧ s.keys.helpA = [] ∧ s.keys.helpB = [] then
      (regenerate (enrolCopy e.puf (drawBytes s.free 6240)) e.puf).isSome = true
    else (e.helperABad = false ∧ (regenerate s.keys.helpA e.puf).isSome = true) ∨
      (e.helperBBad = false ∧ (regenerate s.keys.helpB e.puf).isSome = true)
  flash : e.flashAnswers = true ∧ s.start.banks.length = 2

/-- The flash of bank `k` at a start: what a board programmer left there, or what it held. -/
def flashAt (s : State) (e : StartEnv) (k : Nat) : Bytes :=
  match e.program with
  | some (a, b) => if k = 0 then a else b
  | none => if k = 0 then s.start.flashA else s.start.flashB

/-- The reason that the header of bank `k` gives at a start; 0 makes it a candidate (R403). -/
def headerAt (s : State) (e : StartEnv) (k : Nat) : Nat :=
  s.headerReason (flashAt s e k) (if k = 0 then e.readErrA else e.readErrB)

/-- The reason that verifying bank `k` gives (R403). -/
def verifyAt (s : State) (e : StartEnv) (k : Nat) : Nat :=
  verifyReason (flashAt s e k) (if k = 0 then e.readErrA else e.readErrB)

/-! ## Commits (R408) -/

/-- A command of the chief core whose signature a sheet has verified ends as in `t`: LAUNCH stays the boundary at which its
execution began, and its part stays named (R97, R408, R416, R422). -/
def Verified (c : Ctx) (x : Nat) (t : State) : State :=
  t.setCtx x fun d => { d with launchV := c.launchV, launchTick := c.launchTick, parts := c.parts }

/-- What the pages of one packet of a commit leave. Good pages stand in the target's flash, its header erased until FINAL;
then the whole image stands there and the target's bank record is the image's. A flash error ends the commit and the
target's record shows reason 10. The other bank's flash is untouched. -/
def Programmed (s t : State) (c : Ctx) (k : Nat) (ok : Bool) : Prop :=
  let n := c.payload.length / 4096
  let g := goodPages c.payload n 4096 (c.pos / 4096)
  t.flash (1 - k) = s.flash (1 - k) ∧
  (ok = true → n ≤ g → c.final = false → t.flash k = commitFlash (s.flash k) c.payload n ∧ t.start.commit ≠ none) ∧
  (ok = true → n ≤ g → c.final = true → bk c.payload 0x30 48 = sha384 (c.payload.drop 12288) → s.start.banks.length = 2 →
    t.flash k = c.payload ++ (s.flash k).drop c.payload.length ∧ t.start.commit = none ∧
    t.start.banks.getD k Bank.erased = bankOf c.payload) ∧
  (ok = true → g < n → t.flash k = commitFlash (s.flash k) c.payload g ∧ t.start.commit = none) ∧
  (ok = false → s.start.banks.length = 2 → t.flash k = s.flash k ∧ t.start.commit = none ∧
    t.start.banks.getD k Bank.erased = { Bank.erased with reason := 10 })

/-! ## SPDM (R252) -/

/-- A response outside a session: the responder's state, what it answers, and nothing else changed. -/
def Responds (s : State) (p : Spdm) (b : Bytes) : State :=
  { s with bus := { s.bus with spdm := { p with resp := b, respCode := 1 } } }

/-- An ERROR response outside a session over the responder's state. -/
def RespondsError (s : State) (p : Spdm) (code : Nat) : State :=
  { s with bus := { s.bus with spdm := { p with resp := le 1 0x13 ++ le 1 0x7F ++ le 1 code ++ le 1 0, respCode := 2 } } }

/-- A request of a code, of SPDM 1.3, outside a session on the transport of the connection. -/
structure Plain (s : State) (via : SpdmPath) (msg : Bytes) (code : Nat) : Prop where
  ready : s.start.stage = 0x0C
  length : 4 ≤ msg.length
  version : uAt msg 0 1 = 0x13
  code : uAt msg 1 1 = code
  path : s.bus.spdm.path = via

/-- A record that opens under the session's key in a phase of the session: its message is `m`, and `t` is the state that has
taken it. -/
structure InSession (s : State) (via : SpdmPath) (r : Bytes) (phase : Nat) (m : Bytes) (t : State) : Prop where
  ready : s.start.stage = 0x0C
  inPhase : s.bus.spdm.session = phase
  running : phase ≠ 0
  path : s.bus.spdm.path = via
  opened : s.openRecord r = some (m, t)
  version : uAt m 0 1 = 0x13
  length : 4 ≤ m.length

/-- The responder can sign: READY, not in the safe state, its identity in hand, and the atlas draws served. -/
structure Signs (s : State) : Prop where
  ready : s.start.stage = 0x0C
  safe : s.integ.safe = false
  identity : s.keys.identity ≠ []
  draws : s.drawState 4 = .serves

/-- The state after the three draws of a signed response: its nonce, the signature's randomness and mask. -/
def Drawn (s : State) : State := (((s.drawFrom 4 32).2.drawFrom 4 32).2.drawFrom 4 32).2

/-- A signature over a transcript with the draws of a response. -/
def SignedBy (s : State) (ctx : String) (transcript : Bytes) : Bytes :=
  s.spdmSig ctx transcript (drawBytes (s.free + 1) 32) (drawBytes (s.free + 2) 32)

/-! ## The whole machine -/

/-- The memories keep their canonical form: addresses strictly rising, and no entry that an unlisted address reads as. -/
structure MemoryForm (s : State) : Prop where
  window : s.window.wf 0 = true
  host : s.host.wf 0 = true
  hbm : s.hbm.wf 0 = true
  emram : s.emram.wf 0 = true

/-- The bounds that the rules set: at most 16 commit tokens (R409), five counter groups and three revocation groups (R412),
two bank records (R407). -/
structure Bounds (s : State) : Prop where
  tokens : s.start.tokens ≤ 16
  groups : s.lcs.groups.length = 5
  revoked : s.lcs.revoked.length = 3
  banks : s.start.banks.length = 2

end Sys2Proof.Claims

open Sys2Proof Sys2Proof.Machine Sys2Proof.Claims

/-! # Statements: the cores -/

/-- R299, R300, R301 and MFY of R304: the value of every scalar instruction, its flags, and its frame. -/
def Obligations.ScalarResults : Prop :=
  ∀ (i : Instr) (f : RegForm), scalarForm i = some f → ∀ s, Runs s f.c f.g →
    let b := before s f.c f.g f.reads [f.rd]
    ∃ t, Gives i s t ∧ Writes t b f.c f.rd (f.value (b.core f.c)) (f.fl (b.core f.c)) ((b.core f.c).pc + 4)

/-- R302: every element of a short-vector result, and the frame. -/
def Sys2Proof.Claims.ShortVectorResults : Prop :=
  ∀ (i : Instr) (f : PackedForm), packedForm i = some f → f.es ≠ 3 → ∀ s, Runs s f.c f.g →
    let b := before s f.c f.g [f.rs1, f.rs2] [f.rd]
    let k := b.core f.c
    let w := 8 * 2 ^ f.es.toNat
    ∃ t v, Gives i s t ∧ Writes t b f.c f.rd v k.fl (k.pc + 4) ∧
      ∀ j, j < 64 / w → element w v j =
        f.op w (element w (k.gx f.rs1) j) (element w (k.gx f.rs2) j) ((k.gx f.rs2).toNat % 32)

/-- R303: the value of gd, and the frame; FL is unchanged. -/
def Sys2Proof.Claims.GuardResults : Prop :=
  ∀ (i : Instr) (f : GuardForm), guardForm i = some f → ∀ s, Runs s f.c f.g →
    let b := (before s f.c f.g f.reads []).waitGuards f.c (f.gd :: f.guards)
    ∃ t, Gives i s t ∧ WritesGuard t b f.c f.gd (f.value (b.core f.c))

/-- R304 to R306: what a multiplier instruction starts, and when each write lands. -/
def Sys2Proof.Claims.MultiplierStarts : Prop :=
  ∀ (i : Instr) (f : MulForm), mulForm i = some f → ∀ s, Runs s f.c f.g →
    let b := before s f.c f.g f.reads [f.rd]
    let k := b.core f.c
    ∃ t, Gives i s t ∧
      CoreOnly t b f.c { k with mulq := k.mulq ++ started k f.outs, pc := k.pc + 4, cycle := k.cycle + 1 }

/-- R305, R306: at a cycle every register holds the last write that has landed by then; YIELD_WRITE_LAND lets the writes
of the core's cycle land, and on a waiting core all of them (R314). -/
def Sys2Proof.Claims.MultiplierWritesLand : Prop :=
  ∀ (c : Nat) (s : State), c < 69 →
    let k := s.core c
    let n := if k.waiting then k.mulq.foldl (fun a m => Nat.max a m.land) k.cycle else k.cycle
    ∃ t, Gives (.yieldWriteLand c) s t ∧
      (∀ r : BitVec 2, (t.core c).gy r = match landed k n true r.toNat with | some m => m.val | none => k.gy r) ∧
      (∀ r : BitVec 5, r ≠ 0 → (∀ m ∈ k.mulq, m.reg < 32) →
        (t.core c).gx r = match landed k n false r.toNat with | some m => m.val | none => k.gx r) ∧
      CoreOnly t s c { k with x := (t.core c).x, y := (t.core c).y, mulq := k.mulq.filter fun m => decide (n < m.land)
                              cycle := Nat.max k.cycle n }

/-- R299, R308: a load that meets no exception gives rd the octets at its address; one from SRAM or ROM is there two
cycles later, any other stalls for a free number of cycles (log 80). -/
def Sys2Proof.Claims.LoadResults : Prop :=
  ∀ (c : Nat) (g : BitVec 4) (sz : BitVec 3) (rd rs1 : BitVec 5) (imm : BitVec 9) (s : State) (p : Place),
    Runs s c g → sz ≠ 7 →
    let b := before s c g [rs1] [rd]
    let k := b.core c
    let a := loadAddr k sz rs1 imm
    a.toNat % loadSize sz = 0 → placeOf c a.toNat (loadSize sz) = some p → p ≠ .window →
    let v := loadExtend sz (octets b c p a.toNat (loadSize sz))
    ∃ t, Gives (.ld c g sz rd rs1 imm) s t ∧
      (p.fast = true → (∀ r, (t.core c).gx r = if r = rd ∧ r ≠ 0 then v else k.gx r) ∧
        CoreOnly t b c { k with x := (t.core c).x, loadRd := rd.toNat, loadAt := k.cycle + 2, pc := k.pc + 4, cycle := k.cycle + 1 }) ∧
      (p.fast = false →
        let w := (k.stallTo (k.cycle + (Config.freeWord b.free).toNat + 1)).settleTo (k.cycle + (Config.freeWord b.free).toNat + 1)
        (∀ r, (t.core c).gx r = if r = rd ∧ r ≠ 0 then v else w.gx r) ∧
        CoreOnly t { b with free := b.free + 1 } c { w with x := (t.core c).x, pc := w.pc + 4, cycle := w.cycle + 1 })

/-- R11, R308: a load or store of 4 or 8 octets in the chief's control window is a read or a write of a register; one of
another width reads 0 and writes nothing, as R11 has it for the host. -/
def Sys2Proof.Claims.ControlWindowAccess : Prop :=
  (∀ (g : BitVec 4) (sz : BitVec 3) (rd rs1 : BitVec 5) (imm : BitVec 9) (s : State), Runs s 0 g → sz ≠ 7 →
    let b := before s 0 g [rs1] [rd]
    let a := loadAddr (b.core 0) sz rs1 imm
    let n := loadSize sz
    a.toNat % n = 0 → placeOf 0 a.toNat n = some .window →
    let r := if n = 4 ∨ n = 8 then b.readReg (a.toNat - 0x100000000) (decide (n = 8)) else (0, b)
    Gives (.ld 0 g sz rd rs1 imm) s ((r.2.loaded 0 rd .window (loadExtend sz r.1)).advance 0)) ∧
  (∀ (g : BitVec 4) (sz : BitVec 2) (rs2 rs1 : BitVec 5) (imm : BitVec 10) (s : State), Runs s 0 g →
    let b := before s 0 g [rs1, rs2] []
    let a := storeAddr (b.core 0) sz rs1 imm
    let n := 2 ^ sz.toNat
    a.toNat % n = 0 → placeOf 0 a.toNat n = some .window →
    Gives (.st 0 g sz rs2 rs1 imm) s ((if n = 4 ∨ n = 8 then
      b.writeReg true (a.toNat - 0x100000000) (decide (n = 8)) ((b.core 0).gx rs2).toNat else b).advance 0))

/-- R292, R299, R308: a store writes the octets of its width at its address, little-endian, and no other octet; in a record or an
extent of the key vault, whose sealed octets keep their length (log 60), the rule stops at that slot. Only memory changes: of a
command's context what the cores have stored there, of eMRAM the areas of R29. -/
def Obligations.StoreResults : Prop :=
  ∀ (c : Nat) (g : BitVec 4) (sz : BitVec 2) (rs2 rs1 : BitVec 5) (imm : BitVec 10) (s : State) (p : Place), Runs s c g →
    let b := before s c g [rs1, rs2] []
    let k := b.core c
    let a := (storeAddr k sz rs1 imm).toNat
    let n := 2 ^ sz.toNat
    a % n = 0 → placeOf c a n = some p → memoryPlace p → b.ctxs.rising = true →
    ∃ t, Gives (.st c g sz rs2 rs1 imm) s t ∧
      (∀ (x : Nat) (q : Place), placeOf c x 1 = some q → memoryPlace q → (q = .emram → b.log.unwritten = 0) →
        ¬ (inVault b p a ∧ inVault b q x) →
        t.placeByte c q x = if a ≤ x ∧ x < a + n then BitVec.ofNat 8 ((k.gx rs2).toNat / 256 ^ (x - a)) else b.placeByte c q x) ∧
      t.core c = { k with dmem := (t.core c).dmem, scratch := (t.core c).scratch, pc := k.pc + 4, cycle := k.cycle + 1 } ∧
      (∀ d, d ≠ c → t.core d = b.core d) ∧ ContextsButMemory t b ∧
      (p = .data → SameOutside t b) ∧
      (p = .context → { t with cores := b.cores, ctxs := b.ctxs } = b) ∧
      (p = .hbm → { t with cores := b.cores, ctxs := b.ctxs, window := b.window, hbm := b.hbm, keys := b.keys } = b ∧
        t.keys = { b.keys with slots := t.keys.slots } ∧ (¬ inVault b p a → t.keys = b.keys)) ∧
      (p = .emram → { t with cores := b.cores, emram := b.emram, keys := b.keys, integ := b.integ, log := b.log
                             stateful := b.stateful } = b ∧
        t.keys = { b.keys with helpA := t.keys.helpA, helpB := t.keys.helpB } ∧
        t.integ = { b.integ with mapCopyA := t.integ.mapCopyA, mapCopyB := t.integ.mapCopyB } ∧
        t.log = { b.log with kept := t.log.kept, circ := t.log.circ } ∧
        t.stateful = { b.stateful with journal := t.stateful.journal })

/-- R308, R310: a misaligned access raises ALIGN; one outside the map, or a store to ROM or instruction SRAM, raises BUS;
EINFO gets the address. -/
def Obligations.AccessTraps : Prop :=
  (∀ (c : Nat) (g : BitVec 4) (sz : BitVec 3) (rd rs1 : BitVec 5) (imm : BitVec 9) (s : State), Runs s c g → sz ≠ 7 →
    let b := before s c g [rs1] [rd]
    let a := loadAddr (b.core c) sz rs1 imm
    (a.toNat % loadSize sz ≠ 0 → Gives (.ld c g sz rd rs1 imm) s (b.except c 3 a)) ∧
    (a.toNat % loadSize sz = 0 → placeOf c a.toNat (loadSize sz) = none → Gives (.ld c g sz rd rs1 imm) s (b.except c 4 a))) ∧
  (∀ (c : Nat) (g : BitVec 4) (sz : BitVec 2) (rs2 rs1 : BitVec 5) (imm : BitVec 10) (s : State), Runs s c g →
    let b := before s c g [rs1, rs2] []
    let a := storeAddr (b.core c) sz rs1 imm
    let p := placeOf c a.toNat (2 ^ sz.toNat)
    (a.toNat % 2 ^ sz.toNat ≠ 0 → Gives (.st c g sz rs2 rs1 imm) s (b.except c 3 a)) ∧
    (a.toNat % 2 ^ sz.toNat = 0 → p = none ∨ p = some .rom ∨ p = some .insn → Gives (.st c g sz rs2 rs1 imm) s (b.except c 4 a)))

/-- R299: the branches. A JR target with a low bit set raises ALIGN, with the target in EINFO. -/
def Obligations.BranchResults : Prop :=
  (∀ (c : Nat) (g : BitVec 4) (imm : BitVec 22) (s : State), Runs s c g →
    let b := s.atGuard c g
    let k := b.core c
    ∃ t, Gives (.b c g imm) s t ∧ CoreOnly t b c { k with pc := k.pc + imm.signExtend 64 * 4, cycle := k.cycle + 1 }) ∧
  (∀ (c : Nat) (g : BitVec 4) (imm : BitVec 22) (s : State), Runs s c g →
    let b := before s c g [] [1]
    let k := b.core c
    ∃ t, Gives (.bl c g imm) s t ∧ Writes t b c 1 (k.pc + 4) k.fl (k.pc + imm.signExtend 64 * 4)) ∧
  (∀ (c : Nat) (g : BitVec 4) (rd rs1 : BitVec 5) (imm : BitVec 12) (s : State), Runs s c g →
    let b := before s c g [rs1] [rd]
    let k := b.core c
    let dest := k.gx rs1 + imm.signExtend 64 * 4
    (dest.toNat % 4 = 0 → ∃ t, Gives (.jr c g rd rs1 imm) s t ∧ Writes t b c rd (k.pc + 4) k.fl dest) ∧
    (dest.toNat % 4 ≠ 0 → Gives (.jr c g rd rs1 imm) s (b.except c 3 dest)))

/-- R309: SYSRD gives rd the register, without waiting; R310: a number of a coprocessor that the core lacks raises
CP_ABSENT. -/
def Sys2Proof.Claims.SystemRegisterReads : Prop :=
  ∀ (c : Nat) (g : BitVec 4) (rd : BitVec 5) (num : BitVec 12) (s : State), Runs s c g → assigned c num.toNat = true →
    (num.toNat ∈ [1, 2, 4, 7, 8] → Super s c g) →
    (absentCp c num.toNat = true → Gives (.sysrd c g rd num) s ((s.atGuard c g).except c 6 (BitVec.ofNat 64 ((num.toNat - 0x200) / 16)))) ∧
    (absentCp c num.toNat = false →
      let b := before s c g [] [rd]
      ∃ t, Gives (.sysrd c g rd num) s t ∧ Writes t b c rd (b.sysValue c num.toNat) (b.core c).fl ((b.core c).pc + 4))

/-- R292, R309, R321, R335: SYSWR waits, then writes; what a later read gives is what the register keeps of the value. -/
def Sys2Proof.Claims.SystemRegisterWrites : Prop :=
  ∀ (c : Nat) (g : BitVec 4) (rs : BitVec 5) (num : BitVec 12) (s : State), Runs s c g → assigned c num.toNat = true →
    absentCp c num.toNat = false →
    (num.toNat ≠ 0xA → num.toNat ≠ 0x20 → num.toNat < 0x100 ∨ 0x200 ≤ num.toNat → Super s c g) →
    let b := (before s c g [rs] []).sysWaits c num.toNat
    let v := (b.core c).gx rs
    ∃ t, Gives (.syswr c g rs num) s t ∧
      (∀ w, sysKeeps b c num.toNat v = some w → t.sysValue c num.toNat = w) ∧
      (num.toNat ≠ 0x14 → SameOutside t b ∧ (∀ d, d ≠ c → t.core d = b.core d) ∧ (t.core c).x = (b.core c).x ∧
        (t.core c).pc = (b.core c).pc + 4 ∧ (t.core c).dmem = (b.core c).dmem ∧
        (t.core c).cycle = (b.core c).cycle + (if num.toNat = 0x20 ∧ 5 ≤ c then 41 else 1))

/-- R297 to R299, R314: FENCE, ERET, PLAINE, PLAINX and WFI. -/
def Obligations.SystemInstructions : Prop :=
  (∀ (c : Nat) (g : BitVec 4) (s : State), Runs s c g →
    let k := (s.atGuard c g).core c
    ∃ t, Gives (.fence c g) s t ∧ CoreOnly t (s.atGuard c g) c { k with pc := k.pc + 4, cycle := k.cycle + 1 }) ∧
  (∀ (c : Nat) (g : BitVec 4) (s : State), Runs s c g → Super s c g →
    let b := (s.atGuard c g).quiesce c
    let k := b.core c
    ∃ t, Gives (.eret c g) s t ∧
      CoreOnly t b c { k with priv := k.epstate.getLsbD 0, ie := k.epstate.getLsbD 1, exl := k.epstate.getLsbD 2
                              curPrio := (k.epstate >>> 8).setWidth 5, pc := k.epc - BitVec.ofNat 64 (k.epc.toNat % 4)
                              cycle := k.cycle + 1 }) ∧
  (∀ (c : Nat) (g : BitVec 4) (s : State), Runs s c g → Super s c g →
    let k := (s.atGuard c g).core c
    ∃ t, Gives (.plaine c g) s t ∧
      CoreOnly t (s.atGuard c g) c { k with plain := true, init := 0, pc := k.pc + 4, cycle := k.cycle + 1 }) ∧
  (∀ (c : Nat) (g : BitVec 4) (s : State), Runs s c g → Super s c g →
    (∀ n : BitVec 3, n ≠ 0 → ((((s.settleCore c).waitGuards c [1, 2, 3, 4, 5, 6, 7]).core c).init.getLsbD n.toNat) = true) →
    let b := (s.atGuard c g).waitGuards c [1, 2, 3, 4, 5, 6, 7]
    let k := b.core c
    ∃ t, Gives (.plainx c g) s t ∧
      CoreOnly t b c { k with plain := false, recov := false, recovLocked := true, pc := k.pc + 4, cycle := k.cycle + 1 }) ∧
  (∀ (c : Nat) (g : BitVec 4) (s : State), Runs s c g → Super s c g →
    let k := (s.atGuard c g).core c
    let n := k.mulq.foldl (fun a m => Nat.max a m.land) k.cycle
    let w := (k.stallTo n).settleTo n
    (k.ie = true ∨ (s.atGuard c g).eventPending c = false → ∃ t, Gives (.wfi c g) s t ∧
      CoreOnly t (s.atGuard c g) c { w with waiting := true, pc := w.pc + 4, cycle := w.cycle + 1 }) ∧
    (k.ie = false → (s.atGuard c g).eventPending c = true → ∃ t, Gives (.wfi c g) s t ∧
      (t.core c).waiting = false ∧ (t.core c).pc = w.pc + 4))

/-- R310, R311, R315: an exception outside recovery and with EXL 0: the waits, then the saved state, the mode and the
entry address, in one step. -/
def Sys2Proof.Claims.ExceptionEntry : Prop :=
  ∀ (s : State) (c code : Nat) (info : BitVec 64) (next : Bool), (s.core c).recov = false → (s.core c).exl = false →
    let b := s.quiesceAll c
    let k := b.core c
    CoreOnly (s.except c code info next) b c
      { k with epstate := k.pstate, epc := (if next then k.pc + 4 else k.pc), einfo := info, ecause := BitVec.ofNat 64 code
               priv := true, ie := false, exl := true, pc := k.vbase + BitVec.ofNat 64 (64 * code), cycle := k.cycle + 1 }

/-- R298, R315: an exception while EXL is 1 is a double fault, a recovery entry; while RECOV is 1 the core halts. An
uncorrectable guard-file error is a recovery entry whatever EXL is (R310). -/
def Sys2Proof.Claims.RecoveryEntry : Prop :=
  ∀ (s : State) (c code : Nat) (info : BitVec 64) (next : Bool),
    let k := s.core c
    let entry := fun cause : Nat =>
      { k with dfpc := k.pc, dfcause := BitVec.ofNat 8 cause, plain := true, recov := true, priv := true, ie := false
               init := 0, pc := k.recovVec, cycle := k.cycle + 1 }
    (k.recov = false → k.exl = true → CoreOnly (s.except c code info next) s c (entry 11)) ∧
    (k.recov = false → CoreOnly (s.guardError c) s c (entry 10)) ∧
    (k.recov = true → s.except c code info next = s.haltCore c ∧ s.guardError c = s.haltCore c) ∧
    let h := s.onCore c fun k => { k with halted := true }
    (c = 0 → s.haltCore c = h.alarm 3 0x41) ∧
    (1 ≤ c → c < 5 → s.haltCore c = h.regionFault (c - 1) 3) ∧
    (5 ≤ c → h.working (coreUnit c) = true → s.haltCore c = (h.abortUnit (coreUnit c) (Part.worksOn (coreUnit c))).charge (coreUnit c) 4)

/-- R299, R310: TRAP raises its exception, with EPC at the next instruction and its code in EINFO; a word that no
instruction has raises ILLEGAL, or CP_ABSENT where its coprocessor is absent; PLAINX with guards unwritten raises
ILLEGAL. -/
def Sys2Proof.Claims.TrapsAndIllegalWords : Prop :=
  (∀ (c : Nat) (g : BitVec 4) (code : BitVec 10) (s : State), Runs s c g →
    Gives (.trap c g code) s ((s.atGuard c g).except c 8 (code.setWidth 64) true)) ∧
  (∀ (c : Nat) (w : BitVec 32) (s : State), c < 69 → (s.core c).held = false → (s.core c).halted = false →
    (s.core c).waiting = false → fetchOk c (s.core c).pc = true → s.wordLegal c w = false →
    Gives (.undefinedEncoding c w) s (s.except c 1 (w.setWidth 64))) ∧
  (∀ (c : Nat) (g : BitVec 4) (s : State), c < 69 → (s.core c).held = false → (s.core c).halted = false →
    (s.core c).waiting = false → fetchOk c (s.core c).pc = true →
    (∃ n : BitVec 3, n ≠ 0 ∧ (((s.settleCore c).waitGuards c [1, 2, 3, 4, 5, 6, 7]).core c).init.getLsbD n.toNat = false) →
    Gives (.plainx c g) s (s.except c 1 ((insnWord g 0x1E (fmtR 0 0 0 0x03)).setWidth 64)))

/-- R299, R302, R309, R310, R323, R324, R329 to R331: an ILLEGAL encoding raises its exception before its guard is read, with
its word in EINFO. -/
def Sys2Proof.Claims.IllegalForms : Prop :=
  ∀ (i : Instr) (c : Nat) (w : BitVec 32), illegalWord i = some (c, w) → ∀ s, c < 69 → (s.core c).held = false →
    (s.core c).halted = false → (s.core c).waiting = false → fetchOk c (s.core c).pc = true →
    Gives i s (s.except c 1 (w.setWidth 64))

/-- R296: an instruction whose guard or condition does not hold takes one cycle and does nothing else. -/
def Sys2Proof.Claims.FalseGuardHasNoEffect : Prop :=
  ∀ (i : Instr) (c : Nat) (g : BitVec 4), guarded i = some (c, g) → ∀ s, c < 69 → legalForm s i →
    (s.core c).held = false → (s.core c).halted = false → (s.core c).waiting = false → fetchOk c (s.core c).pc = true →
    ((s.atGuard c g).core c).takes g = false →
    let k := (s.atGuard c g).core c
    ∃ t, Gives i s t ∧ CoreOnly t (s.atGuard c g) c { k with pc := k.pc + 4, cycle := k.cycle + 1 }

/-- R292, R310: what task mode cannot execute raises PRIV, with the word in EINFO. -/
def Sys2Proof.Claims.TaskModeRaisesPriv : Prop :=
  ∀ (i : Instr) (c : Nat) (g : BitVec 4) (w : BitVec 32), privWord i = some (c, g, w) → ∀ s, Runs s c g →
    ((s.atGuard c g).core c).priv = false → legalForm s i →
    Gives i s ((s.atGuard c g).except c 2 (w.setWidth 64))

/-- R313, R381: a core takes the presented source when IE is 1, EXL and RECOV are 0, and its priority number is below
CURPRIO: the waits, the saved state, and the handler of the source; the source becomes active on this core. -/
def Sys2Proof.Claims.InterruptAcceptance : Prop :=
  ∀ (c prio cl : Nat) (s : State), c < 69 → s.presented c = some (prio, cl) → (s.core c).held = false →
    (s.core c).halted = false → (s.core c).ie = true → (s.core c).exl = false → (s.core c).recov = false →
    prio < (s.core c).curPrio.toNat →
    let b := if ((s.quiesceAll c).core c).waiting then (s.quiesceAll c).endWait c else s.quiesceAll c
    let k := b.core c
    ∃ t, Gives (.interruptAccept c) s t ∧
      t.core c = { k with epstate := k.pstate, epc := k.pc, ecause := BitVec.ofNat 64 (256 + 65536 * (0x700 + cl)), priv := true
                          ie := false, exl := true, curPrio := BitVec.ofNat 5 prio, pc := (b.route cl).handler
                          waiting := false, cycle := k.cycle + 1 } ∧
      (∀ d, d ≠ c → t.core d = b.core d) ∧
      t.route cl = { b.route cl with pending := false, active := true, activeOn := c } ∧
      (∀ j, j ≠ cl → t.route j = b.route j) ∧
      { t with cores := b.cores, events := b.events } = b ∧ { t.events with routes := b.events.routes } = b.events

/-- R383: EOI ends the service of a source that is active on the core; any other EOI is counted as stray. -/
def Sys2Proof.Claims.EndOfInterrupt : Prop :=
  ∀ (c : Nat) (src : BitVec 11) (s : State), c < 69 → (s.core c).held = false → (s.core c).halted = false →
    let cl := src.toNat - 0x700
    (0x700 ≤ src.toNat → (s.route cl).active = true → (s.route cl).activeOn = c →
      ∃ t, Gives (.eoi c src) s t ∧ t.route cl = { s.route cl with active := false } ∧
        (∀ j, j ≠ cl → t.route j = s.route j) ∧ { t with events := s.events } = s ∧
        { t.events with routes := s.events.routes } = s.events) ∧
    ((src.toNat < 0x700 ∨ (s.route cl).active = false ∨ (s.route cl).activeOn ≠ c) →
      Gives (.eoi c src) s { s with events := { s.events with strayEoi := Nat.min (s.events.strayEoi + 1) (2 ^ 32 - 1) } })

/-- R357, R358, R365, R369: a core watchdog that runs out raises LOCKSTEP on the chief, retires the region of a region
core at the next boundary, and charges a sheet with a transient; its period starts anew. -/
def Sys2Proof.Claims.CoreWatchdog : Prop :=
  ∀ (c : Nat) (s : State), c < 69 → (s.core c).held = false → (s.core c).wdog ≠ 0 →
    (s.core c).wdogFrom + (s.core c).wdog.toNat ≤ s.now →
    let b := s.onCore c fun k => { k with wdogFrom := s.now }
    let u := 26 * ((c - 5) / 16) + (c - 5) % 16
    (c = 0 → Gives (.coreWdogExpire c) s (b.alarm 3 0x42)) ∧
    (1 ≤ c → c < 5 → Gives (.coreWdogExpire c) s (b.regionFault (c - 1) 4)) ∧
    (5 ≤ c → b.working u = true → Gives (.coreWdogExpire c) s ((b.abortUnit u (Part.worksOn u)).charge u 4)) ∧
    (5 ≤ c → b.working u = false → Gives (.coreWdogExpire c) s b)

/-- R310, R348, R358, R369, R389: an uncorrectable error by where it stands. -/
def Obligations.UncorrectableErrors : Prop :=
  (∀ (u c : Nat) (s : State), c < 69 → s.issuing c = true → Gives (.uncorrectableEccError u (.guardFile c)) s (s.guardError c)) ∧
  (∀ (u c : Nat) (a : BitVec 64) (s : State), c < 69 → s.issuing c = true →
    Gives (.uncorrectableEccError u (.coreData c a)) s (s.except c 4 a)) ∧
  (∀ (u : Nat) (s : State), u < 104 → s.serving = true →
    (unitKind u = 0 → Gives (.uncorrectableEccError u .sheetSram) s (s.eccFault u)) ∧
    (unitKind u = 1 → Gives (.uncorrectableEccError u .engineOps) s (s.eccFault u)) ∧
    (∀ l, 2 ≤ unitKind u → Gives (.uncorrectableEccError u (.laneState l)) s (s.laneFault u l)) ∧
    (∀ k, Gives (.uncorrectableEccError u (.store k)) s (s.storeFault u k)) ∧
    Gives (.uncorrectableEccError u .storeBit) s (s.storeBit u) ∧
    Gives (.uncorrectableEccError u .contextLine) s (s.eccFault u)) ∧
  (∀ (u c : Nat) (s : State), c < 69 → s.issuing c = true →
    Gives (.uncorrectableEccError u (.coreFetch c)) s (s.except c 5 (s.core c).pc)) ∧
  (∀ (u : Nat) (s : State), (s.pastStage Stage.hbm = true → Gives (.uncorrectableEccError u .keyCache) s (s.alarm 4 0x50) ∧
      Gives (.uncorrectableEccError u .keyPath) s (s.alarm 4 0x53)) ∧
    (s.ready = true → Gives (.uncorrectableEccError u .writer) s (s.alarm 5 0x63))) ∧
  (∀ (u w : Nat) (s : State), w < 2048 → ∃ t, Gives (.uncorrectableEccError u (.logWord 1 w)) s t ∧
    (∀ k, (t.log.circ.find k).map EvRec.code = if k / 2 = w then some 0xFFFF else (s.log.circ.find k).map EvRec.code) ∧
    t.log.kept = s.log.kept ∧ { t with log := s.log } = s) ∧
  (∀ (u w : Nat) (s : State), w < 128 → ∃ t, Gives (.uncorrectableEccError u (.logWord 0 w)) s t ∧
    (∀ k, (t.log.kept.find k).map EvRec.code = if k / 2 = w then some 0xFFFF else (s.log.kept.find k).map EvRec.code) ∧
    t.log.circ = s.log.circ ∧ { t with log := s.log } = s)

/-- R289, R316, R317, R335, R337: a coprocessor command joins its queue with its operands, VL and configuration as they
stand at issue; one of an absent coprocessor raises CP_ABSENT, one whose entry is not loaded ILLEGAL. -/
def Obligations.CoprocessorIssue : Prop :=
  (∀ (i : Instr) (f : CpForm), cpForm i = some f → ∀ s, Runs s f.c f.g → (f.p = 4 ∨ f.p = 6 → Super s f.c f.g) →
    (present f.c f.p → s.entryLoaded f.p f.fn = true →
      let b := beforeIssue s f.c f.g f.p [f.rs1, f.rs2] (if returns f.p f.fn then [f.rd] else [])
      let k := b.core f.c
      ∃ t, Gives i s t ∧ Joins t b f.c f.p (cpCmd k f.fn f.rd.toNat (k.gx f.rs1) (k.gx f.rs2))) ∧
    (¬ present f.c f.p → Gives i s ((s.atGuard f.c f.g).except f.c 6 (BitVec.ofNat 64 f.p)))) ∧
  (∀ (i : Instr) (f : CpForm), cpForm i = some f → ∀ s, f.c < 69 → (s.core f.c).held = false → (s.core f.c).halted = false →
    (s.core f.c).waiting = false → fetchOk f.c (s.core f.c).pc = true → present f.c f.p → s.entryLoaded f.p f.fn = false →
    Gives i s (s.except f.c 1 ((insnWord f.g (0x30 + f.p) (fmtC f.fn f.rd f.rs1 f.rs2)).setWidth 64))) ∧
  (∀ (c : Nat) (g : BitVec 4) (vd : BitVec 5) (s : State), Runs s c g →
    (5 ≤ c →
      let r := State.cpWait c 5 (Core.awaitsV [vd.toNat]) cpFuel ((s.atGuard c g).settleCore c)
      let r := r.onCore c fun k =>
        let k := k.stallTo ((k.beats.filter fun b => b.reg == vd.toNat).foldl (fun a b => Nat.max a (b.leave + 1)) 0)
        k.settleTo k.cycle
      let b := State.cpWait c 5 (fun k => decide (8 ≤ (k.cp 5).queue.length)) cpFuel r
      ∃ t, Gives (.rpMaskv c g vd) s t ∧ Joins t b c 5 (cpCmd (b.core c) 3 vd.toNat 0 0)) ∧
    (c < 5 → Gives (.rpMaskv c g vd) s ((s.atGuard c g).except c 6 5)))

/-- R317, R338: CPSTAT reads the status word at once; CPSYNC waits until the queue is empty, and a fault that stands is
read, cleared and raises CP_FAULT. -/
def Sys2Proof.Claims.CoprocessorStatus : Prop :=
  ∀ (c : Nat) (g cp : BitVec 4) (rd : BitVec 5) (s : State), Runs s c g → (cp.toNat = 4 ∨ cp.toNat = 6 → Super s c g) →
    (¬ present c cp.toNat → Gives (.cpstat c g cp rd) s ((s.atGuard c g).except c 6 (BitVec.ofNat 64 cp.toNat)) ∧
      Gives (.cpsync c g cp rd) s ((s.atGuard c g).except c 6 (BitVec.ofNat 64 cp.toNat))) ∧
    (present c cp.toNat →
      let b := before s c g [] [rd]
      let x := (b.core c).cp cp.toNat
      let w := BitVec.ofNat 64 ((if x.queue = [] then 0 else 1) + (if x.fault = none then 0 else 2) +
        16 * (x.fault.getD 0 % 256) + 65536 * x.queue.length)
      ∃ t, Gives (.cpstat c g cp rd) s t ∧ Writes t b c rd w (b.core c).fl ((b.core c).pc + 4)) ∧
    (present c cp.toNat →
      let b := State.cpWait c cp.toNat (fun k => !(k.cp cp.toNat).queue.isEmpty) cpFuel (before s c g [] [rd])
      let x := (b.core c).cp cp.toNat
      (x.fault = none → ∃ t, Gives (.cpsync c g cp rd) s t ∧ Writes t b c rd x.status (b.core c).fl ((b.core c).pc + 4)) ∧
      (∀ f, x.fault = some f → Gives (.cpsync c g cp rd) s
        ((b.onCore c fun k => k.setCp cp.toNat fun y => { y with fault := none }).except c 7 (BitVec.ofNat 64 (cp.toNat + 16 * f)))))

/-- R317, R337, R338: a queued command runs to its end in order of issue within its group; one behind a fault is
discarded, one that faults has no effect and its code stands. -/
def Sys2Proof.Claims.CoprocessorCompletion : Prop :=
  ∀ (c p : Nat) (m : CpCmd) (s : State), c < 69 → (s.core c).cpNext p = some (p, m) →
    let k := s.core c
    let r := s.cpRun c p m
    (r.2 ≤ k.cycle → Gives (.coprocessorCommandComplete c p) s r.1) ∧
    (k.cycle < r.2 → k.waiting = true ∨ k.halted = true →
      Gives (.coprocessorCommandComplete c p) s (r.1.onCore c fun k => { k with cycle := Nat.max k.cycle r.2 })) ∧
    ((k.cp p).fault.isSome → CoreOnly r.1 s c { k with cps := (r.1.core c).cps } ∧
      (r.1.core c).cp p = { k.cp p with queue := (k.cp p).queue.tail }) ∧
    ((k.cp p).fault = none → ∀ code,
      (s.onCore c fun k => k.setCp p fun x => { x with queue := x.queue.tail }).cpEffect c p m = .error code →
      CoreOnly r.1 s c { k with cps := (r.1.core c).cps } ∧
      ((r.1.core c).cp p).fault = some code ∧ ((r.1.core c).cp p).queue = (k.cp p).queue.tail)

/-- R320, R322, R324 to R326, R328 to R330: the elements of vd, the status bits and the frame of a vector instruction.
`ahead` is a core as it stands once every beat in flight has written. -/
def Sys2Proof.Claims.VectorResults : Prop :=
  ∀ (i : Instr) (f : VecForm), vecForm i = some f → 5 ≤ f.c → ∀ s, Runs s f.c f.g →
    let b := beforeVec s f.c f.g f.xr [] (f.vd.toNat :: f.srcs)
    let w := (b.core f.c).vecWait f.shape
    let a := w.ahead
    a.vl ≤ 256 →
    ∃ t, Gives i s t ∧
      (∀ (r : BitVec 5) (e : Nat), e < 256 →
        (isActive a f.vm e → r = f.vd → ∀ v, f.value a e = some v → (t.core f.c).ahead.elem r e = v) ∧
        (¬ (isActive a f.vm e ∧ r = f.vd ∧ (f.value a e).isSome) → (t.core f.c).ahead.elem r e = a.elem r e)) ∧
      ((t.core f.c).sat = true ↔ w.sat = true ∨ ∃ e, isActive a f.vm e ∧ f.sat a e = true) ∧
      ((t.core f.c).qerr = true ↔ w.qerr = true ∨ (f.qerr a = true ∧ ∃ e, isActive a f.vm e)) ∧
      CoreOnly t b f.c { w with beats := (t.core f.c).beats, issues := w.issues + 1, pipeNext := (t.core f.c).pipeNext
                                sat := (t.core f.c).sat, qerr := (t.core f.c).qerr, pc := w.pc + 4, cycle := w.cycle + 1 }

/-- R322, R324: bit e of gd for every active element, every other bit as it was; a compare into g0 writes nothing. -/
def Sys2Proof.Claims.VectorCompares : Prop :=
  ∀ (i : Instr) (f : CmpForm), cmpForm i = some f → 5 ≤ f.c → ∀ s, Runs s f.c f.g →
    let b := beforeVec s f.c f.g (if f.x then [f.vs2] else []) [] (f.vs1.toNat :: (if f.x then [] else [f.vs2.toNat]))
    let w := (b.core f.c).vecWait f.shape
    let a := w.ahead
    a.vl ≤ 256 →
    ∃ t, Gives i s t ∧
      (∀ (n : BitVec 3) (e : Nat), n ≠ 0 → e < 256 →
        (isActive a f.vm e → n = f.gd → ((t.core f.c).ahead.gvec n).getLsbD e = f.holds (a.elem f.vs1 e) (operandB a f.x f.vs2 e)) ∧
        (¬ (isActive a f.vm e ∧ n = f.gd) → ((t.core f.c).ahead.gvec n).getLsbD e = (a.gvec n).getLsbD e)) ∧
      CoreOnly t b f.c { w with beats := (t.core f.c).beats, issues := w.issues + 1, pipeNext := (t.core f.c).pipeNext
                                pc := w.pc + 4, cycle := w.cycle + 1 }

/-- R324: VSETVL and VSETVLI set VL and rd to the length, at most 256; VEXT gives rd one element, or nothing where VL is
0 (log 70). -/
def Sys2Proof.Claims.VectorLengthAndExtract : Prop :=
  (∀ (c : Nat) (g : BitVec 4) (rd rs1 : BitVec 5) (s : State), 5 ≤ c → Runs s c g →
    let b := before s c g [rs1] [rd]
    let n := Nat.min ((b.core c).gx rs1).toNat 256
    ∃ t, Gives (.vsetvl c g rd rs1) s t ∧
      (∀ r, (t.core c).gx r = if r = rd ∧ r ≠ 0 then BitVec.ofNat 64 n else (b.core c).gx r) ∧
      CoreOnly t b c { b.core c with x := (t.core c).x, vl := n, pc := (b.core c).pc + 4, cycle := (b.core c).cycle + 1 }) ∧
  (∀ (c : Nat) (g : BitVec 4) (rd : BitVec 5) (imm : BitVec 9) (s : State), 5 ≤ c → Runs s c g →
    let b := before s c g [] [rd]
    let n := Nat.min imm.toNat 256
    ∃ t, Gives (.vsetvli c g rd imm) s t ∧
      (∀ r, (t.core c).gx r = if r = rd ∧ r ≠ 0 then BitVec.ofNat 64 n else (b.core c).gx r) ∧
      CoreOnly t b c { b.core c with x := (t.core c).x, vl := n, pc := (b.core c).pc + 4, cycle := (b.core c).cycle + 1 }) ∧
  (∀ (c : Nat) (g : BitVec 4) (xd vs1 xs : BitVec 5) (s : State), 5 ≤ c → Runs s c g →
    let b := beforeVec s c g [xs] [xd] [vs1.toNat]
    let w := (b.core c).vecWait
      { pipe := .vperm, srcs := [], late := [vs1.toNat], dst := none, lat := fun i => i + 1, occupy := id, unitLoad := false }
    let v := (w.ahead.elem vs1 ((w.gx xs).toNat % 256)).setWidth 64
    ∃ t, Gives (.vext c g xd vs1 xs) s t ∧
      (∀ r, (t.core c).gx r = if r = xd ∧ r ≠ 0 ∧ w.vl ≠ 0 then v else w.gx r) ∧
      CoreOnly t b c { w with x := (t.core c).x, loadRd := (t.core c).loadRd, loadAt := (t.core c).loadAt, issues := w.issues + 1
                              pipeNext := (t.core c).pipeNext, pc := w.pc + 4, cycle := w.cycle + 1 })

/-- R331, R333: a vector load or gather none of whose active elements fails brings every active element, and no other. -/
def Sys2Proof.Claims.VectorLoads : Prop :=
  ∀ (i : Instr) (f : VmemForm), vmemForm i = some f → f.store = false → 5 ≤ f.c → ∀ s, Runs s f.c f.g →
    let b := beforeVec s f.c f.g f.xr [] f.vr
    let w := f.waited b
    let a := w.ahead
    let x := f.access (b.core f.c)
    a.vl ≤ 256 → (∀ e, isActive a f.vm e → elementOk x f.sz (f.addr a e)) →
    ∃ t, Gives i s t ∧
      (∀ (r : BitVec 5) (e : Nat), e < 256 →
        (isActive a f.vm e → r = f.v → (t.core f.c).ahead.elem r e = loadedElement b f.c f.sz (f.addr a e)) ∧
        (¬ (isActive a f.vm e ∧ r = f.v) → (t.core f.c).ahead.elem r e = a.elem r e)) ∧
      CoreOnly t (drawnBy x b f.c) f.c { w with beats := (t.core f.c).beats, issues := w.issues + 1
                                                pipeNext := (t.core f.c).pipeNext, pc := w.pc + 4, cycle := w.cycle + 1 }

/-- R331, R333: a vector store or scatter none of whose active elements fails writes the octets of every active element in
ascending order, so that the highest-indexed stands, and no other octet. -/
def Sys2Proof.Claims.VectorStores : Prop :=
  ∀ (i : Instr) (f : VmemForm), vmemForm i = some f → f.store = true → 5 ≤ f.c → ∀ s, Runs s f.c f.g →
    let b := beforeVec s f.c f.g f.xr [] f.vr
    let w := f.waited b
    let a := w.ahead
    let x := f.access (b.core f.c)
    let n := 2 ^ f.sz.toNat
    let covers := fun (e y : Nat) => isActive a f.vm e ∧ (f.addr a e).toNat ≤ y ∧ y < (f.addr a e).toNat + n
    a.vl ≤ 256 → (∀ e, isActive a f.vm e → elementOk x f.sz (f.addr a e)) →
    ∃ t, Gives i s t ∧
      (∀ y, sheetPlace y → (∀ e, ¬ covers e y) → t.vecByte f.c y = b.vecByte f.c y) ∧
      (∀ y e, covers e y → (∀ j, covers j y → j ≤ e) →
        t.vecByte f.c y = BitVec.ofNat 8 ((a.elem f.v e).toNat / 256 ^ (y - (f.addr a e).toNat))) ∧
      ContextsButMemory t b ∧
      CoreOnly { t with ctxs := b.ctxs } (drawnBy x b f.c) f.c { w with
        dmem := (t.core f.c).dmem, scratch := (t.core f.c).scratch, issues := w.issues + 1, pipeNext := (t.core f.c).pipeNext, pc := w.pc + 4, cycle := w.cycle + 1 }

/-- R332, R333: the lowest active element that fails decides a VFAULT, with its address and index, and nothing is loaded
or stored; VGATHER.FF, when it is not the first active element, loads those below it, sets VL to it and FF_HIT. -/
def Sys2Proof.Claims.VectorFaults : Prop :=
  ∀ (i : Instr) (f : VmemForm), vmemForm i = some f → 5 ≤ f.c → ∀ s, Runs s f.c f.g →
    let b := beforeVec s f.c f.g f.xr [] f.vr
    let w := f.waited b
    let a := w.ahead
    let x := f.access (b.core f.c)
    ∀ e, isActive a f.vm e → ¬ elementOk x f.sz (f.addr a e) →
      (∀ j, j < e → isActive a f.vm j → elementOk x f.sz (f.addr a j)) →
      ((f.ff = false ∨ ∀ j, j < e → ¬ isActive a f.vm j) →
        ∃ u, Gives i s (u.except f.c 9 (f.addr a e)) ∧ CoreOnly u b f.c { w with vfaultIdx := e }) ∧
      (f.ff = true → (∃ j, j < e ∧ isActive a f.vm j) → a.vl ≤ 256 →
        ∃ t, Gives i s t ∧ (t.core f.c).vl = e ∧ (t.core f.c).ffHit = true ∧ (t.core f.c).pc = w.pc + 4 ∧
          ∀ (r : BitVec 5) (j : Nat), j < 256 →
            (j < e → isActive a f.vm j → r = f.v → (t.core f.c).ahead.elem r j = loadedElement b f.c f.sz (f.addr a j)) ∧
            (¬ (j < e ∧ isActive a f.vm j ∧ r = f.v) → (t.core f.c).ahead.elem r j = a.elem r j))

/-- R325: the beats whose cycle has come leave their pipes and write; on a core that waits or has halted the next one
leaves, and the core's cycles have run on to it (log 79). -/
def Sys2Proof.Claims.BeatsLeave : Prop :=
  ∀ (c : Nat) (s : State), c < 69 →
    let k := s.core c
    ∀ n, ((k.waiting = false ∧ k.halted = false ∧ n = k.cycle) ∨
        ((k.waiting = true ∨ k.halted = true) ∧ ∃ b, b ∈ k.beats ∧ (∀ x ∈ k.beats, b.leave ≤ x.leave) ∧ n = Nat.max k.cycle (b.leave + 1))) →
      ∃ t, Gives (.beatLeavesPipe c) s t ∧
        (t.core c).beats = (k.beats.filter fun b => decide (n ≤ b.leave)) ∧
        CoreOnly t s c { (k.beats.filter fun b => decide (b.leave < n)).foldl Core.leave k with
                         beats := (t.core c).beats, cycle := n }

/-- R289: an instruction of a core that is held in reset, halted or waiting for an event changes nothing while no event
wakes it. -/
def Sys2Proof.Claims.StoppedCoreIssuesNothing : Prop :=
  ∀ (i : Instr) (c : Nat) (g : BitVec 4), guarded i = some (c, g) → ∀ s, c < 69 →
    (s.core c).held = true ∨ (s.core c).halted = true ∨ (s.core c).waiting = true →
    ((s.core c).waiting = true → (s.core c).ie = true ∨ s.eventPending c = false) → Idle i s

/-- R305, R308, R317, R326: on a core with nothing in flight the interlocks change nothing. -/
def Sys2Proof.Claims.QuietCoreHasNoInterlock : Prop :=
  ∀ (s : State) (c : Nat) (g : BitVec 4) (reads writes : List (BitVec 5)),
    let k := s.core c
    k.mulq = [] → k.beats = [] → (∀ p, (k.cp p).queue = []) → k.loadAt ≤ k.cycle →
    CoreOnly (before s c g reads writes) s c k ∧ CoreOnly (s.quiesceAll c) s c k

/-- R126, R130 to R141, R153 to R161, R167, R173 to R176, R187, R188, R194, R196: the result of each lattice, hybrid,
hash-based, code-based and survey operation; VERIFY_BEARING makes its anchor the most recently used (R195). That a result
is formed when every part has been launched is the model's choice (log 21). -/
def Obligations.SchemeResults : Prop :=
  (∀ i r, schemeResult i = some r → GivesResult i r) ∧
  (∀ (x : Nat) (s : State) (c : Ctx), s.ctxs.find x = some c → c.opcode = 0x1A03 → Launched c → c.result = none →
    let b := s.touchAnchor c.slice (c.payload.take 32)
    let r := match b.anchorHeld c.slice (c.payload.take 32) with
      | some a => Result.verdict (bearingOk a c.payload)
      | none => Result.bare St.inputRejected
    Gives (.verifyBearing x) s ((b.setCtx x fun d => { d with result := some r }).settle x))

/-- R200 to R217, R226 to R240, R253, R258, R262 to R270: the result of each classical, stream and key operation that units
serve. A KEY_PERSIST takes the next value of the persistence counter, reserving a block of 65,536 where none is left
(R265); a KEY_RECEIVE_PREPARE takes a session number; a KEY_IMPORT deposits under the parent of its session (R268). That
a result is formed when every part has been launched is the model's choice (log 21). -/
def Obligations.ServiceResults : Prop :=
  (∀ i r, serviceResult i = some r → GivesResult i r) ∧
  (∀ (x : Nat) (s : State) (c : Ctx) (y : Slot), s.ctxs.find x = some c → Launched c → c.result = none →
    (c.opcode = 0x4005 → s.keys.slots.find (slotKey c.keyA) = some y →
      let b := { s with keys := { s.keys with
        persistNext := s.keys.persistNext + 1
        persistEnd := if s.keys.persistNext = s.keys.persistEnd then s.keys.persistEnd + 65536 else s.keys.persistEnd } }
      Gives (.keyPersist x) s ((b.setCtx x fun d =>
        { d with result := some (Result.output (b.persistBlob c y s.keys.persistNext)) }).settle x)) ∧
    (c.opcode = 0x4007 →
      let b := { s with keys := { s.keys with nextSession := (s.keys.nextSession + 1) % 2 ^ 32 } }
      let head := prepareHead s.keys.nextSession s.keys.serial (pubOf 0x00100003 ((c.drawn 0x00100003).take 64))
      Gives (.keyReceivePrepare x) s ((b.setCtx x fun d =>
        { d with result := some (Result.output (head ++ b.identitySigBy c "MAELARN-KEYMOVE" head)) }).settle x)) ∧
    (c.opcode = 0x4009 →
      let b := s.touchPeer c.slice (uAt c.payload 8 8)
      (s.receiveOf c = none → Gives (.keyImport x) s ((b.setCtx x fun d =>
        { d with result := some (Result.bare St.inputRejected) }).settle x)) ∧
      (∀ e, s.receiveOf c = some e →
        let u := b.setCtx x fun d => { d with keyB := e.parent }
        Gives (.keyImport x) s ((u.setCtx x fun d =>
          { d with result := some (u.importResult { c with keyB := e.parent } e) }).settle x))))

/-- R56, R58, R446, R262: the deadline test of a queue command that a core executes: without TIME_BOUND, or on a command
that runs no datum test, none; otherwise ST_TIME_UNTRUSTED where the datum is not trusted, ST_DEADLINE_MISSED where
V + U has reached DEADLINE. Only then is the command refused for its deadline. -/
def Sys2Proof.Claims.DeadlineDecides : Prop :=
  ∀ i x o, coreCommand i = some (x, o) → ∀ s c, AtTurn s x o c → (chiefVerifies o = true → c.parts = []) →
    (c.timeBound = true → o ∉ [0x6003, 0x5002, 0x1A04, 0x4003, 0x4004] → s.datum.st ≠ .trusted →
      Gives i s (s.refuse x 0x0701)) ∧
    (c.timeBound = true → o ∉ [0x6003, 0x5002, 0x1A04, 0x4003, 0x4004] → s.datum.st = .trusted →
      c.deadline ≤ s.datum.v + s.unc → Gives i s (s.refuse x 0x0402)) ∧
    (c.timeBound = false ∨ o ∈ [0x6003, 0x5002, 0x1A04, 0x4003, 0x4004] ∨
      (s.datum.st = .trusted ∧ s.datum.v + s.unc < c.deadline) → s.deadlineTest c = none)

/-- R81, R82, R87, R130, R143, R450: how a command ends. A refusal has UNIT 0xFFFF and LAUNCH at this boundary; an answer
longer than OUT_LIMIT completes ST_OUT_LIMIT; a result stays while a part has not passed its check; a result without
deposit is the outcome; a deposit makes the reserved slot live under KEY_B, its key
sealed under the vault key, and its handle leads the output. -/
def Sys2Proof.Claims.CommandsEnd : Prop :=
  ∀ (s : State) (i : Nat) (c : Ctx), s.ctxs.find i = some c → c.phase.decided = false → c.drop = false → c.stream = 0 →
  c.batch = false →
    (∀ st, st ≠ 0x0101 → st ≠ 0x0102 → c.reserved = none →
      Ended (s.refuse i st) s i { c with parts := [], launchV := s.datum.v, launchTick := s.now } (Result.bare st)) ∧
    (∀ out, c.reserved = none →
      Ended (s.answer i out) s i { c with parts := [], launchV := s.datum.v, launchTick := s.now }
        (if c.outLimit < out.length then Result.bare 0x0107 else Result.output out)) ∧
    ((∃ p ∈ c.parts, p.phase ≠ .passed) → s.settle i = s) ∧
    (c.phase = .running → c.cont = false → (∀ p ∈ c.parts, p.phase = .passed) →
      (slabCommand c.opcode = true ∨ ∃ p ∈ c.parts, p.slab = false) → c.bearingEnd = none →
      chiefVerifies c.opcode = false → c.opcode ≠ 0x1A01 → c.opcode ≠ 0x4006 → ∀ r, c.result = some r →
      (r.status ≠ 0 → r.status ≠ 0x0101 → r.status ≠ 0x0102 → c.reserved = none → Ended (s.settle i) s i c r) ∧
      (r.status = 0 → r.deposit = none → r.entries = [] → c.reserved = none →
        Ended (s.settle i) s i c (if c.outLimit < r.out.length then Result.bare 0x0107 else r)) ∧
      (∀ m h, r.status = 0 → r.deposit = some m → r.entries = [] → c.reserved = some h → c.orphaned = false →
        r.out.length + 8 ≤ c.outLimit →
        Ended (s.settle i) s i c { r with out := le 8 h ++ r.out, deposit := none, depositPolicy := [], depositPub := [] } ∧
        (∃ x, (s.settle i).keys.slots.find (slotKey h) = some x ∧ x.st = .live ∧ x.gen = h % 2 ^ 24 ∧ x.parent = c.keyB ∧
          x.pub = r.depositPub ∧ x.policy = s.policyAt r.depositPolicy ∧
          x.material s.keys.vaultKey = m.open) ∧
        ∀ k, k ≠ slotKey h → (s.settle i).keys.slots.find k = s.keys.slots.find k))

/-- R39, R171, R287, R390, R410: what the cores answer from the state, R262: KEY_INFO and KEY_DESTROY, R195: ANCHOR_DROP,
R267: KEY_EPOCH_ADVANCE. Nothing changes beside what is named and the answer. -/
def Sys2Proof.Claims.CoreAnswers : Prop :=
  (∀ i x o f, coreAnswer i = some (x, o, f) → ∀ s c, MayRun s x o c → Gives i s (s.answer x (f s c))) ∧
  (∀ i x o f, chiefAnswer i = some (x, o, f) → ∀ s t c, MayRun s x o c → s.keyTests c = .ok t →
    Gives i s (t.answer x (f t c))) ∧
  (∀ x s c k t, MayRun s x 0x4003 c → s.chargeSlice 0x4003 c.slice = .ok t → s.liveKey c.keyA = some k →
    Gives (.keyInfo x) s (t.answer x (keyInfo c.keyA k))) ∧
  (∀ x s c k t, MayRun s x 0x4004 c → s.chargeSlice 0x4004 c.slice = .ok t → t.liveKey c.keyA = some k →
    (∀ b ∈ t.keys.bumps, b.1 ≠ c.keyA) →
    Gives (.keyDestroy x) s ({ t with keys := { t.keys with bumps := t.keys.bumps ++ [(c.keyA, t.now)] } }.answer x [])) ∧
  (∀ x s c, MayRun s x 0x400A c →
    let e := s.keys.epochs.getD c.slice 0 + 1
    Gives (.keyEpochAdvance x) s ({ s with keys := { s.keys with epochs := s.keys.epochs.put c.slice e } }.answer x (le 8 e))) ∧
  (∀ x s c a, MayRun s x 0x1A04 c → s.anchor c.slice (c.payload.take 32) = some a →
    Gives (.anchorDrop x) s ((s.dropAnchor c.slice (c.payload.take 32)).answer x []) ∧
    (s.dropAnchor c.slice (c.payload.take 32)).anchor c.slice (c.payload.take 32) = none)

/-- R102, R280, R286: a RANDOM_BYTES whose bits are in hand launches: free octets of the length asked for leave after the
generation time of one tick per 16,384 octets, at least one; one that has to wait joins the demands. -/
def Sys2Proof.Claims.RandomBytesServed : Prop :=
  ∀ (x : Nat) (s t : State) (c : Ctx), MayRun s x 0x5001 c → s.chargeSlice 0x5001 c.slice = .ok t → s.rngHalted = false →
    let n := uAt c.payload 0 4
    let mode := uAt c.payload 4 1
    let d := 5 + c.region
    let ready := (mode = 0 ∧ s.serves d = true) ∨ (mode ≠ 0 ∧ s.everySeeded = true ∧ s.inHand x = true)
    (ready → ∃ u, Gives (.randomBytes x) s u ∧
      u.ctxs.find x = some { c with
        phase := .running, result := some (Result.output (drawBytes s.free n)), waitFrom := none
        bearingEnd := some (s.now + max 1 ((n + 16383) / 16384)), launchV := s.datum.v, launchTick := s.now
        startUnc := s.unc, startSt := s.datum.st, progress := s.now } ∧
      (∀ j, j ≠ x → u.ctxs.find j = s.ctxs.find j) ∧ u.free = s.free + 1 ∧ u.slices = t.slices ∧
      (mode = 0 → (u.drbg d).requests = (s.drbg d).requests + (n + 65535) / 65536) ∧
      { u with ctxs := t.ctxs, rng := t.rng, free := t.free } = t) ∧
    (mode = 0 → s.serves d = false → Gives (.randomBytes x) s (s.awaitDraw x)) ∧
    (mode ≠ 0 → ¬ ready → Gives (.randomBytes x) s ((s.demand x c).awaitDraw x))

/-- R20, R97, R99, R100, R103, R119, R123, R267: creating, resizing, thawing and asking about a slice, and advancing its
epoch. Which working region becomes the home is open (R20), so it is a free choice. -/
def Sys2Proof.Claims.SliceAdministration : Prop :=
  ∀ (x n : Nat) (s : State) (c : Ctx),
    let b := c.payload
    (∀ q, SliceTurn s x 0x0101 n c → s.createLegal b = true → s.slices.find n = none →
      (∀ y ∈ s.slices.vals, y.pasid ≠ uAt b 4 4) → s.freeQueue = some q → s.sharesFit n (uAt b 0x20 4) (uAt b 0x24 4) = true →
      let r := s.assignHome.1
      let y := newSlice (uAt b 2 2) (uAt b 4 4) (uAt b 8 8) (uAt b 0x10 8) (uAt b 0x1A 2) (uAt b 0x18 2) (uAt b 0x28 2)
        (uAt b 0x2A 2) (uAt b 0x1C 4) (uAt b 0x20 4) (uAt b 0x24 4) (uAt b 0x2C 4) (uAt b 0x30 8)
      let k := newQueue n r true (uAt b 8 8) (uAt b 0x38 1) (uAt b 0x39 1) (uAt b 0x28 2 + uAt b 0x3A 2) (uAt b 0x40 8) (uAt b 0x48 8)
      let t := { s with free := s.free + 1, slices := s.slices.put n { y with adminQueue := q }, queues := s.queues.put q k }
      Gives (.sliceCreate x) s ((t.sliceTo n 0 .active).answer x (le 2 q ++ le 1 r ++ le 5 0)) ∧
      ((∃ k < 4, s.regionRetired k = false) → r < 4 ∧ s.regionRetired r = false)) ∧
    (∀ y, SliceTurn s x 0x0102 n c → s.slices.find n = some y → y.st = .active ∨ y.st = .frozen →
      let kept := fun bits v old : Nat => if v = 2 ^ bits - 1 then old else v
      let z := { y with
        maxQp := kept 16 (uAt b 2 2) y.maxQp, weight := kept 16 (uAt b 4 2) y.weight
        inflightLimit := kept 32 (uAt b 8 4) y.inflightLimit, keySlots := kept 32 (uAt b 0xC 4) y.keySlots
        memQuota := kept 32 (uAt b 0x10 4) y.memQuota, opsPerWindow := kept 32 (uAt b 0x14 4) y.opsPerWindow }
      sharesLegal z.maxQp z.weight z.inflightLimit z.keySlots z.memQuota = true → zeroAt b 6 2 = true →
      zeroAt b 0x18 8 = true → (z.opsPerWindow = 0 ∨ y.quotaWindow ≠ 0) → s.slotsUsed n ≤ z.keySlots →
      s.sharesFit n z.keySlots z.memQuota = true →
      Gives (.sliceResize x) s ((s.setSlice n fun _ => z).answer x [])) ∧
    (∀ y, SliceTurn s x 0x0108 n c → s.slices.find n = some y → y.st = .frozen → zeroAt b 2 6 = true →
      let t := (s.queuesOf n).foldl (fun t p =>
        ({ t with host := hostWrite (t.queueSpace p.2) p.2.shadowAddr (le 4 p.2.h.toNat ++ le 4 0) t.host }).setQueue p.1
          fun k => { k with shadow := k.h, st := if k.st = QueueState.frozen then QueueState.active else k.st }) s
      Gives (.sliceThaw x) s (((t.setSlice n fun y => { y with imported := false }).sliceTo n 4 .active).answer x [])) ∧
    (∀ y, SliceTurn s x 0x010A n c → s.slices.find n = some y → zeroAt b 2 6 = true →
      Gives (.sliceQuery x) s (s.answer x (s.sliceBlock n y))) ∧
    (∀ y, MayRun s x 0x0203 c → s.slices.find c.slice = some y →
      Gives (.sliceInfo x) s (s.answer x ((s.sliceBlock c.slice y).take 76 ++ le 4 0))) ∧
    (SliceTurn s x 0x0120 n c → 1 ≤ n → n ≤ 1024 → zeroAt b 2 6 = true →
      let e := s.keys.epochs.getD n 0 + 1
      Gives (.sliceEpochAdvance x) s ({ s with keys := { s.keys with epochs := s.keys.epochs.put n e } }.answer x (le 8 e)))

/-- R105 to R107: queue pairs. A new pair's counters are zero; a pair that is destroyed shuts down, its waiting commands end
ST_ABORTED and the others run to their end without output; once it is quiet its number is free. -/
def Sys2Proof.Claims.QueuePairs : Prop :=
  ∀ (x : Nat) (s : State) (c : Ctx),
    let b := c.payload
    (∀ y q, MayRun s x 0x0201 c → s.slices.find c.slice = some y → s.qpLegal c.slice y b = true → s.freeQueue = some q →
      (s.queuesOf c.slice).length - 1 < y.maxQp →
      let r := s.assignHome.1
      let k := newQueue c.slice r false (y.winBase + uAt b 0 4) (uAt b 4 1) (uAt b 5 1) (y.msixBase + uAt b 6 2) (uAt b 8 8) (uAt b 0x10 8)
      Gives (.qpCreate x) s ({ s with free := s.free + 1, queues := s.queues.put q k }.answer x (le 2 q ++ le 1 r ++ le 5 0))) ∧
    (∀ k, MayRun s x 0x0202 c → uAt b 0 2 ≤ 4095 → zeroAt b 2 6 = true → s.queues.find (uAt b 0 2) = some k →
      k.slice = c.slice → k.admin = false → k.st ≠ .shutting →
      ∃ t, Gives (.qpDestroy x) s t ∧
        (∃ z, t.queues.find (uAt b 0 2) = some z ∧ z.st = .shutting ∧ z.destroyer = some x) ∧
        (c.q ≠ uAt b 0 2 → (∀ p ∈ s.ctxs, p.1 = x → p.2 = c) → ∃ d, t.ctxs.find x = some d ∧ d.phase = .running) ∧
        (∀ j d, t.ctxs.find j = some d → d.q = uAt b 0 2 → d.phase.decided = true ∨ (d.phase = .running ∧ d.drop = true))) ∧
    (∀ q k i, s.queues.find q = some k → k.st = .shutting → k.destroyer = some i → s.queueQuiet q k = true →
      s.unsettled = false →
      let u := s.freeMem k.slice (k.streams.vals.map Stream.mem).sum
      Gives (.qpShutdownComplete q) s ({ u with queues := u.queues.drop q }.conclude i (Result.bare 0)))

/-- R109 to R112, R120: reset, freeze and destruction. The slice changes state at once, with its waiting commands squashed
where asked, and the sequence ends when every completion of its queues has been written. -/
def Obligations.SliceSequences : Prop :=
  (∀ (x n : Nat) (s : State) (c : Ctx) (y : Slice), s.slices.find n = some y →
    (SliceTurn s x 0x0104 n c → uAt c.payload 2 2 < 4 → zeroAt c.payload 4 4 = true → y.st = .active ∨ y.st = .frozen →
      Gives (.sliceReset x) s ((s.tdiError n).beginDrain x n y .resetting (bitOf (uAt c.payload 2 2) 0) (bitOf (uAt c.payload 2 2) 1) false)) ∧
    (SliceTurn s x 0x0105 n c → uAt c.payload 2 2 < 2 → zeroAt c.payload 4 4 = true → y.st = .active → y.locked = false →
      Gives (.sliceFreeze x) s (s.beginDrain x n y .freezing (bitOf (uAt c.payload 2 2) 0) false true)) ∧
    (SliceTurn s x 0x0103 n c → zeroAt c.payload 2 6 = true → y.st = .active ∨ y.st = .frozen ∨ y.st = .exported →
      Gives (.sliceDestroy x) s ((s.tdiError n).beginDrain x n y .destroying true true false))) ∧
  (∀ (x n : Nat) (s : State) (c : Ctx) (y : Slice) (st : SliceState) (squash wipe frozen : Bool), s.slices.find n = some y →
    s.ctxs.find x = some c → c.slice ≠ n →
    let t := s.beginDrain x n y st squash wipe frozen
    (∃ z, t.slices.find n = some z ∧ z.st = st ∧ z.admin = some x ∧ z.squash = squash ∧ z.wipe = wipe) ∧
    (squash = false → t.slices.find n = some { y with st := st, squash := squash, wipe := wipe, endsFrozen := frozen, admin := some x } ∧
      t.ctxs.find x = some { c with phase := .running, launchV := s.datum.v, launchTick := s.now, progress := s.now }) ∧
    (squash = true → ∀ j d, t.ctxs.find j = some d → d.slice = n → d.phase.decided = true ∨ (d.phase = .running ∧ d.drop = true))) ∧
  (∀ (x n : Nat) (s : State) (y : Slice), s.slices.find n = some y → y.admin = some x →
    (∀ p ∈ s.slices, p.2.admin = some x → p = (n, y)) → s.sliceQuiet n = true → s.unsettled = false →
    (y.st = .resetting → ∃ t, Gives (.sliceQuiesced x) s t ∧ t = s.endReset n x y ∧
      (∃ z, t.slices.find n = some z ∧ z.st = .active ∧ z.admin = none ∧ z.memUsed = 0) ∧
      (∀ q k, t.queues.find q = some k → k.slice = n → q = y.adminQueue ∧ k.h = 0 ∧ k.t = 0 ∧ k.p = 0 ∧ k.c = 0 ∧ k.pass = 0) ∧
      (∀ a ∈ t.keys.anchors, a.slice ≠ n)) ∧
    (y.st = .freezing → ∃ t, Gives (.sliceQuiesced x) s t ∧ t = s.endFreeze n x y ∧
      (∃ z, t.slices.find n = some z ∧ z.st = .frozen ∧ z.admin = none) ∧
      (∀ q k, t.queues.find q = some k → k.slice = n → k.st = .frozen)) ∧
    (y.st = .destroying → ∃ t, Gives (.sliceQuiesced x) s t ∧ t = s.endDestroy n x y ∧
      (∀ q k, t.queues.find q = some k → k.slice ≠ n) ∧ t.keys.epochs.find n = some (s.keys.epochs.getD n 0 + 1)))

/-- R113 to R118: migration. An import session is opened with a fresh key pair; an export of a frozen slice seals its body
and hands its stateful keys over; an import recreates the slice, frozen; a session closes 600 s after it was opened. -/
def Obligations.Migration : Prop :=
  (∀ (x n : Nat) (s : State) (c : Ctx), SliceTurn s x 0x0109 n c → zeroAt c.payload 2 6 = true → 1 ≤ n → n ≤ 1024 →
    s.slices.find n = none → s.drawState 4 = .serves →
    let u := ((s.drawFrom 4 64).2.drawFrom 4 96).2
    let seed := drawBytes s.free 64
    let rnd := drawBytes (s.free + 1) 96
    let id := s.keys.nextSession
    let head := prepareHead id s.keys.serial (pubOf 0x00100003 seed)
    let e : Session := { id := id, slice := n, parent := 0, opened := s.now, seed := seed }
    let t := { u with keys := { u.keys with nextSession := (id + 1) % 2 ^ 32, imports := openSession u.keys.imports e } }
    Gives (.importPrepare x) s (t.answer x (head ++ t.identitySig "MAELARN-MIGRATE" head (rnd.take 32) (rnd.drop 32))) ∧
    (∃ l, openSession u.keys.imports e = l ++ [e] ∧ (s.keys.imports.length ≤ 4 → l.length ≤ 3))) ∧
  (∀ (x n : Nat) (s : State) (c : Ctx) (y : Slice), SliceTurn s x 0x0106 n c → s.slices.find n = some y →
    zeroAt c.payload 2 2 = true → y.st = .frozen → y.imported = false → y.flags.testBit 0 = true →
    let out := bytesAt c.payload 8 6307
    let body := s.exportBody n y
    prepareOk "MAELARN-MIGRATE" out (c.payload.drop 0x18AB) = true → 0x664 + body.length + 4723 ≤ c.outLimit →
    let t := ((s.sliceTo n 4 .exported).handOver n).beginWith x body
    Gives (.sliceExport x) s (t.exportBlob x c body) ∧ ∃ z, (t.exportBlob x c body).slices.find n = some z ∧ z.st = .exported) ∧
  (∀ (x : Nat) (s : State) (c : Ctx) (r : Result), s.ctxs.find x = some c → c.opcode = 0x0106 → c.phase = .running →
    c.result = some r → s.serving = true → s.unsettled = false →
    let out := bytesAt c.payload 8 6307
    (s.sliceOwes (uAt c.payload 0 2) = true → Gives (.sliceExport x) s s) ∧
    (s.sliceOwes (uAt c.payload 0 2) = false → s.drawState 4 = .failed → Gives (.sliceExport x) s (s.failWith x 0x0501)) ∧
    (s.sliceOwes (uAt c.payload 0 2) = false → s.drawState 4 = .waits → Gives (.sliceExport x) s (s.awaitDraw x)) ∧
    (s.sliceOwes (uAt c.payload 0 2) = false → s.drawState 4 = .serves →
      let u := (((s.drawFrom 4 32).2.drawFrom 4 12).2.drawFrom 4 96).2
      let rnd := drawBytes (s.free + 2) 96
      let blob := u.blobOf 1 "MAELARN-MIGRATE" (uAt out 0 4) (uAt out 8 8) (if s.datum.st = .trusted then s.datum.v else 0)
        (bytesAt out 0x10 1568) (drawBytes s.free 32) (drawBytes (s.free + 1) 12) r.out (rnd.take 32) (rnd.drop 32)
      Gives (.sliceExport x) s (u.conclude x { Result.bare 0 with out := blob }))) ∧
  (∀ (x : Nat) (s0 : State) (c : Ctx) (e : Session) (body : Bytes) (l : List (Nat × Bytes)), MayRun s0 x 0x0107 c →
    s0.sliceTurn c = true →
    let hdr := c.payload.take 32
    let blob := c.payload.drop 32
    s0.keys.imports.find? (fun e => e.id == uAt hdr 0x1C 4 && !e.expired s0.now) = some e →
    let s := s0.touchPeer 0 (uAt blob 8 8)
    s.openBlob 1 "MAELARN-MIGRATE" e (s.peerKeys 0 (uAt blob 8 8)) blob = some body →
    splitRecords (body.length / 8 + 1) body = some l → recordsOk l = true →
    let r1 := (recsOf l 1).headD []
    let n := uAt r1 0 2
    1 ≤ n → n ≤ 1024 → s.slices.find n = none → s.importFits n hdr r1 (recsOf l 2).length = true →
    let t := s.importSlice n hdr r1 l e.id
    ∃ y, t.slices.find n = some y ∧ y.st = .frozen ∧ y.imported = true ∧
      let home := match t.queues.find y.adminQueue with | some q => q.home | none => 0
      let out := le 2 y.adminQueue ++ le 1 home ++ le 5 0
      (8 ≤ c.outLimit → Gives (.sliceImport x) s0 ((t.beginWith x out).endImport x n out))) ∧
  (∀ (x : Nat) (s : State) (c : Ctx) (r : Result) (y : Queue), s.ctxs.find x = some c → c.opcode = 0x0107 →
    c.phase = .running → c.result = some r → s.serving = true → s.unsettled = false →
    s.queues.find (uAt r.out 0 2) = some y →
    Gives (.sliceImport x) s (if s.sliceOwes y.slice then s else s.conclude x { Result.bare 0 with out := r.out })) ∧
  (∀ (n : Nat) (s : State),
    let keep := fun e : Session => decide (e.id ≠ n ∨ s.now < e.opened + 600000000)
    Gives (.importSessionExpire n) s { s with keys := { s.keys with
      imports := s.keys.imports.filter keep, receives := s.keys.receives.filter keep } })

/-- R36, R45, R58, R385, R409: a tick boundary. Reference time and operating time move on one microsecond; while the
graticule runs V moves on 1,000 ns and, once a token has been applied, the bounds with it, a widening falling due at
every 50th tick; caches keep only live handles; and a command whose deadline V + U has reached is decided. -/
def Obligations.TickBoundary : Prop :=
  ∀ s : State, s.start.vddGood = true → s.unsettled = false →
    ∃ t, Gives .tickBoundary s t ∧ t.now = s.now + 1 ∧ t.start.tokenTicks = s.start.tokenTicks + 1 ∧
      t.log.opTicks + 1000000 * t.log.opSeconds = s.log.opTicks + 1000000 * s.log.opSeconds + 1 ∧
      t.datum = (if s.start.grat = false then s.datum
        else if s.datum.st = .unset then { s.datum with v := s.datum.v + 1000 }
        else { s.datum with v := s.datum.v + 1000, lo := s.datum.lo + 1000, hi := s.datum.hi + 1000
                            since := s.datum.since + 1, widenDue := decide ((s.datum.since + 1) % 50 = 0) }) ∧
      (∀ h ∈ t.keys.prepared ++ t.keys.mceCache, (s.liveKey h).isSome = true) ∧
      (∀ r, ∀ k ∈ t.keys.resident.getD r [], (s.liveKey k.handle).isSome = true) ∧
      (s.start.grat = true → s.start.stage = 0x0C → s.integ.safe = false → s.datum.st = .trusted → s.datum.tokens = [] →
        s.datum.refine = [] → s.keys.bumps = [] → (s.datum.since + 1) % 50 ≠ 0 → ∀ x c, s.ctxs.find x = some c →
        c.phase = .waiting → c.batch = false → s.blocked c = false → c.timeBound = true → noDatumTest c.opcode = false →
        c.deadline ≤ t.datum.v + t.unc → ∃ d, t.ctxs.find x = some d ∧ d.phase = .finished)

/-- R38, R45: the widening that is due, at a boundary with no token to apply, spreads the bounds by 1 ns each way; a trusted datum whose uncertainty has reached its cap
becomes untrusted. R40: a challenge closes 10 s after its issue. -/
def Sys2Proof.Claims.HoldoverAndChallengeExpiry : Prop :=
  (∀ s : State, s.datum.widenDue = true → (∀ k ∈ s.datum.tokens, s.now ≤ k.accepted) →
    let d := { s.datum with lo := s.datum.lo - 1, hi := s.datum.hi + 1, widenDue := false }
    ∃ t, Gives .datumHoldoverWiden s t ∧ t.now = s.now ∧
      t.datum = { d with st := if d.st = .trusted ∧ d.cap ≤ max (d.v - d.lo) (d.hi - d.v) then .untrusted else d.st }) ∧
  (∀ (s : State) (c : Bytes) (b : Nat), s.datum.chal = some (c, b) →
    (b + 10000000 ≤ s.now → Gives .datumChallengeExpire s { s with datum := { s.datum with chal := none } }) ∧
    (s.now < b + 10000000 → Idle .datumChallengeExpire s))

/-- R40, R41, R42, R60, R406: a challenge is 16 fresh octets that void the open one; a token that passes the tests of R42
waits for the next boundary, and one that fails them is counted and rejected. -/
def Sys2Proof.Claims.ChallengeAndToken : Prop :=
  (∀ s : State, s.drawState 4 = .serves →
    let t := (s.drawFrom 4 16).2
    let t := { t with datum := { t.datum with chal := some (drawBytes s.free 16, s.now) } }
    let out := drawBytes s.free 16 ++ le 8 s.datum.v
    (∀ x c, MayRun s x 0x6001 c → Gives (.datumChallenge (.queue x)) s (t.answer x out)) ∧
    (SmbDatum s → Gives (.datumChallenge (.smbus [])) s
      { t with bus := { t.bus with smbus := some (le 2 0 ++ le 2 0 ++ out) } })) ∧
  (∀ (s : State) (p : Bytes), p.length = 3357 →
    let token := fun (x : Option Nat) (b : Nat) =>
      ({ seq := uAt p 0x08 8, time := uAt p 0x10 8, unc := uAt p 0x18 4, keyId := uAt p 0x04 4, issued := b
         accepted := s.now, ctx := x, chal := bytesAt p 0x20 16 } : Token)
    let bad := { s with datum := { s.datum with rejected := min (s.datum.rejected + 1) 65535 } }.raise 0x13 0 (uAt p 0x04 4)
    (TokenGood s.datum p → ∀ k b, s.datum.chal = some (k, b) →
      (∀ x c, MayRun s x 0x6002 c → c.payload = p → Gives (.datumToken (.queue x)) s
        ({ s with datum := { s.datum with tokens := s.datum.tokens ++ [token (some x) b] } }.setCtx x fun c =>
          { c with phase := .running, progress := s.now })) ∧
      (SmbDatum s → Gives (.datumToken (.smbus p)) s { s with datum := { s.datum with tokens := s.datum.tokens ++ [token none b] } })) ∧
    (¬ TokenGood s.datum p →
      (∀ x c, MayRun s x 0x6002 c → c.payload = p → Gives (.datumToken (.queue x)) s (bad.refuse x 0x0201)) ∧
      (SmbDatum s → Gives (.datumToken (.smbus p)) s (bad.smbAnswer 0x0201))))

/-- R43, R44, R45: the oldest accepted token is applied at a boundary after the one that accepted it. -/
def Sys2Proof.Claims.TokenApplies : Prop :=
  ∀ (s : State) (k : Token) (l : List Token), s.datum.tokens = k :: l → k.accepted < s.now →
    ∃ t, Gives .datumTokenApply s t ∧ t.now = s.now ∧ t.datum = afterToken s.datum k s.now ∧
      s.datum.v ≤ t.datum.v ∧ t.datum.v ≤ t.datum.hi ∧
      (k.ctx = none → t.bus.smbus = some (le 2 0 ++ le 2 0 ++ t.datum.snapshot))

/-- R38, R47: phase refinements. An edge outside 0.9 s to 1.1 s of the last is ignored; an exchange within 1 s of the last is
not made; at a later boundary, after its token, a refinement of a trusted datum whose target lies above its sample and not
above HI moves V forward by whole microseconds, and any other is counted as ignored. -/
def Sys2Proof.Claims.PhaseRefinement : Prop :=
  (∀ (ns : Nat) (s : State), s.start.grat = true → s.datum.ppsEn = true →
    let d := s.datum
    let now := s.now * 1000 + ns
    let inTime := ∀ b, d.lastPps = some b → b + 900000000 ≤ now ∧ now ≤ b + 1100000000
    let e := sampled { d with lastPps := some now } true ((d.v + 500000000) / 1000000000 * 1000000000) (8 * d.v) s.now
    (inTime → Gives (.datumPpsEdge ns) s { s with datum := e }) ∧
    (¬ inTime → Gives (.datumPpsEdge ns) s { s with datum := { d with ppsIgnored := min (d.ppsIgnored + 1) 255 } })) ∧
  (∀ (master cycles : Nat) (ok : Bool) (s : State), s.start.grat = true → s.datum.ptmEn = true →
    let d := s.datum
    let now := s.now * 1000 + cycles * 5 / 8
    let early := ∃ b, d.lastPtmTry = some b ∧ now < b + 1000000000
    (early → Idle (.ptmExchange master cycles ok) s) ∧
    let e := if ok = true then
        sampled { d with lastPtmTry := some now, lastPtm := some now } false master (8 * d.v + 5 * cycles) s.now
      else { d with lastPtmTry := some now }
    (¬ early → Gives (.ptmExchange master cycles ok) s { s with datum := e })) ∧
  (∀ (s : State) (r : Refine) (rest : List Refine), s.datum.refine = r :: rest → r.accepted < s.now →
    s.datum.widenDue = false → (∀ k ∈ s.datum.tokens, s.now ≤ k.accepted) →
    let d := { s.datum with refine := rest }
    let step := (8 * r.target - r.sample8 + 7999) / 8000 * 1000
    let e := if d.st = .trusted ∧ r.sample8 < 8 * r.target ∧ r.target ≤ d.hi then
        (if r.pps then { d with v := d.v + step, ppsApplied := min (d.ppsApplied + 1) 255 }
         else { d with v := d.v + step, ptmApplied := min (d.ptmApplied + 1) 255 })
      else if r.pps then { d with ppsIgnored := min (d.ppsIgnored + 1) 255 }
      else { d with ptmIgnored := min (d.ptmIgnored + 1) 255 }
    ∃ t, Gives .datumRefineApply s t ∧ t.now = s.now ∧
      t.datum = { e with st := if e.st = .trusted ∧ e.cap ≤ max (e.v - e.lo) (e.hi - e.v) then .untrusted else e.st })

/-- R75, R76, R77, R90, R121: doorbells. A submission doorbell sets T where the cells it adds fit into the ring, a completion
doorbell sets C within what has been written; any other value is discarded and counted; an access to a locked interface
off its stream is dropped and counted and the interface goes to ERROR. -/
def Obligations.Doorbells : Prop :=
  ∀ (q : Nat) (v : BitVec 32) (ide : Option (BitVec 3)) (s : State) (x : Queue), s.queues.find q = some x →
    (OnStream s x.slice ide → SqTakes s x →
      let free := 2 ^ x.sqLog2 - (x.t - x.h).toNat
      ((v - x.t).toNat ≤ free → ∃ t, Gives (.sqDoorbell q v ide) s t ∧ QueueOnly t s q { x with t := v }) ∧
      (free < (v - x.t).toNat → ∃ t, Gives (.sqDoorbell q v ide) s t ∧ QueueOnly t s q (Discards s x v))) ∧
    (OnStream s x.slice ide → CqTakes s x →
      ((v - x.c).toNat ≤ (x.p - x.c).toNat →
        Gives (.cqDoorbell q v ide) s ((s.setQueue q fun x => { x with c := v }).flush q) ∧
        (x.held = [] → ∃ t, Gives (.cqDoorbell q v ide) s t ∧ QueueOnly t s q { x with c := v })) ∧
      ((x.p - x.c).toNat < (v - x.c).toNat → SqTakes s x →
        ∃ t, Gives (.cqDoorbell q v ide) s t ∧ QueueOnly t s q (Discards s x v))) ∧
    (¬ OnStream s x.slice ide → ∀ y, s.slices.find x.slice = some y →
      ∃ t, Gives (.sqDoorbell q v ide) s t ∧ Gives (.cqDoorbell q v ide) s t ∧ t.queues = s.queues ∧
        t.slices.find x.slice = some { y with ideDrops := min (y.ideDrops + 1) (2 ^ 32 - 1), tdi := .error })

/-- R71, R74, R94, R121, R397: the host's accesses to the queue window. Doorbell pages read as zero and a 4-octet write of a doorbell
register rings it; ring octets are stored, a poisoned write marks its cells, and a
write to cells that a doorbell covers leaves what they hold open (R74); an access off the bound stream is dropped and counted
(R121); before READY nothing is answered. -/
def Sys2Proof.Claims.QueueWindow : Prop :=
  ∀ (off len : Nat) (data : Bytes) (ide : Option (BitVec 3)) (poison : Bool) (s : State),
    (s.start.stage ≠ 0x0C → ∀ w, Gives (.queueWindowAccess w off len data ide poison) s
      { s with bus := { s.bus with ur := !w, bytes := [] } }) ∧
    (s.start.stage = 0x0C → ∀ n, s.windowSlice off = some n → ¬ OnStream s n ide → ∀ w,
      Gives (.queueWindowAccess w off len data ide poison) s ({ s with bus := { s.bus with ur := !w, bytes := [] } }.ideDrop n)) ∧
    (s.start.stage = 0x0C → (∀ n, s.windowSlice off = some n → OnStream s n ide) →
      Gives (.queueWindowAccess false off len data ide poison) s { s with bus := { s.bus with
        ur := false
        bytes := (List.range (min len 4096)).map fun i => if s.inDoorbellPage (off + i) then 0 else s.window.getD (off + i) 0 } } ∧
      (∀ q, poison = false → data.length = 4 →
        let u := { s with bus := { s.bus with ur := false } }
        (s.windowQueue off = some (q, 0) →
          Gives (.queueWindowAccess true off len data ide poison) s (u.sqDoorbell q (BitVec.ofNat 32 (leNat data)) ide)) ∧
        (s.windowQueue off = some (q, 4) →
          Gives (.queueWindowAccess true off len data ide poison) s (u.cqDoorbell q (BitVec.ofNat 32 (leNat data)) ide))) ∧
      (¬ (∃ q, (s.windowQueue off = some (q, 0) ∨ s.windowQueue off = some (q, 4)) ∧ data.length = 4 ∧ poison = false) →
        ∃ t, Gives (.queueWindowAccess true off len data ide poison) s t ∧
          (∀ a, t.window.getD a 0 =
            if off ≤ a ∧ a < off + data.length ∧ a < 2 ^ 32 ∧ s.inDoorbellPage a = false then data.getD (a - off) 0
            else s.window.getD a 0) ∧
          ((∀ q, s.windowQueue off ≠ some (q, 0) ∧ s.windowQueue off ≠ some (q, 4)) →
            ∀ k, off < 64 * (k + 1) → 64 * k < off + data.length →
            (poison = true → t.integ.poison.find k = some 1) ∧
            (poison = false → off ≤ 64 * k → 64 * (k + 1) ≤ off + data.length → t.integ.poison.find k = none)) ∧
          ((∀ q, s.windowQueue off ≠ some (q, 0) ∧ s.windowQueue off ≠ some (q, 4)) → ∀ p z, s.queues.find p = some z →
            ∃ u, t.queues.find p = some { z with undef := u } ∧ ∀ k, k ∈ u ↔
              k ∈ z.undef ∨ (k ∈ z.covered ∧ off < 64 * k + 64 ∧ 64 * k < off + data.length)) ∧
          { t with window := s.window, integ := s.integ, bus := s.bus, queues := s.queues } = s))

/-- R63, R78, R80: the packet at the head of a queue is consumed into a context. A header whose CRC-32C does not match
completes ST_HDR_CHECK and is counted; a refused packet ends at once; an accepted one waits with its payload. H moves past
the packet's cells in each case. -/
def Sys2Proof.Claims.PacketConsumption : Prop :=
  ∀ (q i : Nat) (s : State) (x : Queue), MayConsume s q i x →
    let head := s.ringRead x 1 x.h
    let h := s.hdrAt head
    let fits := 1 ≤ h.cells ∧ h.cells ≤ 1024 ∧ h.cells ≤ (x.t - x.h).toNat
    let body := (s.ringRead x ((if h.cells ≤ 1024 ∧ h.cells ≤ (x.t - x.h).toNat then h.cells else 1) - 1) (x.h + 1)).take h.payLen
    let read := s.steps123 x h head body
    let verdict := s.verdict80 q x h body read.1
    (verdict = .waits → Idle (.packetConsume q) s) ∧
    (verdict ≠ .waits → ∃ t z d, Gives (.packetConsume q) s t ∧ t.queues.find q = some z ∧ z.h = x.h + BitVec.ofNat 32 read.2 ∧
      t.ctxs.find i = some d ∧ d.q = q ∧ d.seq = x.nextSeq ∧ d.slice = x.slice ∧ d.region = x.home ∧ d.accepted = s.now ∧
      (s.integ.poison.find (x.cellAt x.h / 64) ≠ some 2 → crc32c (head.take 0x3C) ≠ h.check →
        read.2 = (if fits then h.cells else 1) ∧ d.stream = 0 ∧ d.phase = .finished ∧ d.result = some (Result.bare 0x0102) ∧
        z.malformed = min (x.malformed + 1) 65535) ∧
      (∀ st, verdict = .refused st → h.stream = 0 → d.phase = .finished ∧ d.result = some (Result.bare st)) ∧
      (∀ first own op, verdict = .accepted first own op → h.stream = 0 →
        d.phase = .waiting ∧ d.opcode = h.opcode ∧ d.flags = h.flags ∧ d.tag = h.tag ∧ d.keyA = h.keyA ∧ d.keyB = h.keyB ∧
        d.param = h.param ∧ d.deadline = h.deadline ∧ d.outLimit = h.outLimit ∧ d.payload = body ∧ d.pages = own + op ∧
        d.frags = fragsOf h.fragCount body))

/-- R26, R82 to R85, R89, R90: collectors admit what has finished, at most 64 at a time; the writer takes one entry round robin,
and its completion goes into the ring where its cells fit and is held otherwise, in completion staging as far as that has room. R77: a notice entry follows the first
boundary after the discarded doorbell. -/
def Obligations.CompletionPath : Prop :=
  (∀ (r : Nat) (s : State), r < 4 → s.unsettled = false →
    let l := (s.admission r).take (64 - (s.collector r).length)
    ∃ t, Gives (.collectorAdmit r) s t ∧ t.collector r = s.collector r ++ l ∧
      (∀ i ∈ l, ∃ d, t.ctxs.find i = some d ∧ d.phase = .collected) ∧
      (∀ i, i ∉ l → t.ctxs.find i = s.ctxs.find i) ∧
      (∀ i, i ∈ s.admission r ↔ ∃ c, (i, c) ∈ s.ctxs ∧ c.phase = .finished ∧ c.batch = false ∧ c.region = r ∧ c.finishedAt ≤ s.now ∧
        s.streamBehind c = false)) ∧
  (∀ (s : State) (k i : Nat) (rest : List Nat), k < 4 →
    let r := (s.writerNext + k) % 4
    (∀ j < k, s.collector ((s.writerNext + j) % 4) = [] ∨ s.integ.due.find ((s.writerNext + j) % 4) ≠ none) →
    s.collector r = i :: rest → s.integ.due.find r = none →
    Gives .completionWrite s ({ s with collectors := s.collectors.putD r rest [], writerNext := (r + 1) % 4 }.release i)) ∧
  (∀ (s : State) (i : Nat) (c : Ctx) (x : Queue) (h : Held), s.ctxs.find i = some c → s.queues.find c.q = some x →
    x.held = [] → c.entries i (2 ^ x.cqLog2) = [h] →
    let n := 2 ^ x.cqLog2
    let free := n - (x.p - x.c).toNat
    let t := s.release i
    (h.cells ≤ free → t.ctxs.find i = none ∧ ∃ z, t.queues.find c.q = some z ∧ z.p = x.p + BitVec.ofNat 32 h.cells ∧
      z.held = [] ∧ z.chainOpen = false ∧ z.pass = x.pass + (x.p.toNat % n + h.cells) / n) ∧
    (free < h.cells → t.ctxs.find i = some { c with phase := .writing } ∧ t.queues.find c.q = some { x with held :=
      [{ h with staged := decide (64 * h.cells ≤ 2 ^ 28 - s.stagingUsed) }] })) ∧
  (∀ (s : State) (q : Nat) (x : Queue), s.queues.find q = some x → x.noticeCount ≠ 0 → x.noticeHeld = false →
    x.noticeSince < s.now → s.unsettled = false →
    let e : Held := { ctx := none, status := 0x0105, tag := 0, unit := 0xFFFF, launch := s.datum.v, cont := false, retries := 0
                      hatched := false, out := [], last := true, notify := false, staged := false }
    Gives (.noticeEntry q) s ((s.setQueue q fun x => { x with noticeHeld := true, held := x.held ++ [e] }).flush q) ∧
    (x.held = [] → (x.p - x.c).toNat < 2 ^ x.cqLog2 → ∃ t z, Gives (.noticeEntry q) s t ∧ t.queues.find q = some z ∧
      z.p = x.p + 1 ∧ z.noticeCount = 0 ∧ z.noticeHeld = false ∧ z.held = []))

/-- R49 to R56, R141, R143, R190, R450: the first launch of a command and the launch of a further part: the part runs on the
unit, or the benchmark that is due there runs first. LAUNCH is V at the boundary of the first launch. -/
def Sys2Proof.Claims.OperationLaunches : Prop :=
  ∀ (x u k : Nat) (s : State) (c : Ctx) (p : Part), UnitTakes s u c p →
    (∀ t, MayRun s x c.opcode c → s.plan c ≠ [] → s.slabsDone c = true → s.anchorWaits c = false →
      (∀ q ∈ s.plan c, s.meetsR19 (unitRegion u) q.kind = true) → s.gate x c = .passed t →
      nextPart false (unitKind u) (s.plan c ++ c.parts) = some k → (s.plan c ++ c.parts)[k]? = some p →
      (c.parts = [] ∨ unitRegion u = c.region ∨ s.meetsR19 c.region p.kind = false) →
      (s.benchFirst u p.firstPiece p.fam = none → ∃ r d, Gives (.operationLaunch x u) s r ∧ PartOn r x u p 0 ∧
        r.ctxs.find x = some d ∧ d.launchV = s.datum.v ∧ d.launchTick = s.now ∧ d.startUnc = s.unc ∧ d.startSt = s.datum.st) ∧
      (∀ b, s.benchFirst u p.firstPiece p.fam = some b → Gives (.operationLaunch x u) s (s.startBench u b false))) ∧
    (Under s x c → nextPart false (unitKind u) (s.moreParts c ++ c.parts) = some k → (s.moreParts c ++ c.parts)[k]? = some p →
      (unitRegion u = c.region ∨ s.meetsR19 c.region p.kind = false) →
      (s.benchFirst u p.firstPiece p.fam = none → ∃ r d, Gives (.operationLaunch x u) s r ∧ PartOn r x u p 0 ∧
        r.ctxs.find x = some d ∧ d.launchV = c.launchV ∧ d.launchTick = c.launchTick) ∧
      (∀ b, s.benchFirst u p.firstPiece p.fam = some b → Gives (.operationLaunch x u) s (s.startBench u b false)))

/-- R101: of launches on one kind of unit in a region, a slice and queue have theirs when they have the turn: then what the
launch takes is counted for them. How the turn is reckoned from WEIGHT is the model's (log 116). -/
def Sys2Proof.Claims.LaunchesTakeTurns : Prop :=
  ∀ (x u : Nat) (s : State) (c : Ctx), u < 104 → s.ctxs.find x = some c →
    ∀ i t, (i, t) ∈ [(Instr.operationLaunch x u, s.launchOn x u), (Instr.checkLaunch x u, s.checkOn x u),
        (Instr.rerunLaunch x u, s.rerunOn x u)] →
      let n := s.launched t x
      let r := unitRegion u
      let k := unitKind u
      (n = 0 → Gives i s t) ∧
      (n ≠ 0 → s.myTurn c.slice c.q r k = false → Idle i s) ∧
      (n ≠ 0 → s.myTurn c.slice c.q r k = true → ∃ l, Gives i s { t with turns := l } ∧
        ∀ y : Turn, y ∈ Tab.getD l (4 * r + k) [] → y.slice = c.slice → y.queue = c.q ∧
          y.time = (turnOf (s.turnsOf r k) (c.slice :: (s.rivals c.slice c.q r k).map Prod.fst) c.slice).time +
            n * 2 ^ 20 / s.weightOf c.slice)

/-- R360, R361: a withheld part runs again on another unit, of its region while that takes such work, with its retry
counted. R49, R54, R209: the next leg of a part starts on the unit that holds it; a further RSA candidate is drawn fresh. -/
def Sys2Proof.Claims.RerunsAndLegs : Prop :=
  (∀ (x u k : Nat) (s : State) (c : Ctx) (p : Part), UnitTakes s u c p → Under s x c →
    FirstPart c (fun q => q.slab = false ∧ q.phase = .withheld) k p → unitKind u = p.kind → p.unit ≠ some u →
    (unitRegion u = c.region ∨ s.meetsR19 c.region p.kind = false) →
    (s.benchFirst u p.firstPiece p.fam = none → ∃ r, Gives (.rerunLaunch x u) s r ∧ PartOn r x u p (p.retries + 1)) ∧
    (∀ b, s.benchFirst u p.firstPiece p.fam = some b → Gives (.rerunLaunch x u) s (s.startBench u b false))) ∧
  (∀ (x u k : Nat) (s : State) (c : Ctx) (p : Part), Under s x c → FirstPart c (fun q => q.phase = .between) k p →
    (p.checkUnit = some u ∨ (p.checkUnit = none ∧ p.unit = some u)) → s.mayLaunch u = true → s.jobFree u = true →
    let fresh := p.rsaLoop = true ∧ p.finishing = false ∧ p.checkUnit = none
    (fresh → s.drawState (unitRegion u) = .serves) →
    (∀ b, s.benchFirst u (p.left.headD 0) p.fam = some b → Gives (.legLaunch x) s (s.startBench u b false)) ∧
    (s.benchFirst u (p.left.headD 0) p.fam = none →
      let leg := if p.checkUnit = none then p.nextLeg ((s.unitSt u).lastBench + 2000 - s.now) p.left
        else (p.left.headD 0, p.left.tail)
      let y := { p with phase := if p.checkUnit = none then .running else .checking, ends := s.now + leg.1, left := leg.2, cands := if fresh then p.cands ++ [s.free] else p.cands }
      let b := if fresh then (s.drawFrom (unitRegion u) (rsaLen p.fam / 2)).2 else s
      let job := if p.checkUnit = none then Job.op x else Job.check x
      Gives (.legLaunch x) s ((b.setUnit u fun z => { z with
        job := job, ends := s.now + leg.1, fam := p.fam, famSets := z.famSets.put (famOf p.fam) p.fam, scrub := false }).setCtx x
          fun d => { d with parts := c.parts.set k y, progress := s.now, waitFrom := none })))

/-- R49, R51, R137, R209, R218, R286, R341: a part ends on its unit: the unit is free, and the part awaits its next leg or,
its unit cleared, its check; a loop that reached its cap is withheld and charged. RANDOM_BYTES ends with its formation time. -/
def Sys2Proof.Claims.OperationEnds : Prop :=
  ∀ (x : Nat) (s : State) (c : Ctx), s.ctxs.find x = some c → c.phase = .running →
    (c.parts = [] → ∀ b, c.bearingEnd = some b → b ≤ s.now → Gives (.operationComplete x) s (s.settle x)) ∧
    (∀ k p u, FirstPart c (fun q => q.slab = false ∧ q.phase = .running ∧ q.ends ≤ s.now) k p → p.unit = some u →
      let f := s.setUnit u fun z => { z with job := .idle, scrub := true }
      let g := (f.endUnit u).clearEngine u
      let key := (p.rsaKey (keygenE c.payload)).isSome
      let next := if p.left = [] ∧ p.rsaLoop = true ∧ p.finishing = false then
          (if key = true then defaultLegs p.ticks else [p.iter]) else p.left
      (next ≠ [] → Gives (.operationComplete x) s
        (PartSet f x k c { p with phase := .between, left := next, finishing := p.finishing || key })) ∧
      (next = [] → s.capped c p = false → Gives (.operationComplete x) s (PartSet g x k c { p with phase := .done })) ∧
      (next = [] → s.capped c p = true → Gives (.operationComplete x) s ((g.charge u 5).withhold x k)))

/-- R18, R51, R358 to R360: the check of a part runs on another working unit of its kind in its region, and its end passes
the part, or charges both units with a transient and withholds it: a rerun follows, at most two. -/
def Obligations.Checks : Prop :=
  (∀ (x u v k l : Nat) (left : List Nat) (s : State) (c : Ctx) (p : Part), Under s x c →
    FirstPart c (fun q => q.slab = false ∧ q.phase = .done) k p → p.unit = some v → u < 104 →
    s.meetsR19 (unitRegion v) p.kind = true → unitRegion u = unitRegion v → unitKind u = p.kind → u ≠ v →
    s.unitFree u = true → s.passedOver u v = false → (p.checkDraws = 0 ∨ s.drawState (unitRegion v) = .serves) →
    defaultLegs p.check = l :: left → s.myTurn c.slice c.q (unitRegion u) (unitKind u) = true →
    (∀ b, s.benchFirst u l p.fam = some b → Gives (.checkLaunch x u) s (s.startBench u b false)) ∧
    (s.benchFirst u l p.fam = none → ∃ t d, Gives (.checkLaunch x u) s t ∧ (t.unitSt u).job = .check x ∧
      (t.unitSt u).ends = s.now + l ∧ t.ctxs.find x = some d ∧ d.waitFrom = none ∧
      d.parts = c.parts.set k { p with phase := .checking, checkUnit := some u, ends := s.now + l, left := left } ∧
      t.free = s.free + (if p.checkDraws = 0 then 0 else 1))) ∧
  (∀ (x u v k : Nat) (s : State) (c : Ctx) (p : Part), s.ctxs.find x = some c → c.phase = .running →
    FirstPart c (fun q => q.slab = false ∧ q.phase = .checking ∧ q.ends ≤ s.now) k p → p.unit = some v → p.checkUnit = some u →
    let f := s.setUnit u fun z => { z with job := .idle, scrub := true }
    (p.left ≠ [] → ∀ ok, Gives (.checkComplete x ok) s (PartSet f x k c { p with phase := .between })) ∧
    (p.left = [] →
      Gives (.checkComplete x true) s ((PartSet ((f.endUnit u).clearEngine u) x k c { p with phase := .passed }).settle x) ∧
      (c.batch = false → ∃ t d, Gives (.checkComplete x false) s t ∧ t.ctxs.find x = some d ∧
        t.integ.transients = min (min (s.integ.transients + 1) (2 ^ 32 - 1) + 1) (2 ^ 32 - 1) ∧
        (c.drop = false → p.retries < 2 → d.parts = c.parts.set k { p with phase := .withheld, left := [] } ∧ d.result = none) ∧
        (c.drop = false → 2 ≤ p.retries → d.phase = .finished ∧ d.result = some (Result.bare 0x0501)) ∧
        (c.drop = true → d.phase = .finished ∧ d.result = some (Result.bare 0x0403)))))

/-- R52 to R55, R362, R363: benchmarks and hatching. A benchmark of the unit's current family runs for its fixed time; a
mismatch is confirmed once by the same benchmark; in flat mode a free unit that neither real work nor a due benchmark waits
for hatches for one tick on drawn data: a sheet a loaded set of its family, another unit its current one. -/
def Obligations.BenchmarksAndHatching : Prop :=
  (∀ (u fam : Nat) (s : State), u < 104 → s.start.stage = 0x0C → s.integ.safe = false → s.start.grat = true →
    s.hatchSeeded u = true →
    let x := s.unitSt u
    (∀ p, x.job = .bench p true → x.ends = 0 → famOf p = fam → s.working u = true →
      ∃ t, Gives (.benchmarkLaunch u fam) s t ∧ (t.unitSt u).job = .bench p true ∧ (t.unitSt u).ends = s.now + (setRow p).bench) ∧
    ((∀ p, x.job ≠ .bench p true) → s.mayLaunch u = true → s.jobFree u = true → (unitKind u < 2 ∨ s.lanesFree u = true) →
      famOf (x.currentSet u) = fam → ∃ t, Gives (.benchmarkLaunch u fam) s t ∧
        (t.unitSt u).job = .bench (x.currentSet u) false ∧ (t.unitSt u).ends = s.now + (setRow (x.currentSet u)).bench ∧
        (t.unitSt u).lastBench = s.now ∧ (t.unitSt u).benched.find fam = some s.now)) ∧
  (∀ (u p : Nat) (confirm : Bool) (s : State), u < 104 → (s.unitSt u).job = .bench p confirm → (s.unitSt u).ends ≠ 0 →
    (s.unitSt u).ends ≤ s.now →
    let count := fun t : State => { t with integ := { t.integ with mismatches := min (t.integ.mismatches + 1) (2 ^ 32 - 1) } }
    let b := s.clearSheet u
    (confirm = false → Gives (.benchmarkComplete u true) s (b.setUnit u fun x => { x with job := .idle, needBench := false }) ∧
      Gives (.benchmarkComplete u false) s (count (b.setUnit u fun x =>
        { x with job := .bench p true, ends := 0, mode := .confirming, needBench := true }))) ∧
    (confirm = true →
      Gives (.benchmarkComplete u true) s ((b.setUnit u fun x => { x with job := .idle, mode := .suspect }).charge u 6) ∧
      Gives (.benchmarkComplete u false) s (count (b.setUnit u fun x => { x with job := .idle, needBench := false })))) ∧
  (∀ (u : Nat) (s : State), u < 104 → s.datum.flat = true → s.start.stage = 0x0C → s.integ.safe = false →
    s.unsettled = false → s.unitFree u = true → s.hatchSeeded u = true → (s.unitSt u).needBench = false →
    ((s.unitSt u).scrub = true ∨ 2 ≤ unitKind u) → s.now + 1 ≤ (s.unitSt u).lastBench + 2000 → s.workFor u = false →
    let cur := (s.unitSt u).currentSet u
    let sets := s.loadedSets (famOf cur)
    ∃ t, Gives (.hatchingLaunch u) s t ∧ (t.unitSt u).hatchedAt = some s.now ∧ t.free = s.free + 1 ∧
      (t.unitSt u).job = .hatch ∧ (t.unitSt u).ends = s.now + 1 ∧
      (unitKind u ≠ 0 ∨ sets = [] → (t.unitSt u).hatching = some cur) ∧
      (unitKind u = 0 → sets ≠ [] → ∃ p ∈ sets, (t.unitSt u).hatching = some p) ∧
      (2 ≤ unitKind u → ∀ l < 8, ((t.unitSt u).lane l).hatchedAt = some s.now))

/-- R20, R143, R221 to R225, R236, R241, R448: a slab and its mirror: the first slab of a pipe command or of a hash pass, and
the slab of a launched command that is to run again or is of its plan. It ends after its steps, and one tick more where its
lane switches contexts; LAUNCH is set by the first. -/
def Sys2Proof.Claims.SlabLaunches : Prop :=
  ∀ (x u l cu cl : Nat) (s : State) (c : Ctx),
    let r := unitRegion u
    let home := fun kind => ∀ b, (if c.slabsPassed = 0 then (s.stream c.q c.stream).bind Stream.region else some c.region) = some b →
      b = r ∨ s.meetsR19 b kind = false
    let sw := fun first => s.switchTick ((s.unitSt u).lane l) (c.laneKey x) first
    (∀ t, MayRun s x c.opcode c → s.slabBehind c = false → slabCommand c.opcode = true → s.slabGate x c = .passed t →
      (s.drawsIv c = true → s.drawState r = .serves) → s.meetsR19 r (slabKind c.opcode) = true → home (slabKind c.opcode) →
      s.keysReady c r = true →
      let m := s.slabSteps c 0
      let first := c.firstSlab && !s.onKept c
      LanesTake s x u l cu cl c (slabKind c.opcode) (slabTicks m.1 m.2) m.2 first none →
      ∃ t d, Gives (.slabLaunch x u l cu cl) s t ∧
        SlabOn t x u l cu cl (c.laneKey x) (s.now + slabTicks m.1 m.2 + sw first) ∧
        t.ctxs.find x = some d ∧ d.launchV = s.datum.v ∧ d.launchTick = s.now) ∧
    (MayRun s x c.opcode c → s.slabBehind c = false → slabCommand c.opcode = false → s.wantsSlab c = true →
      s.meetsR19 r 2 = true → home 2 → (s.heldPasses c = 0 ∨ s.keysReady c r = true) →
      let m := s.slabSteps c c.slabsPassed
      let first := c.firstSlab || decide (s.heldPasses c ≠ 0)
      LanesTake s x u l cu cl c 2 (slabTicks m.1 m.2) m.2 first none →
      ∃ t d, Gives (.slabLaunch x u l cu cl) s t ∧
        SlabOn t x u l cu cl (c.laneKey x) (s.now + slabTicks m.1 m.2 + sw first) ∧
        t.ctxs.find x = some d ∧ d.launchV = s.datum.v ∧ d.launchTick = s.now) ∧
    (∀ k p, Under s x c → slabDue c = some k → c.parts[k]? = some p → p.slab = true →
      (p.draws = 0 ∨ s.drawState r = .serves) → s.slabBehind c = false → s.meetsR19 r p.kind = true →
      (r = c.region ∨ s.meetsR19 c.region p.kind = false) → s.keysReady c r = true →
      (p.phase = .withheld → p.unit ≠ some u) →
      let m := if p.ticks = 0 then s.slabSteps c c.slabsPassed else (0, p.fam)
      let base := if p.ticks = 0 then slabTicks m.1 m.2 else p.ticks
      let first := decide (p.ticks ≠ 0) || decide (s.heldPasses c ≠ 0) || (c.firstSlab && !s.onKept c)
      LanesTake s x u l cu cl c p.kind base m.2 first (if p.phase = .withheld then p.unit else none) →
      ∃ t d q rest, Gives (.slabLaunch x u l cu cl) s t ∧ SlabOn t x u l cu cl (c.laneKey x) (s.now + base + sw first) ∧
        t.ctxs.find x = some d ∧ d.launchV = c.launchV ∧ d.parts = q :: rest ∧
        q.retries = (if p.phase = .withheld then p.retries + 1 else p.retries))

/-- R224, R243, R358: in the tick after a slab, and after the earlier slabs of its stream, its two digests are compared: it
passes, its lanes are free and its checkpoint goes; or both pipes are charged, the region's stream errors are counted, the
stream's context leaves its lane for the checkpoint and the slab is withheld. -/
def Sys2Proof.Claims.SlabComparisons : Prop :=
  ∀ (x k u cu : Nat) (s : State) (c : Ctx) (p : Part), s.ctxs.find x = some c → c.phase = .running →
    s.compareBehind c = false → FirstPart c (fun q => q.slab = true ∧ q.phase = .running ∧ q.ends + 1 ≤ s.now) k p → p.unit = some u → p.checkUnit = some cu →
    let freed := fun y : Lane => if y.busy = some x ∧ y.ends = p.ends then { y with busy := none } else y
    let f := (s.setLane u p.lane freed).setLane cu p.checkLane freed
    Gives (.slabComplete x true) s ((PartSet (f.dropCheckpoint x u p.lane) x k c { p with phase := .passed }).settle x) ∧
    (c.batch = false → ∃ t d, Gives (.slabComplete x false) s t ∧ t.ctxs.find x = some d ∧
      t.integ.transients = min (min (s.integ.transients + 1) (2 ^ 32 - 1) + 1) (2 ^ 32 - 1) ∧
      t.integ.mirrorFail.getD (unitRegion u) 0 = min (s.integ.mirrorFail.getD (unitRegion u) 0 + 1) 65535 ∧
      (∀ v m, ((t.unitSt v).lane m).resident ≠ some (c.laneKey x)) ∧
      (c.drop = false → p.retries < 2 → d.parts = c.parts.set k { p with phase := .withheld, left := [] } ∧ d.result = none))

/-- R101, R160 to R163, R165, R166, R169: a stateful key generation takes the next KEY_ID, its counters and its slot when it
begins; once its trees are cached and the journal has room it reserves its first block and deposits the key. The trees of
a key are built batch by batch, leg by leg, each recomputed by a partner, as the
slice's turn comes; a key with a quarter of its block left reserves the next, and a record that waited for the write
budget goes first. -/
def Obligations.StatefulKeys : Prop :=
  (∀ (i : Instr) (x o : Nat) (s : State) (c : Ctx),
    ((i = .lmsKeygen x ∧ o = 0x1301) ∨ (i = .xmssKeygen x ∧ o = 0x1401)) →
    (∀ u t h, MayRun s x o c → s.keyTests c = .ok u → u.reserveFor x c = some t →
      t.ctxs.find x = some { c with reserved := some h } →
      let id := t.stateful.keyIdCtr + 1
      let m := t.statefulMaterial c id
      let n := totalLeaves (s.setOf c) m
      let l : Leaves := { next := 0, reservedEnd := 0, total := n, block := blockOf c.payload n
                          heights := heightsOf (s.setOf c) m, handle := h }
      Gives i s ({ t with stateful := { t.stateful with keyIdCtr := id, keys := t.stateful.keys.put id l } }.setCtx x fun d =>
        { d with phase := .running, leaf := some id, launchV := t.datum.v, launchTick := t.now, progress := t.now })) ∧
    (∀ id l, s.ctxs.find x = some c → c.opcode = o → c.phase = .running → c.leaf = some id → s.start.stage = 0x0C →
      s.integ.safe = false → s.unsettled = false → s.stateful.keys.find id = some l → c.drop = false → c.orphaned = false →
      s.treesCached id = true → s.journalRoom = true →
      let m := s.statefulMaterial c id
      let pub := statefulPub (s.setOf c) m
      let n := min l.block l.total
      8 + pub.length ≤ c.outLimit →
      let b := s.journalWrite id 0 n l.total l.block l.handle
      let b := { b with stateful := { b.stateful with keys := b.stateful.keys.put id { l with reservedEnd := n } } }
      Gives i s (b.releaseResult x c (b.createdResult c m pub pub 16 id)))) ∧
  (∀ (id level u : Nat) (s : State) (l : Leaves), u < 104 → s.stateful.keys.find id = some l → s.start.stage = 0x0C →
    s.integ.safe = false → s.unsettled = false →
    (∀ ok ts, s.tree id level = none → s.treeDue id level l = true → s.treeRoom = some ts →
      Gives (.treeBatchLaunch id level u ok) s { s with stateful := { s.stateful with
        trees := ts ++ [{ keyId := id, level := level, left := s.batchCount l level + 1 }] } }) ∧
    (∀ k, s.tree id level = some k →
      let all := s.buildsOf id level
      let mine := all.filter fun b => decide (b.ends ≤ s.now)
      let piece := firstLeg (s.pieceTicks l level k.left)
      let set := s.buildSet l
      let turn := s.myTurn (l.handle / 2 ^ 48) 0 (unitRegion u) (unitKind u) = true
      (∀ b, mine.find? (fun b => !b.left.isEmpty) = some b → s.mayLaunch b.sheet = true → s.jobFree b.sheet = true →
        s.benchFirst b.sheet (b.left.headD 0) set = none → turn → ∀ ok,
        ∃ t, Gives (.treeBatchLaunch id level u ok) s t ∧ (t.unitSt b.sheet).job = .treeBatch id level ∧
          (t.unitSt b.sheet).ends = s.now + b.left.headD 0 ∧ t.stateful.builds = s.stateful.builds.map fun x =>
            if x = b then { x with ends := s.now + b.left.headD 0, left := b.left.tail } else x) ∧
      ((∀ b ∈ mine, b.left = []) →
        (∀ b v, mine.find? (fun b => b.check.isSome) = some b → b.check = some v →
          Gives (.treeBatchLaunch id level u true) s (s.endBatch v b true) ∧
          (s.endBatch v b true).stateful.trees = s.stateful.trees.map (fun t =>
            if t.keyId = b.id ∧ t.level = b.level then { t with left := t.left - 1 } else t) ∧
          (s.endBatch v b true).stateful.builds = s.stateful.builds.erase b ∧
          Gives (.treeBatchLaunch id level u false) s (s.endBatch v b false) ∧
          (s.endBatch v b false).stateful.trees = s.stateful.trees ∧
          (s.endBatch v b false).integ.transients = min (min (s.integ.transients + 1) (2 ^ 32 - 1) + 1) (2 ^ 32 - 1)) ∧
        ((∀ b ∈ mine, b.check = none) → unitKind u = 0 → s.unitFree u = true → s.benchFirst u piece.1 set = none → turn → ∀ ok,
          (∀ b, mine.find? (fun b => b.check.isNone && decide (unitRegion b.unit = unitRegion u)) = some b →
            s.meetsR19 (unitRegion b.unit) 0 = true → u ≠ b.unit → s.passedOver u b.unit = false →
            s.drawState (unitRegion b.unit) = .serves →
            ∃ t, Gives (.treeBatchLaunch id level u ok) s t ∧ (t.unitSt u).job = .treeBatch id level ∧
              (t.unitSt u).ends = s.now + piece.1 ∧ t.free = s.free + 1 ∧ t.stateful.builds = s.stateful.builds.map fun x =>
                if x = b then { x with check := some u, ends := s.now + piece.1, left := piece.2 } else x) ∧
          ((∀ b ∈ mine, unitRegion b.unit ≠ unitRegion u) → s.meetsR19 (unitRegion u) 0 = true →
            s.drawState (unitRegion u) = .serves → k.keyId = id → k.level = level →
            (1 < k.left ∧ all.length + 1 < k.left) ∨ (k.left = 1 ∧ all = []) →
            ∃ t, Gives (.treeBatchLaunch id level u ok) s t ∧ (t.unitSt u).job = .treeBatch id level ∧
              (t.unitSt u).ends = s.now + piece.1 ∧ t.free = s.free + 1 ∧ t.stateful.builds = s.stateful.builds ++
                [{ id := id, level := level, unit := u, check := none, ends := s.now + piece.1, left := piece.2 }]))))) ∧
  (∀ (id : Nat) (s : State) (l : Leaves) (k : JRec), s.stateful.keys.find id = some l → s.start.stage = 0x0C →
    s.integ.safe = false → 4 * (l.reservedEnd - l.next) ≤ l.block → l.reservedEnd < l.total → s.journalRoom = true →
    s.recOf id = some k → k.exhausted = false →
    let stop := min (l.reservedEnd + l.block) l.total
    let b := s.journalWrite id k.flags stop l.total l.block l.handle
    Gives (.journalReserve id) s
      { b with stateful := { b.stateful with keys := b.stateful.keys.put id { l with reservedEnd := stop } } } ∧
    (∀ w, ((List.range 8192).map fun i => (s.stateful.ptr + i) % 8192).find? (fun w => !protectedWord s.stateful.records w) = some w →
      b.stateful.journal.find w = some (JRec.bytes ⟨k.flags, id, stop, l.total, s.stateful.seqBase + 1, l.block, l.handle, false⟩))) ∧
  (∀ (id : Nat) (s : State) (r : JRec) (l : List JRec), s.stateful.owed = r :: l → (s.stateful.recent s.now).length < 1024 →
    Gives (.journalReserve id) s (({ s with stateful := { s.stateful with owed := l } }).journalNow r))

/-- R28, R30, R31, R127 to R129, R174, R261: a key that an undecided operation names becomes resident in a region as two
shares under a drawn mask, the oldest unnamed one giving way in a full list, or its vault's tag fails with an alarm; and it is prepared: computed on a sheet, recomputed by a partner, then cached, or both are
charged. -/
def Sys2Proof.Claims.KeyResidencyAndPreparation : Prop :=
  (∀ (h r : Nat) (s : State), r < 4 → (s.liveKey h).isSome = true → s.start.stage = 0x0C → s.integ.safe = false →
    s.regionRetired r = false → s.residentIn r h = false → s.awaited h = true → s.drawState r = .serves →
    let l := s.keys.resident.getD r []
    let m := s.secretOf h
    let t := (s.drawFrom r m.length).2
    let with' := fun l : List Residency => { t with keys := { t.keys with
      resident := t.keys.resident.put r (l ++ [Residency.split h (drawBytes s.free m.length) m]) } }
    (l.length < 4096 → s.vaultAlarm h = none → Gives (.keyResidency h r) s (with' l)) ∧
    (4096 ≤ l.length → (∃ k ∈ l, s.named k.handle = false) → s.vaultAlarm h = none →
      Gives (.keyResidency h r) s (with' (l.eraseP fun k => !s.named k.handle))) ∧
    (∀ e, l.length < 4096 → s.vaultAlarm h = some e → Gives (.keyResidency h r) s (s.alarm 4 e))) ∧
  (∀ (h x u : Nat) (s : State) (c : Ctx), u < 104 → s.ctxs.find x = some c → s.start.stage = 0x0C → s.integ.safe = false →
    s.unsettled = false → c.phase.decided = false → h ∈ c.names → (s.liveKey h).isSome = true →
    (mceSet (s.policyOfKey h).param = true → s.keyReady c h = false → ∀ ok l,
      s.mceRoom (mceEntries (s.policyOfKey h).param) 1025 s.keys.mceCache = some l →
      Gives (.keyPreparation h x u ok) s { s with keys := { s.keys with mceCache := l ++ [h] } }) ∧
    (mceSet (s.policyOfKey h).param = false → latticeSet (s.policyOfKey h).param = true → h ∉ s.keys.prepared →
      let set := latticePart (s.policyOfKey h).param
      let ticks := (setRow set).prep + expandTicks set (rhoOf set ((s.publicOf h).take (setRow set).pk))
      (∀ ok l, (∀ b ∈ s.keys.preps, b.id ≠ h) → unitKind u = 0 → s.unitFree u = true → s.meetsR19 (unitRegion u) 0 = true →
        s.residentIn (unitRegion u) h = true → s.makeRoom id (32704 - s.keys.preps.length) s.keys.prepared = some l → s.benchFirst u ticks set = none →
        ∃ t, Gives (.keyPreparation h x u ok) s t ∧ (t.unitSt u).job = .prepare h false ∧ (t.unitSt u).ends = s.now + ticks ∧
          t.keys = { s.keys with
            prepared := l, preps := s.keys.preps ++ [{ id := h, level := 0, unit := u, check := none, ends := s.now + ticks, left := [] }] }) ∧
      (∀ ok b, s.keys.preps.find? (·.id == h) = some b → b.ends ≤ s.now → b.check = none →
        s.meetsR19 (unitRegion b.unit) 0 = true → unitRegion u = unitRegion b.unit → unitKind u = 0 → u ≠ b.unit →
        s.unitFree u = true → s.passedOver u b.unit = false → s.benchFirst u ticks set = none →
        ∃ t, Gives (.keyPreparation h x u ok) s t ∧ (t.unitSt u).job = .prepare h true ∧ (t.unitSt u).ends = s.now + ticks ∧
          t.keys.preps = s.keys.preps.map fun y => if y.id = h then { y with check := some u, ends := s.now + ticks } else y) ∧
      (∀ b v, s.keys.preps.find? (·.id == h) = some b → b.ends ≤ s.now → b.check = some v →
        (∃ t, Gives (.keyPreparation h x u true) s t ∧ t.keys.prepared = (if s.keys.prepared.length < 32704 then s.keys.prepared ++ [h] else s.keys.prepared) ∧
          t.keys.preps = s.keys.preps.filter fun y => y.id ≠ h) ∧
        (∃ t, Gives (.keyPreparation h x u false) s t ∧ t.keys.prepared = s.keys.prepared ∧
          t.keys.preps = (s.keys.preps.filter fun y => y.id ≠ h) ∧
          t.integ.transients = min (min (s.integ.transients + 1) (2 ^ 32 - 1) + 1) (2 ^ 32 - 1)))))

/-- R144, R242, R254, R259, R260: the bump of a key at its boundary: the key and its descendants are live no more, the
waiting commands that name one of them end; a slot that awaits reclaim becomes free, an orphan's with its next generation. -/
def Sys2Proof.Claims.BumpsAndReclaim : Prop :=
  (∀ (s : State) (b : Nat × Nat) (y : Slot), s.dueBump = some b → s.datumUnsettled = false → s.liveKey b.1 = some y →
    let down := s.descendants 8 [b.1]
    ∃ t, Gives .generationBump s t ∧ t.keys.bumps = s.keys.bumps.erase b ∧
      (∀ h ∈ b.1 :: down, t.liveKey h = none) ∧
      ((∀ d ∈ down, slotKey d ≠ slotKey b.1) → t.keys.slots.find (slotKey b.1) = some { y with st := .dead, gen := y.gen + 1 }) ∧
      (∀ x c, s.ctxs.find x = some c → c.phase = .waiting → c.parts = [] → c.batch = false → (∃ h ∈ c.names, h ∈ b.1 :: down) →
        ∃ d, t.ctxs.find x = some d ∧ d.phase = .finished)) ∧
  (∀ (h : Nat) (s : State) (y : Slot), s.keys.slots.find (slotKey h) = some y → s.start.stage = 0x0C → s.integ.safe = false →
    s.slotBusy h = false →
    let free := fun (t : State) (g : Nat) => { t with keys := { t.keys with
      slots := t.keys.slots.put (slotKey h) (Slot.empty g .free), reclaimed := min (t.keys.reclaimed + 1) (2 ^ 32 - 1) } }
    (y.st = .dead → Gives (.slotReclaim h) s (free s y.gen)) ∧
    (y.st = .orphaned → y.policy.stateful = false → Gives (.slotReclaim h) s (free s (y.gen + 1))) ∧
    (y.st = .orphaned → y.policy.stateful = true →
      Gives (.slotReclaim h) s (free (s.removeStateful y.policy.counter) (y.gen + 1))))

/-- R188, R190, R191, R365: the region core forms the bearings of one batch at a time, 100 ns for each from the boundary of its
join's check on or from the end of the batch before; entries that disagree are formed again in as much time each, twice at
most; at the end the next batch begins and this one is decided. A third mismatch ends the batch ST_UNIT_FAULT and is a fault
of the region's core. -/
def Obligations.BearingFormation : Prop :=
  ∀ (x b n k : Nat) (s : State) (c : Ctx), s.ctxs.find x = some c → c.joined = some b →
    let m := n + k
    let e := b + (uAt (s.headOf c) 8 4 + 9) / 10
    (∀ d, c.bearingEnd = some d →
      (c.bearingOk = true ∨ s.now < d → Idle (.bearingFormationComplete x n k) s) ∧
      (c.bearingOk = false → d ≤ s.now →
        Gives (.bearingFormationComplete x 0 0) s (s.endForming x c d) ∧
        (m ≠ 0 → c.bearingTries < 2 → Gives (.bearingFormationComplete x n k) s (s.setCtx x fun y => { y with
          bearingTries := y.bearingTries + 1, bearingEnd := some (s.now + (m + 9) / 10), progress := s.now })) ∧
        (m ≠ 0 → 2 ≤ c.bearingTries → c.drop = false → c.batch = false →
          ∃ t y, Gives (.bearingFormationComplete x n k) s t ∧ t.ctxs.find x = some y ∧ y.phase = .finished ∧
            y.result = some (Result.bare 0x0501) ∧
            (s.regionRetired c.region = false → s.integ.due.find c.region = none →
              t.integ.due.find c.region = some (2, s.now))))) ∧
    (c.bearingEnd = none → s.coreForms x b c = false → c.bearingOk = false →
      let t := s.setCtx x fun d => { d with bearingEnd := some e, progress := s.now }
      (s.now < e → Gives (.bearingFormationComplete x n k) s t) ∧
      (e ≤ s.now → Gives (.bearingFormationComplete x 0 0) s (t.endForming x c e))) ∧
    (c.bearingEnd = none → s.coreForms x b c = true → Idle (.bearingFormationComplete x n k) s)

/-- R375 to R378, R382, R384: the event controller. A vector below 0x700 that fires clears its count and either sends its message or sets
its PBA bit; the last mask that is cleared over a pending vector sends one message; class and route words are written where
the rules allow. -/
def Sys2Proof.Claims.EventController : Prop :=
  (∀ (v : Nat) (s : State), v < 2048 → s.start.stage = 0x0C →
    (0x700 ≤ v → Idle (.coalesceTimerExpire v) s) ∧
    (v < 0x700 → 0 < (s.coalOf v).seen → (s.coalOf v).started + (s.coalOf v).timer ≤ s.now →
      ∃ t, Gives (.coalesceTimerExpire v) s t ∧ t.coalOf v = { s.coalOf v with seen := 0, started := 0 } ∧
        (∀ w, w ≠ v → t.coalOf w = s.coalOf w) ∧
        ((s.msixEntry v).mask = false → s.events.fnMask = false →
          t.host = hostWrite (s.vectorSpace v) (s.msixEntry v).addr (le 4 (s.msixEntry v).data) s.host ∧ t.events.pba = s.events.pba) ∧
        ((s.msixEntry v).mask = true ∨ s.events.fnMask = true → t.host = s.host ∧ t.events.pba.find v = some true ∧
          ∀ w, w ≠ v → t.events.pba.find w = s.events.pba.find w) ∧
        { t with events := s.events, host := s.host } = s) ∧
    (∃ t, Gives (.msixVectorMaskWrite v true) s t ∧ t.msixEntry v = { s.msixEntry v with mask := true } ∧
      (∀ w, w ≠ v → t.msixEntry w = s.msixEntry w) ∧ t.host = s.host ∧ t.events.pba = s.events.pba) ∧
    (∃ t, Gives (.msixVectorMaskWrite v false) s t ∧ t.msixEntry v = { s.msixEntry v with mask := false } ∧
      (∀ w, w ≠ v → t.msixEntry w = s.msixEntry w) ∧
      (s.events.fnMask = false → s.events.pba.find v = some true → t.events.pba.find v = none ∧
        t.host = if v < 0x700 then hostWrite (s.vectorSpace v) (s.msixEntry v).addr (le 4 (s.msixEntry v).data) s.host else s.host) ∧
      (s.events.fnMask = true ∨ s.events.pba.find v ≠ some true → t.host = s.host ∧ t.events.pba = s.events.pba))) ∧
  (∀ (s : State), s.start.stage = 0x0C →
    Gives (.msixFunctionMaskWrite true) s { s with events := { s.events with fnMask := true } } ∧
    ∃ t, Gives (.msixFunctionMaskWrite false) s t ∧ t.events.fnMask = false ∧
      ∀ v, t.events.pba.find v = if s.events.pba.find v = some true ∧ (s.msixEntry v).mask = false then none else s.events.pba.find v) ∧
  (∀ (cl : Nat) (v : BitVec 32) (s : State), cl < 256 → s.start.stage = 0x0C →
    let src := v.toNat % 2 ^ 11
    (src < 0x700 → s.vectorSlice src = none →
      ∃ t, Gives (.evcClassWrite cl v) s t ∧
        t.evClass cl = { s.evClass cl with hostSource := src, hostEn := v.getLsbD 11 } ∧
        (∀ c, c ≠ cl → t.evClass c = s.evClass c) ∧ { t with events := s.events } = s) ∧
    (0x700 ≤ src ∨ (s.vectorSlice src).isSome = true →
      Gives (.evcClassWrite cl v) s { s with events := { s.events with routeErr := min (s.events.routeErr + 1) 65535 } })) ∧
  (∀ (cl : Nat) (mask : Bool) (s : State), cl < 256 → s.start.fuseRead = true →
    (∃ t, Gives (.evcIntRouteMaskWrite cl mask true) s t ∧ t.route cl = { s.route cl with mask := mask } ∧
      (∀ c, c ≠ cl → t.route c = s.route c) ∧ { t with events := s.events } = s) ∧
    Idle (.evcIntRouteMaskWrite cl mask false) s)

/-- R385 to R391: the recorder. The oldest detected event merges with the newest record where their fields agree, is written
as a new record within 256 a second (an alarm always), or is dropped and counted; the overflow record comes first once
there is room. A pending repeat is written after 10 s, the operating seconds every 60 s. -/
def Sys2Proof.Claims.EventRecords : Prop :=
  (∀ (s : State) (r : EvRec) (rest : List EvRec), s.start.vddGood = true → s.log.queue = r :: rest →
    let l := s.log
    let recent := l.writes.filter fun b => decide (s.now < b + 1000000)
    let newest := if l.total = 0 then none else l.circ.find ((l.total - 1) % 4096)
    let same := ∃ n, newest = some n ∧ n.code = r.code ∧ n.origin = r.origin ∧ n.p0 = r.p0 ∧ n.p1 = r.p1 ∧ n.p2 = r.p2 ∧ n.p3 = r.p3
    let written := fun (x : EvRec) => { l with
      circ := l.circ.put (l.total % 4096) x, kept := if l.total < 256 then l.kept.put l.total x else l.kept
      total := l.total + 1, repeatFrom := none, unwritten := 0, writes := recent ++ [s.now] }
    (∀ n, newest = some n → same →
      let x := { n with repeats := min (n.repeats + 1) (2 ^ 32 - 1) }
      Gives .eventRecordWrite s { s with log := { l with
        circ := l.circ.put ((l.total - 1) % 4096) x, kept := if l.total ≤ 256 then l.kept.put (l.total - 1) x else l.kept
        repeatFrom := some (l.repeatFrom.getD s.now), unwritten := l.unwritten + (x.repeats - n.repeats)
        writes := recent, queue := rest } }) ∧
    (newest ≠ none → ¬ same → 256 ≤ recent.length → r.severity ≠ 4 → Gives .eventRecordWrite s { s with log := { l with
      queue := rest, dropped := min (l.dropped + 1) (2 ^ 32 - 1), overflow := l.overflow + 1, writes := recent } }) ∧
    (newest ≠ none → ¬ same → recent.length < 256 → 0 < l.overflow →
      let x : EvRec := { code := 0x90, origin := 0, severity := 2, opSeconds := l.opSeconds, cycles := l.powerCycles
                         repeats := 0, p0 := l.overflow, p1 := 0, p2 := 0, p3 := 0 }
      Gives .eventRecordWrite s ({ s with log := { written x with overflow := 0 } }.postClass 0x90)) ∧
    (newest = none ∨ (¬ same ∧ ((recent.length < 256 ∧ l.overflow = 0) ∨ (256 ≤ recent.length ∧ r.severity = 4))) →
      Gives .eventRecordWrite s { s with log := { written r with queue := rest } })) ∧
  (∀ s : State,
    (∀ b, s.log.repeatFrom = some b → b + 10000000 ≤ s.now →
      Gives .repeatFlush s { s with log := { s.log with repeatFrom := none, unwritten := 0 } }) ∧
    (s.log.persisted + 60 ≤ s.log.opSeconds →
      Gives .opSecondsPersist s { s with log := { s.log with persisted := s.log.opSeconds } }) ∧
    (s.start.perst = false → s.start.vddGood = true →
      Gives .logInfo s (s.smbAnswer 0 (le 8 0 ++ le 4 0 ++ le 4 0 ++ le 8 s.log.total ++ le 8 (min s.log.total 256))) ∧
      (∀ area start count, area ≤ 1 → 1 ≤ count → count ≤ 8 → (area = 1 ∨ start ≤ 255) →
        Gives (.logGet area start count) s (s.smbAnswer 0 (s.log.read area start count))) ∧
      (∀ area start count, 1 < area ∨ count = 0 ∨ 8 < count ∨ (area = 0 ∧ 255 < start) →
        Gives (.logGet area start count) s (s.smbAnswer 0x0101)))) ∧
  (∀ (l : Recorder) (area start count : Nat),
    let first := if area = 0 then start else max start (l.total - 4096)
    let n := min count ((if area = 0 then min l.total 256 else l.total) - first)
    (l.read area start count).length = 32 + 32 * n)

/-- R272 to R276, R279, R283 to R285: the entropy source. A run of 61 equal bits, 811 samples of a window that equal its
first, or a trim at a limit is a health failure, which discards the bits in hand and restarts the source, or halts
random service in halt mode and at the third failure within 1,000 ms; a cell balances on a window of 1,024 samples that
leaves its new trim, which is a free value, inside its range, within 36 ms; a known-answer test that fails at the end of the
start-up tests is a DRBG fault. -/
def Sys2Proof.Claims.EntropySource : Prop :=
  (∀ (test : HealthTest) (cell value : Nat) (s : State), cell < 8 → s.rng.stage ≠ .off → s.rng.stage ≠ .halted →
    (test = .balance ∨ s.rng.stage ≠ .balancing) →
    ((test = .rct ∧ 61 ≤ value) ∨ (test = .apt ∧ 811 ≤ value ∧ value ≤ 1024) ∨
      (test = .balance ∧ ((s.rng.cells.getD cell RngCell.reset).trim = 0 ∨ (s.rng.cells.getD cell RngCell.reset).trim = 4095))) →
    let l := (s.rng.failures.filter fun b => decide (s.now ≤ b + 1000000)) ++ [s.now]
    ∃ t, Gives (.healthFailure test cell value) s t ∧ t.rng.failures = l ∧
      t.rng.rct = (if test = .rct then min (s.rng.rct + 1) 255 else s.rng.rct) ∧
      t.rng.apt = (if test = .apt then min (s.rng.apt + 1) 255 else s.rng.apt) ∧
      t.rng.balance = (if test = .balance then min (s.rng.balance + 1) 255 else s.rng.balance) ∧
      (∀ d, (t.drbg d).got = 0) ∧ (∀ d, (t.drbg d).seeded = (s.drbg d).seeded) ∧
      (s.rng.mode = false → l.length < 3 → t.rng.stage = .balancing ∧ t.rng.restart = true ∧ t.rng.stageFrom = s.now ∧
        (∀ c x, t.rng.cells.find c = some x → x.balanced = false ∧ x.since = s.now) ∧ t.ctxs = s.ctxs) ∧
      (s.rng.mode = true ∨ 3 ≤ l.length → t.rng.stage = .halted ∧ t.integ.alarmOut = true ∧ t.rng.fresh = [] ∧
        ∀ x c, s.ctxs.find x = some c → c.waitFrom.isSome = true → c.batch = false → c.phase.decided = false →
          ∃ d, t.ctxs.find x = some d ∧ d.phase = .finished)) ∧
  (∀ (cell ones : Nat) (s : State), cell < 8 → s.rng.stage ≠ .off → s.rng.stage ≠ .halted → ones ≤ 1024 →
    (s.rng.cells.getD cell RngCell.reset).since + 1024 ≤ s.now →
    let x := s.rng.cells.getD cell RngCell.reset
    let trim := if ones = 512 then x.trim else (Config.freeWord s.free).toNat % 4096
    let b := { s with free := if ones = 512 then s.free else s.free + 1 }
    let cells := fun ok => s.rng.cells.put cell { trim := trim, ones := ones, balanced := ok, since := s.now }
    let late := s.rng.stage = .balancing ∧ s.rng.stageFrom + 36000 ≤ s.now
    (1 ≤ trim → trim ≤ 4094 → Gives (.balanceWindow cell ones) s
      { b with rng := { s.rng with cells := cells (x.balanced || decide (¬ late)) } }) ∧
    (trim = 0 ∨ 4095 ≤ trim → Gives (.balanceWindow cell ones) s
      ({ b with rng := { s.rng with cells := cells false } }.healthFail .balance cell))) ∧
  (∀ (cell : Nat) (s : State), cell < 8 → s.rng.stage = .balancing → s.rng.stageFrom + 36000 ≤ s.now →
    ((s.rng.cells.getD cell RngCell.reset).balanced = false ∨ s.rng.stageFrom + 36000 < s.now) → Gives (.balanceTimeout cell) s (s.healthFail .balance cell)) ∧
  (∀ s : State,
    (s.rng.stage = .balancing → s.converged = true → s.now ≤ s.rng.stageFrom + 36000 → ∀ f,
      Gives (.sourceStageComplete f) s { s with rng := { s.rng with stage := .startupTest, stageFrom := s.now } }) ∧
    (s.rng.stage = .startupTest → s.rng.stageFrom + 1024 ≤ s.now →
      (∀ d, Gives (.sourceStageComplete (some d)) s (s.drbgFault (if d < 13 then d else 4))) ∧
      ∃ t, Gives (.sourceStageComplete none) s t ∧
      t.rng = { s.rng with stage := .running, restart := false, stageFrom := s.now, blockFrom := s.now
                           restarts := if s.rng.restart = true then min (s.rng.restarts + 1) 255 else min s.rng.restarts 255
                           restartsTotal := s.rng.restartsTotal + b2n s.rng.restart }))

/-- R273, R277 to R282, R285: conditioned blocks and the DRBG instances. A block of 256 bits every 96 µs goes to the waiting
demands in order, the atlas instance first; an instance reseeds when due and stops at its limit; a failed known-answer
test, or a pair that disagrees, halts random service; a command whose wait for randomness ran out while it still cannot draw ends. -/
def Sys2Proof.Claims.RandomInstances : Prop :=
  (∀ s : State, s.rng.stage = .running → s.rng.blockFrom + 96 ≤ s.now → s.start.stage ≠ 0x06 →
    let m := serveList s.now (fun x => !x.seeded) [4, 0, 1, 2, 3, 5, 6, 7, 8, 9, 10, 11, 12] 256 s.rng.drbgs
    let m := serveList s.now (fun x => x.seeded && x.due) [4, 0, 1, 2, 3, 5, 6, 7, 8, 9, 10, 11, 12] m.1 m.2
    ∃ t, Gives .conditionedBlock s t ∧
      t.rng = { s.rng with drbgs := m.2, fresh := serveFresh s.rng.fresh m.1, blockFrom := s.now } ∧
      ((s.drbg 4).seeded = false → (s.drbg 4).got = 0 → (t.drbg 4).got = 256 ∧ (t.drbg 4).seeded = false) ∧
      ((s.drbg 4).seeded = false → (s.drbg 4).got = 256 →
        (t.drbg 4).seeded = true ∧ (t.drbg 4).last = s.now ∧ (t.drbg 4).requests = 0 ∧
        (s.start.stage = 0x0A → t.start.stage = (if s.datum.acqMs = 0 then 0x0C else 0x0B)))) ∧
  (∀ (d : Nat) (s : State), d < 13 → (s.drbg d).seeded = true →
    (s.rng.stage ≠ .halted → (s.drbg d).due = false → (s.drbg d).last + reseedPeriod d ≤ s.now →
      Gives (.drbgReseed d) s { s with rng := { s.rng with drbgs := s.rng.drbgs.put d { s.drbg d with due := true } } }) ∧
    (d < 9 → ((s.drbg d).stopped = true ∨ (s.drbg d).last + 1000000 ≤ s.now ∨ 2 ^ 24 ≤ (s.drbg d).requests) →
      Gives (.drbgReseedLimit d) s
        { s with rng := { s.rng with drbgs := s.rng.drbgs.put d { s.drbg d with stopped := true, due := true } } })) ∧
  (∀ (d : Nat) (test : DrbgTest) (s : State), d < 13 →
    (test = .periodic ∧ (s.drbg d).seeded = true ∧ (s.drbg d).kat + 60000000 ≤ s.now) ∨
      (test = .instantiation ∧ (s.drbg d).seeded = false ∧ s.rng.stage = .running) ∨ (test = .pair ∧ (s.drbg d).seeded = true) →
    (test = .pair → Idle (.drbgPeriodicKat d test true) s) ∧
    (test ≠ .pair → Gives (.drbgPeriodicKat d test true) s
      { s with rng := { s.rng with drbgs := s.rng.drbgs.put d { s.drbg d with kat := s.now } } }) ∧
    ∃ t, Gives (.drbgPeriodicKat d test false) s t ∧ t.rng.drbgFault = true ∧ t.rng.stage = .halted ∧
      (s.rng.stage ≠ .halted → t.integ.alarmOut = true)) ∧
  (∀ (x b : Nat) (s : State) (c : Ctx), s.ctxs.find x = some c → c.waitFrom = some b → c.phase.decided = false →
    s.unsettled = false → s.drawReady x c = false → b + 1000 * s.rng.waitMs ≤ s.now →
    let t := { s with rng := { s.rng with fresh := s.rng.fresh.filter fun p => p.1 ≠ x } }
    (c.phase = .waiting → s.deadlineTest c = none → Gives (.rngWaitExpire x) s (t.refuse x 0x0601)) ∧
    (∀ st, c.phase = .waiting → s.deadlineTest c = some st → Gives (.rngWaitExpire x) s (t.refuse x st)) ∧
    (c.phase = .running → Gives (.rngWaitExpire x) s (t.failWith x 0x0601)))

/-- R369 to R372, R397, R447: an alarm. The first one is latched with its class, cause and V; every command that is not being
written ends ST_INTEGRITY_ALARM and every unit is aborted with its clearing; a TAMPER alarm zeroises the keys, the vault key
that seals every record among them, whatever class is in force; before READY the start fails with code 7. -/
def Obligations.AlarmsEnterTheSafeState : Prop :=
  ∀ (cls cause : Nat) (s : State),
    let t := s.alarm cls cause
    t.integ.safe = true ∧ t.integ.alarmOut = true ∧ t.integ.classes = s.integ.classes ||| 2 ^ (cls - 1) ∧
    (s.integ.safe = true → t.integ.firstClass = s.integ.firstClass ∧ t.integ.cause = s.integ.cause ∧
      t.integ.alarmV = s.integ.alarmV ∧ t.ctxs = s.ctxs) ∧
    (s.integ.safe = false → t.integ.firstClass = cls ∧ t.integ.cause = cause ∧
      t.integ.alarmV = (if s.datum.st = .trusted then s.datum.v else 0) ∧ t.collectors = [] ∧ t.keys.ctxKey = [] ∧
      (∀ x c, s.ctxs.find x = some c → c.batch = false → c.phase ≠ .writing → ∃ d, t.ctxs.find x = some d ∧ d.phase = .finished ∧
        d.parts = [] ∧ d.result = some (Result.bare 0x0502)) ∧
      (∀ u, (t.unitSt u).job = .idle ∧ (t.unitSt u).lanes = []) ∧
      (∀ e, (t.engine e).msk = [] ∧ (t.engine e).kps = []) ∧
      (∀ c, 5 ≤ c → (t.core c).v = [] ∧ (t.core c).su = { SheetUnits.reset with lastCount := (s.core c).su.lastCount }) ∧ (∀ q x, t.queues.find q = some x → x.streams = [])) ∧
    (cls = 1 → t.integ.zeroised = true ∧ t.rng.drbgs = [] ∧ t.keys.cdiX = [] ∧ t.keys.cdiS = [] ∧ t.keys.identity = [] ∧
      t.keys.vaultKey = [] ∧ t.keys.tagKey = [] ∧ t.keys.ctxKey = [] ∧ t.keys.resident = []) ∧
    (cls ≠ 1 → t.keys.vaultKey = s.keys.vaultKey ∧ t.keys.cdiX = s.keys.cdiX ∧ t.rng.drbgs = s.rng.drbgs) ∧
    t.keys.slots = s.keys.slots ∧
    (s.start.perst = false → s.start.vddGood = true → s.start.stage ∉ [0x0C, 0x0E, 0x0F] →
      t.start.stage = 0x0F ∧ t.start.errCode = 7 ∧ t.start.errDetail = cls)

/-- R289, R367 to R369, R429, R441, R447, R451: what the sensors and the HBM report, and the alarm or warning it raises. -/
def Obligations.SensorReports : Prop :=
  (∀ s : State, s.start.perst = false → s.start.vddGood = true →
    Gives .lockstepMismatch s (s.alarm 3 0x40) ∧ Gives .lightSensorTrigger s (s.alarm 1 0x02) ∧
    (∀ ns, 0x01 < s.start.stage → 1000 ≤ ns → Gives (.tamperInN ns) s (s.alarm 1 0x01)) ∧
    (∀ phy, 0x05 < s.start.stage → s.start.stage ≤ 0x0C → Gives (.hbmChannelFailure phy) s (s.alarm 5 0x62)) ∧
    (∀ temp, 0x06 < s.start.stage → s.start.stage ≤ 0x0C →
      Gives (.hbmStackTempRead temp) s { s with integ := { s.integ with hbmTemp := temp } }) ∧
    (∀ rail mv ns, rail < 8 →
      let n := [750, 850, 1100, 400, 850, 1200, 1800, 800].getD rail 0
      let off := fun pct => 100 * mv + pct * n < 100 * n ∨ 100 * n + pct * n < 100 * mv
      let a := if off 15 ∧ 2 ≤ ns then s.alarm 1 (0x10 + rail) else s
      let b := if off 10 ∧ 1000 ≤ ns then a.alarm 2 (0x20 + rail) else a
      Gives (.railVoltageExcursion rail mv ns) s (if off 5 ∧ 10000 ≤ ns then b.raise 0x40 0 rail mv else b)) ∧
    (∀ ns, Gives (.railVoltageExcursion 8 0 ns) s { s with lcs := { s.lcs with vpp := false } }) ∧
    (∀ mv ns, 1750 ≤ mv → mv ≤ 1890 → Gives (.railVoltageExcursion 8 mv ns) s { s with lcs := { s.lcs with vpp := true } }) ∧
    (∀ ppm ns, 0x01 < s.start.stage →
      let a := if 20 < ppm ∨ ppm < -20 then s.alarm 2 0x32 else s
      Gives (.referenceClockFault ppm ns) s (if 1000 < ns then a.alarm 2 0x33 else a)) ∧
    (∀ temps, temps.length = 10 → 0x01 < s.start.stage →
      let b := { s with integ := { s.integ with temps := temps } }
      let before := s.integ.temps
      let b := if (∃ x ∈ temps, 105 < x) ∧ (∀ x ∈ before, x ≤ 105) then b.raise 0x41 0 (param32 (hottest temps)) else b
      let b := if (∃ x ∈ temps, 115 < x) ∧ (∀ x ∈ before, x ≤ 115) then b.alarm 2 0x30 else b
      Gives (.tempSensorConversion temps) s
        (if (∃ x ∈ temps, x < -30) ∧ (∀ x ∈ before, -30 ≤ x) then b.alarm 2 0x31 else b))) ∧
  (∀ (temp : Int) (s : State), s.start.vddGood = true → 125 ≤ temp → s.integ.thermtrip = false →
    let b := { s with integ := { s.integ with thermtrip := true } }
    Gives (.thermtripN temp) s (if s.start.perst = false then b.raise 0x42 0 (param32 temp) else b)) ∧
  (∀ (line : Nat) (s : State), line < hbmLines → s.start.stage = 0x0C →
    let b := s.scrubStep line
    let lost := fun (t : State) (both : Bool) =>
      let r := t.raise 0x35 0 (areaOf line) (line * 64 % 2 ^ 32) (line * 64 / 2 ^ 32)
      if s.integ.safe = true then r else r.loseLine line both
    b.integ.scrubLine = (if line = s.integ.scrubLine then (line + 1) % hbmLines else s.integ.scrubLine) ∧
    Gives (.hbmScrubRead line .clean) s b ∧
    Gives (.hbmScrubRead line .corrected) s
      { b with integ := { b.integ with corrected := min (b.integ.corrected + 1) (2 ^ 32 - 1) } } ∧
    Gives (.hbmScrubRead line .tagFail) s
      (lost { b with integ := { b.integ with tagFail := min (b.integ.tagFail + 1) 65535 } } false) ∧
    Gives (.hbmScrubRead line .uncorrectable) s
      (lost { b with integ := { b.integ with uncorrectable := min (b.integ.uncorrectable + 1) 65535 } } false) ∧
    Gives (.hbmScrubRead line .copiesFail) s
      (lost { b with integ := { b.integ with uncorrectable := min (b.integ.uncorrectable + 1) 65535 } } true))

/-- R345, R348, R357, R358, R361 to R366: transients, and the retirement of units and regions at the boundary after its cause.
A retired unit takes no work and stands in the map's queue until both copies are written; a retired region's units are
retired, and its queues have another home where one is left. -/
def Obligations.Retirement : Prop :=
  (∀ (u : Nat) (s : State), u < 104 →
    Gives (.transientExpire u) s (s.setUnit u fun x =>
      let l := x.charges.filter fun b => decide (s.now < b + 10000000)
      { x with charges := l, mode := if l = [] ∧ x.mode = .suspect then .inService else x.mode }) ∧
    ((s.unitSt u).mode = .reloading → (s.unitSt u).reloadEnds ≤ s.now →
      Gives (.controlStoreReloadEnd u) s (s.setUnit u fun x => { x with mode := .suspect, needBench := true })) ∧
    (s.start.stage = 0x0C → s.integ.safe = false → unitKind u < 2 → s.jobFree u = false →
      Gives (.sequencerWatchdogExpire u) s ((s.abortUnit u (Part.worksOn u)).charge u 3)) ∧
    (s.start.stage = 0x0C → s.integ.safe = false → (s.unitSt u).retired = false → ∀ cause,
      (cause = 1 ∧ s.thirdTransient u = true) ∨ (cause = 2 ∧ s.confirmed u = true) →
      let e : RetireLog :=
        { unit := unitId u, region := unitRegion u, cause := if s.thirdTransient u = true then 1 else 2
          opSeconds := s.log.opSeconds, cycles := s.log.powerCycles, v := if s.datum.st = .trusted then s.datum.v else 0 }
      ∃ t, Gives (.unitRetire u cause) s t ∧ t.working u = false ∧ (t.unitSt u).job = .idle ∧
        t.integ.mapQueue = s.integ.mapQueue ++ [e])) ∧
  (∀ (r : Nat) (s : State), r < 4 → s.start.stage = 0x0C → s.integ.safe = false → s.regionRetired r = false → ∀ reason,
    (reason = 1 ∧ s.workingIn r 0 = 0) ∨ reason = 5 ∨
      (reason ≠ 1 ∧ ∃ b, s.integ.due.find r = some (reason, b) ∧ b < s.now) →
    ∃ t, Gives (.regionRetire r reason) s t ∧ t.regionRetired r = true ∧ t.integ.due.find r = none ∧
      (∀ k < 26, (t.unitSt (26 * r + k)).retired = true) ∧ t.keys.resident.find r = none ∧
      ((∃ k < 4, k ≠ r ∧ s.regionRetired k = false) → ∀ q x, t.queues.find q = some x → x.home ≠ r)) ∧
  (∀ (s : State), s.start.perst = false → s.start.vddGood = true →
    (s.integ.mapQueue ≠ [] →
      let l := s.integ.mapLog ++ s.integ.mapQueue
      let b := s.mapCopy (s.integ.mapSeq + 1) l
      Gives .retirementMapUpdate s { s with integ := { s.integ with
        mapLog := l, mapQueue := [], mapSeq := s.integ.mapSeq + 1, mapA := true, mapB := true, mapCopyA := b, mapCopyB := b } }) ∧
    (∀ r, r < 4 → s.start.loadDone = true → s.integ.safe = false → s.regionRetired r = false → s.integ.due.find r = none →
      Gives (.regionCoreMismatch r) s { s with integ := { s.integ with due := s.integ.due.put r (2, s.now) } }) ∧
    (∀ x c, s.ctxs.find x = some c → s.start.stage = 0x0C → s.integ.safe = false → s.stalled c = true →
      s.regionRetired c.region = false → s.integ.due.find c.region = none →
      Gives (.contextStall x) s { s with integ := { s.integ with due := s.integ.due.put c.region (6, s.now) } }))

/-- R394 to R397, R403, R427, R433: power-up, t0 and the choice of a bank. A start whose references do not lock fails with
code 1; in BLANK, SCRAPPED or with a torn counter no root is formed and the start ends in LOCKED; otherwise the candidate
with the higher SEQUENCE that verifies is booted (A on equal ones), and with none the start fails with code 5. -/
def Sys2Proof.Claims.StartsAndBanks : Prop :=
  (∀ (a : BitVec 2) (s : State), s.start.vddGood = false → ∃ t, Gives (.powerUp a) s t ∧
    t.start = { s.start with vddGood := true, perst := true, smbAddr := a } ∧
    t.rng.stage = .balancing ∧ t.rng.started = s.now ∧ t.rng.drbgs = [] ∧
    { t with start := s.start, rng := s.rng } = s) ∧
  (∀ (e : StartEnv) (s : State), s.start.vddGood = true → s.start.perst = true → ∃ t, Gives (.perstNDeassert e) s t ∧
    t.start.perst = false ∧ t.start.t0 = s.now ∧ t.log.powerCycles = s.log.powerCycles + 1 ∧ t.ctxs = [] ∧ t.slices = [] ∧
    t.queues = [] ∧ t.keys.slots = [] ∧ t.datum.st = .unset ∧ (t.core 0).held = false ∧ (∀ c, c ≠ 0 → (t.core c).held = true) ∧
    t.rng.stage = .balancing ∧ t.rng.started = s.now ∧ t.start.hbmTrained = false ∧
    (e.clk25 = false → t.start.stage = 0x0F ∧ t.start.errCode = 1 ∧ t.start.errDetail = 0) ∧
    (e.clk25 = true → e.clk100 = false → t.start.stage = 0x0F ∧ t.start.errCode = 1 ∧ t.start.errDetail = 1) ∧
    (e.clk25 = true → e.clk100 = true → e.fuseAgree = true → e.mapAOk = true →
      mapValid s.integ.mapCopyA = true → s.lcs.pending = none →
      (s.lcs.code = 0 ∨ s.lcs.code = 5 → t.start.stage = 0x0E ∧ t.start.errCode = 0 ∧ t.keys.rootReady = false) ∧
      (s.lcs.code = 7 → t.start.stage = 0x0E ∧ t.start.errCode = 3 ∧ t.keys.rootReady = false)) ∧
    (e.clk25 = true → e.clk100 = true → (e.mapAOk = false ∨ mapValid s.integ.mapCopyA = false) →
      (e.mapBOk = false ∨ mapValid s.integ.mapCopyB = false) →
      (s.lcs.code = 0 ∨ s.lcs.code = 5 ∨ s.lcs.code = 7) →
      t.start.stage = 0x0F ∧ t.start.errCode = 7 ∧ t.start.errDetail = 5 ∧ t.integ.safe = true)) ∧
  (∀ (e : StartEnv) (s : State), Boots s e → ∃ t, Gives (.perstNDeassert e) s t ∧
    t.keys.rootReady = true ∧ t.start.fuseRead = true ∧
    (headerAt s e 0 ≠ 0 → headerAt s e 1 ≠ 0 →
      t.start.stage = 0x0F ∧ t.start.errCode = 5 ∧ t.start.errDetail = headerAt s e 1) ∧
    (∀ k, k < 2 → headerAt s e k = 0 → verifyAt s e k = 0 →
      (headerAt s e (1 - k) ≠ 0 ∨ Bank.sequenceAt (flashAt s e (1 - k)) < Bank.sequenceAt (flashAt s e k) ∨
        (k = 0 ∧ Bank.sequenceAt (flashAt s e 1) = Bank.sequenceAt (flashAt s e 0))) →
      t.start.stage = 0x06 ∧ t.start.bank = k ∧ t.start.fallback = false) ∧
    (∀ k, k < 2 → headerAt s e k = 0 → verifyAt s e k = 0 → headerAt s e (1 - k) = 0 → verifyAt s e (1 - k) ≠ 0 →
      t.start.stage = 0x06 ∧ t.start.bank = k) ∧
    (∀ k, k < 2 → headerAt s e k = 0 → verifyAt s e k ≠ 0 → headerAt s e (1 - k) ≠ 0 →
      t.start.stage = 0x0F ∧ t.start.errCode = 5 ∧ t.start.errDetail = verifyAt s e k))

/-- R245 to R247, R395, R396, R402, R404, R405, R417, R418: the later events of a start. Fuse groups burn one after
another; once the HBM has trained, and the atlas instance gives the vault, tag and context keys, the image is loaded, every
core leaves reset and the device is measured; READY raises DEV_READY and the SVN floor. -/
def Sys2Proof.Claims.StartGoesOn : Prop :=
  (∀ (n g : Nat) (l : List Nat) (s : State), s.start.burning = g :: l → s.start.burnFrom + 12000 ≤ s.now → 1 ≤ g → g ≤ 8 →
    let r : Fuse := if 6 ≤ n then .burnt else if n ≤ 1 then .unburnt else .torn
    ∃ t, Gives (.fuseGroupBurnComplete n) s t ∧
      t.lcs.groups = (if g ≤ 5 then s.lcs.groups.set (g - 1) r else s.lcs.groups) ∧
      t.lcs.revoked = (if 6 ≤ g then s.lcs.revoked.set (g - 6) r else s.lcs.revoked) ∧
      (s.start.perst = true → t.start.burning = [] ∧ t.lcs.pending = s.lcs.pending) ∧
      (∀ e q, s.start.env = some e → s.lcs.pending = some q → s.start.perst = false → s.start.stage = 0x03 →
        s.integ.safe = false →
        (6 ≤ n → l ≠ [] → 780 ≤ e.vddAonMv → 1750 ≤ e.vppMv → e.vppMv ≤ 1890 → t.start.burning = l ∧ t.start.burnFrom = s.now) ∧
        (6 ≤ n → l = [] → t.lcs.pending = none ∧ t.start.burning = []) ∧
        (n < 6 → t.lcs.pending = s.lcs.pending ∧ t.start.burning = []))) ∧
  (∀ (s : State), s.start.perst = false → s.start.vddGood = true → s.start.hbmTrained = false → 0 < s.start.stage →
    s.start.stage ≤ 0x06 →
    (∃ t, Gives (.hbmTrainingComplete false) s t ∧ t.start.stage = 0x0F ∧ t.start.errCode = 6 ∧ t.start.errDetail = 0) ∧
    (s.start.stage < 0x06 → Gives (.hbmTrainingComplete true) s { s with start := { s.start with hbmTrained := true } }) ∧
    (∀ e, s.start.stage = 0x06 → s.start.env = some e → s.atlasSeeded = false →
      Gives (.hbmTrainingComplete true) s { s with start := { s.start with hbmTrained := true } }) ∧
    (∀ e, s.start.stage = 0x06 → s.start.env = some e → s.atlasSeeded = true → ∃ t, Gives (.hbmTrainingComplete true) s t ∧
      t.start.hbmTrained = true ∧ t.hbm = [] ∧ t.window = [] ∧ t.keys.vaultKey = drawBytes s.free 32 ∧
      t.keys.tagKey = drawBytes (s.free + 1) 32 ∧ t.keys.ctxKey = drawBytes (s.free + 2) 32 ∧
      (let bad := loadReason (s.free + 3) (s.flash s.start.bank) (if s.start.bank = 0 then e.secondDiffA else e.secondDiffB)
       bad = 0 → 0x0A ≤ t.start.stage ∧ t.start.stage ≤ 0x0C ∧ t.start.loadDone = true ∧
        (∀ c, 1 ≤ c → c < 69 → (t.core c).held = false) ∧
        t.keys.measure = measureChain 0 (List.replicate 48 0) t.keys.digests ∧
        t.keys.cdiX = kmac256 32 s.keys.root t.keys.measure "MAELARN-CDI-X" ∧
        t.keys.svn = Bank.svnAt (s.flash s.start.bank)))) ∧
  (∀ (s : State), s.start.stage = 0x0B → s.start.stageFrom + 1000 * s.datum.acqMs ≤ s.now → s.datum.tokens = [] →
    ∃ t, Gives .datumAcqExpire s t ∧ t.start.stage = 0x0C ∧ t.start.readyMs = (s.now - s.start.t0) / 1000 ∧
      t.start.drsSent = true ∧ t.start.svnFloor = max s.start.svnFloor (s.start.banks.getD s.start.bank Bank.erased).minSvn ∧
      ∃ r, t.log.queue = s.log.queue ++ [r] ∧ r.code = 0x01)

/-- R29, R88, R384, R394, R396, R398, R418: what the resets leave, and what the bus answers before READY. A function-level reset
and a hot reset end the command model and keep the datum, the log and the registers that the rules do not name. -/
def Obligations.Resets : Prop :=
  (∀ (s : State), s.start.perst = false → s.start.vddGood = true → ∃ t, Gives .perstNAssert s t ∧ Survives s t ∧
    t.start.vddGood = true ∧ t.start.perst = true ∧ t.start.burning = s.start.burning.take 1 ∧ t.lcs.groups = s.lcs.groups ∧
    t.lcs.revoked = s.lcs.revoked) ∧
  (∀ (s : State), s.start.vddGood = true → ∃ t, Gives .powerLoss s t ∧ Survives s t ∧ t.start.vddGood = false ∧
    t.start.burning = [] ∧ t.integ.thermtrip = false ∧ t.rng.stage = .off ∧
    (s.start.burning = [] → t.lcs.groups = s.lcs.groups ∧ t.lcs.revoked = s.lcs.revoked) ∧
    (∀ g l, s.start.burning = g :: l → 1 ≤ g → ∀ k, (k + 1 ≠ g → t.lcs.groups[k]? = s.lcs.groups[k]?) ∧
      (k + 6 ≠ g → t.lcs.revoked[k]? = s.lcs.revoked[k]?))) ∧
  (∀ (s : State), s.start.stage = 0x0C → ∃ t, Gives .flr s t ∧ Gives .hotReset s t ∧
    t.ctxs = [] ∧ t.collectors = [] ∧ t.queues = [] ∧ t.enq0 = Queue.reset0 ∧ t.slices = [] ∧ t.keys.slots = [] ∧
    t.keys.resident = [] ∧ t.keys.anchors = [] ∧ t.stateful.keys = [] ∧ t.start.commit = none ∧
    (∀ v x, s.events.msix.find v = some x → t.events.msix.find v = some { x with mask := true }) ∧
    (∀ v, t.events.pba.getD v false = false) ∧ (∀ c, (t.evClass c).hostEn = false) ∧
    (∀ u, (t.unitSt u).job = .idle ∧ (t.unitSt u).lanes = []) ∧
    t.datum.st = s.datum.st ∧ t.datum.v = s.datum.v ∧ t.datum.lo = s.datum.lo ∧ t.datum.hi = s.datum.hi ∧ t.log = s.log ∧
    t.lcs = s.lcs ∧ t.integ = s.integ ∧ t.rng.drbgs = s.rng.drbgs ∧ t.start.stage = 0x0C ∧ t.keys.epochs = s.keys.epochs ∧
    t.stateful.journal = s.stateful.journal) ∧
  (∀ (w : Bool) (s : State), s.start.perst = false → s.start.vddGood = true →
    Gives (.configRequest w) s { s with bus := { s.bus with rrs := decide (s.start.stage < 0x0C) } } ∧
    (s.start.stage < 0x0C → Gives .memoryRequestBeforeReady s { s with bus := { s.bus with ur := true } }))

/-- R408, R409, R406, R413: CONFIG_COMMIT. The first packet is refused while another commit is active, without a token, or when
its header fails; otherwise it waits for a sheet and its partner to verify the image's signature, then takes a token and
counts, and its pages are programmed, as are those of later packets. A token is earned per 60 s of powered time; SMBus tells
the stage and the identity. -/
def Obligations.CommitsAndIdentity : Prop :=
  (∀ x ok s c e, MayRun s x 0x0141 c → s.stream c.q c.stream = some e →
    (e.first = c.seq → c.parts = [] →
      (s.commitActive = true → Gives (.configCommit x ok) s (s.refuse x 0x0401)) ∧
      (s.commitActive = false → s.start.tokens = 0 → Gives (.configCommit x ok) s (s.refuse x 0x0306)) ∧
      (s.commitActive = false → s.start.tokens ≠ 0 → s.commitHeaderOk c.payload e.declared = false →
        Gives (.configCommit x ok) s (s.refuse x 0x0201)) ∧
      (s.commitActive = false → s.start.tokens ≠ 0 → s.commitHeaderOk c.payload e.declared = true →
        Idle (.configCommit x ok) s)) ∧
    (e.first = c.seq → c.parts ≠ [] → s.commitActive = false → s.start.tokens ≠ 0 →
      s.commitHeaderOk c.payload e.declared = true →
      (signatureOk c.payload = false → Gives (.configCommit x ok) s (Verified c x (s.refuse x 0x0201))) ∧
      (signatureOk c.payload = true → s.start.bank < 2 → ∃ t, Gives (.configCommit x ok) s t ∧ t.start.tokens = s.start.tokens - 1 ∧
          t.start.commits = s.start.commits + 1 ∧ Programmed s t c (1 - s.start.bank) ok)) ∧
    (e.first ≠ c.seq → s.earlierOpen c = false → ∀ k, s.start.commit = some k → s.commitActive = true → k.stream = c.stream → k.target < 2 →
      ∃ t, Gives (.configCommit x ok) s t ∧ t.start.tokens = s.start.tokens ∧ t.start.commits = s.start.commits ∧
        Programmed s t c k.target ok)) ∧
  (∀ s : State, s.start.vddGood = true → 60000000 ≤ s.start.tokenTicks → Gives .commitTokenGain s { s with start := { s.start with
    tokens := min 16 (s.start.tokens + 1), tokenTicks := s.start.tokenTicks - 60000000 } }) ∧
  (∀ s : State, s.start.perst = false → s.start.vddGood = true → 0x01 < s.start.stage →
    Gives .stageGet s { s with bus := { s.bus with smbus := some (le 2 0 ++ le 2 0 ++ (le 4 s.start.stage ++
      le 4 (s.start.errCode + 256 * s.start.errDetail) ++ le 4 (if s.start.fuseRead = true then s.devIntegrity else 0))) } } ∧
    Gives .identGet s { s with bus := { s.bus with smbus := some (le 2 0 ++ le 2 0 ++
      (le 4 0x01A16424 ++ le 8 s.keys.serial ++ s.keys.chain)) } }) ∧
  (∀ s : State, Gives .smbusTimeout s { s with bus := { s.bus with smbus := none } })

/-- R412, R414 to R416, R421 to R423, R440, R250: life-cycle requests, debug certificates, the JTAG port and the identity chain.
A queue takes a request only from DEPLOYED to ANALYSIS; its signature is verified on a sheet first, and an accepted one
becomes the pending one and raises its event. A JTAG
service behind a closed right does nothing; IDCODE and BYPASS shift their register out. -/
def Obligations.LifeCycle : Prop :=
  (∀ x s c, MayRun s x 0x0150 c → c.parts = [] →
    (uAt c.payload 0x14 4 ≠ 4 ∨ s.lcs.code ≠ 3 → Gives (.lcsRequest (.queue x)) s (s.refuse x 0x0305)) ∧
    (uAt c.payload 0x14 4 = 4 → s.lcs.code = 3 → s.requestFieldsOk c.payload = false →
      Gives (.lcsRequest (.queue x)) s (s.refuse x 0x0201)) ∧
    (uAt c.payload 0x14 4 = 4 → s.lcs.code = 3 → s.requestFieldsOk c.payload = true → Idle (.lcsRequest (.queue x)) s)) ∧
  (∀ x s c, AtTurn s x 0x0150 c → c.parts ≠ [] → uAt c.payload 0x14 4 = 4 → s.lcs.code = 3 →
    s.requestFieldsOk c.payload = true →
    (requestSigned c.payload = true →
      Gives (.lcsRequest (.queue x)) s (Verified c x ((s.acceptRequest c.payload).answer x []))) ∧
    (requestSigned c.payload = false → Gives (.lcsRequest (.queue x)) s (Verified c x (s.refuse x 0x0201)))) ∧
  (∀ (p : Bytes) (s : State), (s.acceptRequest p).lcs = { s.lcs with pending := some { kind := uAt p 4 2, from_ := uAt p 0x10 4, to_ := uAt p 0x14 4, digests := [bytesAt p 0x18 48, bytesAt p 0x48 48, bytesAt p 0x78 48] } } ∧
    (s.acceptRequest p).log.queue.length = s.log.queue.length + 1) ∧
  (∀ x s c, MayRun s x 0x0152 c → Gives (.lcsCancel (.queue x)) s
    ({ s with lcs := { s.lcs with pending := none, cert := none } }.answer x [])) ∧
  (∀ x s c, MayRun s x 0x0151 c → c.parts = [] →
    (s.certEarly c.payload = false → Gives (.debugInstall (.queue x)) s (s.refuse x 0x0201)) ∧
    (s.certEarly c.payload = true → Idle (.debugInstall (.queue x)) s)) ∧
  (∀ x s c, AtTurn s x 0x0151 c → c.parts ≠ [] →
    (s.certStatus c.payload = 0 → Gives (.debugInstall (.queue x)) s (Verified c x ((s.acceptCert c.payload).answer x []))) ∧
    (s.certStatus c.payload ≠ 0 →
      Gives (.debugInstall (.queue x)) s (Verified c x (s.refuse x (s.certStatus c.payload))))) ∧
  (∀ (p : Bytes) (s : State), s.certStatus p = 0 → s.datum.st = .trusted ∧ s.datum.v + s.unc < uAt p 0x10 8 ∧
    uAt p 8 8 = s.keys.serial ∧ uAt p 4 4 = s.lcs.code ∧ (s.lcs.code = 2 ∨ s.lcs.code = 3) ∧
    (uAt p 0x20 2 ≠ 0 → uAt p 0x18 8 < 16)) ∧
  (∀ (p : Bytes) (s : State), s.start.perst = false → s.start.vddGood = true → s.start.stage = 0x0C → s.integ.safe = false →
    let u := fun (t : State) (st : Nat) => { t with bus := { t.bus with smbus := some (le 2 st ++ le 2 0) } }
    (p.length = 7395 → s.requestFieldsOk p = true → requestSigned p = true →
      Gives (.lcsRequest (.smbus p)) s (u (s.acceptRequest p) 0)) ∧
    (p.length = 7395 → s.requestFieldsOk p = false ∨ requestSigned p = false → Gives (.lcsRequest (.smbus p)) s (u s 0x0201)) ∧
    (p.length ≠ 7395 → Gives (.lcsRequest (.smbus p)) s (u s 0x0101)) ∧
    (p = [] → Gives (.lcsCancel (.smbus p)) s (u { s with lcs := { s.lcs with pending := none, cert := none } } 0)) ∧
    (p.length = 7259 → s.certStatus p = 0 → Gives (.debugInstall (.smbus p)) s (u (s.acceptCert p) 0)) ∧
    (p.length = 7259 → s.certStatus p ≠ 0 → Gives (.debugInstall (.smbus p)) s (u s (s.certStatus p)))) ∧
  (∀ s : State, s.start.vddGood = true →
    Gives (.jtagAccess .idcode) s { s with lcs := { s.lcs with tdr := 0x164245AF } } ∧
    Gives (.jtagAccess .bypass) s { s with lcs := { s.lcs with tdr := 0 } } ∧
    Idle (.jtagAccess .testLogicReset) s ∧
    (∀ n, s.rightOpen n = false → Idle (.jtagAccess (.service n)) s) ∧
    (∀ n, s.rightOpen n = true → exec (.jtagAccess (.service n)) s = .refused .jtagService)) ∧
  (∀ (b : Bytes) (s : State), s.start.perst = false → s.start.vddGood = true → s.start.fuseRead = true →
    (s.lcs.code = 2 → Gives (.identityChainProvisioning b) s { s with keys := { s.keys with chain := b } }) ∧
    (s.lcs.code ≠ 2 → Idle (.identityChainProvisioning b) s))

/-- R252 with log 68: the SPDM responder: the connection, certificates, measurements and one session. A request out of its
order is answered with ERROR; CHALLENGE, signed measurements and KEY_EXCHANGE end in a signature by the P-384 half of the
identity over the transcript; within a session every message travels in a record. -/
def Sys2Proof.Claims.SpdmResponder : Prop :=
  ∀ (s : State) (via : SpdmPath), s.start.stage = 0x0C →
    let p := s.bus.spdm
    (∀ msg, 4 ≤ msg.length → uAt msg 0 1 = 0x10 → uAt msg 1 1 = 0x84 →
      let rsp := le 1 0x10 ++ le 1 4 ++ le 3 0 ++ le 1 1 ++ le 2 0x1300
      Gives (.getVersion via msg) s (Responds s
        { Spdm.reset with version := true, path := via, vca := msg ++ rsp, ideKeys := p.ideKeys, locks := p.locks } rsp)) ∧
    (∀ msg, Plain s via msg 0xE1 →
      (p.version = true → p.caps = false → msg.length = 20 →
        let rsp := spdmMsg 0x61 0 0 (le 4 0 ++ le 4 0x62D6 ++ le 4 0x1200 ++ le 4 0x1200)
        Gives (.getCapabilities via msg) s (Responds s { p with caps := true, vca := p.vca ++ msg ++ rsp } rsp)) ∧
      (p.version = false → Gives (.getCapabilities via msg) s (RespondsError s p 4))) ∧
    (∀ msg l, Plain s via msg 0xE3 → p.caps = true → p.algs = false →
      algTables (uAt msg 2 1) (msg.drop (32 + 4 * (uAt msg 28 1 + uAt msg 29 1))) = some l → uAt msg 4 2 = msg.length →
      (uAt msg 8 4 &&& 0x80 ≠ 0 → uAt msg 12 4 &&& 2 ≠ 0 → offers l 2 0x10 = true → offers l 3 2 = true →
        Gives (.negotiateAlgorithms via msg) s
          (Responds s { p with algs := true, vca := p.vca ++ msg ++ algorithmsMsg l } (algorithmsMsg l))) ∧
      (uAt msg 8 4 &&& 0x80 = 0 ∨ uAt msg 12 4 &&& 2 = 0 ∨ offers l 2 0x10 = false ∨ offers l 3 2 = false →
        Gives (.negotiateAlgorithms via msg) s (RespondsError s p 1))) ∧
    (p.algs = true → s.keys.chain ≠ [] →
      (∀ msg, Plain s via msg 0x81 →
        let rsp := spdmMsg 0x01 1 1 (sha384 s.keys.chain)
        Gives (.getDigests via msg) s (Responds s { p with certs := p.certs ++ msg ++ rsp } rsp)) ∧
      (∀ head body, let msg := head ++ body; Plain s via msg 0x82 → msg.length = 8 → uAt msg 2 1 = 0 → uAt msg 4 2 < s.keys.chain.length →
        let b := (s.keys.chain.drop (uAt msg 4 2)).take (uAt msg 6 2)
        let rsp := spdmMsg 0x02 0 0 (le 2 b.length ++ le 2 (s.keys.chain.length - uAt msg 4 2 - b.length) ++ b)
        Gives (.getCertificate via head body) s (Responds s { p with certs := p.certs ++ msg ++ rsp } rsp)) ∧
      (∀ head body, let msg := head ++ body; Plain s via msg 0x82 → uAt msg 2 1 ≠ 0 → Gives (.getCertificate via head body) s (RespondsError s p 1)) ∧
      (∀ msg, Plain s via msg 0x83 → msg.length = 44 → uAt msg 2 1 = 0 → Signs s →
        let rsp := spdmMsg 0x03 0 1 (sha384 s.keys.chain ++ drawBytes s.free 32 ++ s.measureSummary (uAt msg 3 1) ++ le 2 0 ++
          bytesAt msg 36 8)
        Gives (.challenge via msg) s (Responds (Drawn s) { p with certs := [] }
          (rsp ++ SignedBy s "responder-challenge_auth signing" (p.vca ++ p.certs ++ msg ++ rsp)))) ∧
      (∀ msg, Plain s via msg 0xE4 → p.session = 0 → uAt msg 3 1 = 0 → msg.length = 138 + uAt msg 136 2 →
        let pub := 4#8 :: bytesAt msg 40 96
        curveP384.pointOk pub = true → Signs s →
        let mask := drawBytes (s.free + 2) 32
        let secret := be 48 (curveP384.scalarOf (drawBytes (s.free + 3) 56))
        let base := p.vca ++ sha384 s.keys.chain ++ msg
        let head := spdmMsg 0x64 0 0 (le 2 1 ++ le 1 0 ++ le 1 0 ++ drawBytes s.free 32 ++
          (curveP384.public mask secret).drop 1 ++ s.measureSummary (uAt msg 2 1) ++ le 2 0)
        let signed := head ++ SignedBy s "responder-key_exchange_rsp signing" (base ++ head)
        let hs := hkdfExtract 384 (List.replicate 48 0#8) (curveP384.ecdh mask secret pub)
        let keys := dirSecrets hs (base ++ signed) "req hs data" "rsp hs data"
        let rsp := signed ++ verifyData keys.2.secret (base ++ signed)
        Gives (.keyExchange via msg) s (Responds ((Drawn s).drawFrom 4 56).2
          { p with session := 1, sessionId := uAt msg 4 2 + 2 ^ 16, th := base ++ rsp, master := hs
                   toDev := keys.1, toHost := keys.2, oldKey := none } rsp))) ∧
    (∀ msg, Plain s via msg 0xE4 → p.session ≠ 0 → Gives (.keyExchange via msg) s (RespondsError s p 4)) ∧
    (∀ head body, let msg := head ++ body; Plain s via msg 0xE0 → p.algs = true → uAt msg 3 1 ≤ 7 ∨ uAt msg 3 1 = 255 → Signs s →
      let op := uAt msg 3 1
      let block := fun i => le 1 i ++ le 1 1 ++ le 2 51 ++ le 1 (if i ≤ 3 then 1 else 3) ++ le 2 48 ++
        fit 48 (s.keys.digests.getD (i - 1) [])
      let l := if op = 0 then [] else if op = 255 then [1, 2, 3, 4, 5, 6, 7] else [op]
      let rsp := spdmMsg 0x60 (if op = 0 then 7 else 0) 0 (le 1 l.length ++ le 3 (l.flatMap block).length ++ l.flatMap block ++
        drawBytes s.free 32 ++ le 2 0 ++ msg.drop (msg.length - 8))
      (bitOf (uAt msg 2 1) 0 = false → msg.length = 12 →
        Gives (.getMeasurements via head body) s (Responds (Drawn s) { p with meas := p.meas ++ msg ++ rsp } rsp)) ∧
      (bitOf (uAt msg 2 1) 0 = true → msg.length = 45 → uAt msg 36 1 = 0 →
        Gives (.getMeasurements via head body) s (Responds (Drawn s) { p with meas := [] }
          (rsp ++ SignedBy s "responder-measurements signing" (p.vca ++ (p.meas ++ msg ++ rsp)))))) ∧
    (∀ r m t, InSession s via r 1 m t → uAt m 1 1 = 0xE5 → bitOf (uAt m 2 1) 0 = false → m.length = 52 →
      let q := t.bus.spdm
      (m.drop 4 = verifyData q.toDev.secret (q.th ++ m.take 4) →
        let rsp := spdmMsg 0x65 0 0 []
        let keys := dirSecrets (masterSecret q.master) (q.th ++ m ++ rsp) "req app data" "rsp app data"
        Gives (.finish via r) s ((t.sendSecured rsp).setSpdm fun x =>
          { x with session := 2, master := masterSecret q.master, toDev := keys.1, toHost := keys.2, th := [] })) ∧
      (m.drop 4 ≠ verifyData q.toDev.secret (q.th ++ m.take 4) →
        Gives (.finish via r) s (t.sendSecured (spdmErrorMsg 6)).endSession)) ∧
    (∀ r m t, InSession s via r 2 m t →
      (uAt m 1 1 = 0xEC → Gives (.endSession via r) s (t.sendSecured (spdmMsg 0x6C 0 0 [])).endSession) ∧
      (uAt m 1 1 = 0xE8 → Gives (.heartbeat via r) s (t.sendSecured (spdmMsg 0x68 0 0 []))) ∧
      (uAt m 1 1 = 0xE9 →
        let q := t.bus.spdm
        let ack := fun k => spdmMsg 0x69 k (uAt m 3 1) []
        (uAt m 2 1 = 1 → Gives (.keyUpdate via r) s
          ((t.setSpdm fun x => { x with toDev := q.toDev.next, oldKey := some q.toDev }).sendSecured (ack 1))) ∧
        (uAt m 2 1 = 2 → Gives (.keyUpdate via r) s
          ((t.setSpdm fun x => { x with toDev := q.toDev.next, oldKey := some q.toDev, toHost := q.toHost.next }).sendSecured (ack 2))) ∧
        (uAt m 2 1 = 3 → Gives (.keyUpdate via r) s ((t.setSpdm fun x => { x with oldKey := none }).sendSecured (ack 3))))) ∧
    (∀ r, p.session = 0 ∨ p.path ≠ via → Gives (.finish via r) s (RespondsError s p 11) ∧
      Gives (.endSession via r) s (RespondsError s p 11) ∧ Gives (.heartbeat via r) s (RespondsError s p 11) ∧
      Gives (.keyUpdate via r) s (RespondsError s p 11)) ∧
    (∀ r, p.session ≠ 0 → p.path = via → s.openRecord r = none → ∃ t, Gives (.finish via r) s t ∧
      Gives (.endSession via r) s t ∧ Gives (.heartbeat via r) s t ∧ Gives (.keyUpdate via r) s t ∧
      t.bus.spdm.session = 0 ∧ t.bus.spdm.toDev.secret = [] ∧ t.bus.spdm.toHost.secret = [] ∧ t.bus.spdm.respCode = 2)

/-- R120, R121 with log 68: IDE key management and TDISP within a session. LOCK binds an unlocked interface to a selective
stream with keys and answers a nonce; START with that nonce takes it from CONFIG_LOCKED to RUN; STOP unlocks it from any
state. -/
def Sys2Proof.Claims.InterfaceSecurity : Prop :=
  ∀ (s t : State) (r m a z : Bytes), InSession s .doe r 2 m t → a ++ z = r →
    (vendorOf 0 m = true →
      let b := m.drop 12
      let k := uAt b 3 1
      let key := t.bus.spdm.ideKeys.getD k 0
      (uAt b 0 1 = 0 → Gives (.ideKm a z) s (t.sendSecured (vendorMsg 0 (le 1 1 ++ le 1 0 ++ bytesAt b 2 1 ++ le 4 0 ++
        (List.range 8).flatMap fun k => le 1 (t.bus.spdm.ideKeys.getD k 0))))) ∧
      (uAt b 0 1 = 2 → b.length = 47 → uAt b 6 1 = 0 → k < 8 → Gives (.ideKm a z) s ((t.setIde k 1).sendSecured (ideAck 3 0 b))) ∧
      (uAt b 0 1 = 5 → k < 8 → Gives (.ideKm a z) s ((t.setIde k 0).sendSecured (ideAck 6 0 b))) ∧
      (uAt b 0 1 = 4 → k < 8 → key ≠ 0 → Gives (.ideKm a z) s ((t.setIde k 2).sendSecured (ideAck 6 0 b))) ∧
      (uAt b 0 1 = 4 → key = 0 → Gives (.ideKm a z) s (t.sendSecured (spdmErrorMsg 1)))) ∧
    (∀ n y, vendorOf 1 m = true → uAt m 12 1 = 0x10 → zeroAt m 22 6 = true → 28 ≤ m.length → n = uAt m 20 2 →
      s.slices.find n = some y →
      let id := bytesAt m 16 12
      let b := m.drop 28
      let type := uAt m 13 1
      let error := fun code => t.sendSecured (tdispErrorMsg id code)
      let lock := t.bus.spdm.locks.getD n []
      (type = 0x81 → Gives (.getTdispVersion r) s (t.sendSecured (tdispMsg 1 id (le 1 1 ++ le 1 0x10)))) ∧
      (type = 0x82 → Gives (.getTdispCapabilities r) s
        (t.sendSecured (tdispMsg 2 id (le 4 0 ++ le 16 0xFE ++ le 2 0 ++ le 3 0 ++ le 1 64 ++ le 1 1 ++ le 1 1)))) ∧
      (type = 0x85 → Gives (.getDeviceInterfaceState r) s (t.sendSecured (tdispMsg 5 id (le 1
        (match y.tdi with | .configUnlocked => 0 | .configLocked => 1 | .run => 2 | .error => 3))))) ∧
      (type = 0x84 → b.length = 4 → uAt b 0 2 < 36 →
        let report := le 12 0 ++ le 4 1 ++ le 8 ((y.winBase + uAt lock 32 8) / 4096) ++ le 4 (y.winSize / 4096) ++ le 8 0
        let p := (report.drop (uAt b 0 2)).take (uAt b 2 2)
        (y.tdi = .configLocked ∨ y.tdi = .run → Gives (.getDeviceInterfaceReport r) s
          (t.sendSecured (tdispMsg 4 id (le 2 p.length ++ le 2 (36 - uAt b 0 2 - p.length) ++ p)))) ∧
        (y.tdi = .configUnlocked ∨ y.tdi = .error → Gives (.getDeviceInterfaceReport r) s (error 4))) ∧
      (type = 0x83 → b.length = 20 →
        let k := uAt b 2 1
        let nonce := drawBytes t.free 32
        (y.tdi ≠ .configUnlocked → Gives (.lockInterfaceRequest a z) s (error 4)) ∧
        (y.tdi = .configUnlocked → 8 ≤ k ∨ t.bus.spdm.ideKeys.getD k 0 = 0 → Gives (.lockInterfaceRequest a z) s (error 1)) ∧
        (y.tdi = .configUnlocked → k < 8 → t.bus.spdm.ideKeys.getD k 0 ≠ 0 → Signs s →
          Gives (.lockInterfaceRequest a z) s ((((t.drawFrom 4 32).2.setSpdm fun x =>
            { x with locks := x.locks.put n (nonce ++ bytesAt b 4 8) }).setSlice n fun y =>
            { y with tdi := .configLocked, ideStream := some (BitVec.ofNat 3 k) }).sendSecured (tdispMsg 3 id nonce)))) ∧
      (type = 0x86 →
        (y.tdi ≠ .configLocked → Gives (.startInterfaceRequest r) s (error 4)) ∧
        (y.tdi = .configLocked → b ≠ lock.take 32 → Gives (.startInterfaceRequest r) s (error 0x102)) ∧
        (y.tdi = .configLocked → b = lock.take 32 → Gives (.startInterfaceRequest r) s
          ((t.setSlice n fun y => { y with tdi := .run }).sendSecured (tdispMsg 6 id [])))) ∧
      (type = 0x87 → Gives (.stopInterfaceRequest r) s (((t.setSlice n fun y =>
        { y with tdi := .configUnlocked, ideStream := none }).setSpdm fun x =>
        { x with locks := x.locks.drop n }).sendSecured (tdispMsg 7 id []))))

/-- R11, R12, R60, R396: the host's reads of the control window. A 32-bit read of a low word latches the high word, which a
read of the high word returns; a read clears the RC fields; a read of DTM_VALUE's low word takes the snapshot from which the
datum registers read; a reserved offset, a misaligned access and one narrower than
32 bits read as zero; before READY a request is not answered. -/
def Sys2Proof.Claims.RegisterReads : Prop :=
  (∀ (s : State), s.start.perst = false → s.start.vddGood = true → 0x0C ≤ s.start.stage → ∀ off, off % 4 = 0 → off ≠ 0x2000 →
    let u := fun (t : State) (v : Nat) => { t with bus := { t.bus with ur := false, data := BitVec.ofNat 64 v } }
    (∀ n, n ≠ 32 → n ≠ 64 → Gives (.lowWordRead off n) s (u s 0) ∧ Gives (.rcRead off n) s (u s 0)) ∧
    (∀ k, k % 4 ≠ 0 → Gives (.lowWordRead k 32) s (u s 0)) ∧
    (∀ v, s.served off = some (false, v) →
      Gives (.lowWordRead off 32) s (u (s.clearRc off) v) ∧ Gives (.rcRead off 32) s (u (s.clearRc off) v)) ∧
    (∀ v, s.served off = some (true, v) → off % 8 = 0 → Gives (.rcRead off 64) s (u (s.clearRc off) v)) ∧
    (∀ v, s.served off = some (true, v) → snapReg off = false → ∃ t, Gives (.lowWordRead off 32) s t ∧
      t.bus.data = BitVec.ofNat 64 (v % 2 ^ 32) ∧ t.bus.latch.getD off 0 = BitVec.ofNat 32 (v / 2 ^ 32) ∧
      (∀ o, o ≠ off → t.bus.latch.getD o 0 = s.bus.latch.getD o 0) ∧ { t with bus := s.bus } = s.clearRc off) ∧
    (s.served off = none → off % 8 = 0 → Gives (.lowWordRead off 32) s (u s 0)) ∧
    (∀ v, s.served off = none → off % 8 = 4 → s.served (off - 4) = some (true, v) → snapReg (off - 4) = false →
      Gives (.lowWordRead off 32) s (u s (s.bus.latch.getD (off - 4) 0).toNat))) ∧
  (∀ (s : State), s.start.perst = false → s.start.vddGood = true → s.start.stage = 0x0C →
    let status := s.datum.st.code + 4 * (if s.datum.chal = none then 0 else 1) +
      8 * (if ∃ b, s.datum.lastPps = some b ∧ s.now * 1000 < b + 1100000000 then 1 else 0) +
      16 * (if ∃ b, s.datum.lastPtm = some b ∧ s.now * 1000 < b + 1100000000 then 1 else 0)
    let d : DatumSnap := { v := s.datum.v, lo := s.datum.lo, hi := s.datum.hi, u := s.unc, status := status }
    let t := { s with datum := { s.datum with snap := some d } }
    Gives (.dtmValueLowRead 64) s { t with bus := { s.bus with ur := false, data := BitVec.ofNat 64 s.datum.v } } ∧
    Gives (.dtmValueLowRead 32) s { t with bus := { s.bus with ur := false, data := BitVec.ofNat 64 (s.datum.v % 2 ^ 32) } } ∧
    (∀ e, s.datum.snap = some e → s.served 0x2008 = some (true, e.lo % 2 ^ 64) ∧ s.served 0x2010 = some (true, e.hi % 2 ^ 64) ∧
      s.served 0x2018 = some (true, e.u % 2 ^ 64) ∧ s.served 0x2020 = some (false, e.status % 2 ^ 32))) ∧
  (∀ (s : State),
    (s.clearRc 0x2040).datum = { s.datum with rejected := 0, conflicts := 0 } ∧
    (s.clearRc 0x600C).rng = { s.rng with rct := 0, apt := 0, balance := 0, restarts := 0 } ∧
    (s.clearRc 0x8010).integ = { s.integ with transients := 0, mismatches := 0 } ∧
    (s.clearRc 0x9008).integ = { s.integ with corrected := 0, uncorrectable := 0, tagFail := 0 } ∧
    (s.clearRc 0xA00C).log = { s.log with dropped := 0 } ∧ (s.clearRc 0x01009008).events = { s.events with routeErr := 0 } ∧
    s.clearRc 0x0010 = s) ∧
  (∀ (s : State), s.start.perst = false → s.start.vddGood = true → s.start.stage < 0x0C → ∀ off w,
    let t := { s with bus := { s.bus with ur := true, data := 0 } }
    Gives (.lowWordRead off w) s t ∧ Gives (.rcRead off w) s t ∧ Gives (.dtmValueLowRead w) s t)

/-- R11 to R13, R96, R376, R393: the host's writes. A low word of a 64-bit register is held until its high word commits the
register; a width other than 32 and 64 bits has no effect; a read-only register keeps its value. ENABLE brings queue 0 up on a
working region where its fields are legal. -/
def Sys2Proof.Claims.RegisterWrites : Prop :=
  (∀ (s : State), s.start.perst = false → s.start.vddGood = true → s.start.stage = 0x0C →
    let b := { s with bus := { s.bus with ur := false } }
    (∀ off (v : BitVec 32) w, off % 4 = 0 → s.served off = some (true, w) → Gives (.lowWordWrite off v) s
      { b with bus := { b.bus with heldLow := s.bus.heldLow.put off v } }) ∧
    (∀ (v : BitVec 32), s.queues.find 0 = none →
      let low := fun o => match s.bus.heldLow.find o with
        | some l => l.toNat
        | none => (if o = 0x02800018 then s.enq0.cqAddr else s.enq0.shadowAddr) % 2 ^ 32
      (∃ t, Gives (.highWordWrite 0x0280001C v) s t ∧
        t.enq0 = { s.enq0 with cqAddr := low 0x02800018 + 2 ^ 32 * v.toNat } ∧ t.bus.heldLow.find 0x02800018 = none ∧
        { t with enq0 := s.enq0, bus := s.bus } = s) ∧
      (∃ t, Gives (.highWordWrite 0x02800024 v) s t ∧
        t.enq0 = { s.enq0 with shadowAddr := low 0x02800020 + 2 ^ 32 * v.toNat } ∧ { t with enq0 := s.enq0, bus := s.bus } = s)) ∧
    (∀ (v : BitVec 64), s.queues.find 0 = none →
      (∃ t, Gives (.registerWrite 0x02800018 64 v) s t ∧ t.enq0 = { s.enq0 with cqAddr := v.toNat } ∧
        { t with enq0 := s.enq0, bus := s.bus } = s) ∧
      (∃ t, Gives (.registerWrite 0x02800010 64 v) s t ∧
        t.enq0 = { s.enq0 with sqLog2 := v.toNat % 32, cqLog2 := v.toNat / 256 % 32, vector := v.toNat / 65536 % 2048 })) ∧
    (∀ off n v, n ≠ 32 → n ≠ 64 → Gives (.registerWrite off n v) s b) ∧
    (∀ off (v : BitVec 64) w, off % 4 = 0 → off < 0x01000000 → s.served off = some (false, w) → Gives (.registerWrite off 32 v) s b) ∧
    (∀ k (v : BitVec 64), k < 2048 →
      let e := s.msixEntry k
      let low := v.toNat % 2 ^ 32
      let entry := fun (o : Nat) (f : MsixEntry) => ∃ t, Gives (.registerWrite (0x01000000 + 16 * k + o) 32 v) s t ∧
        t.msixEntry k = f ∧ (∀ j, j ≠ k → t.msixEntry j = s.msixEntry j)
      entry 0 { e with addr := e.addr / 2 ^ 32 * 2 ^ 32 + low / 4 * 4 } ∧ entry 4 { e with addr := e.addr % 2 ^ 32 + 2 ^ 32 * low } ∧
      entry 8 { e with data := low } ∧ entry 12 { e with mask := v.getLsbD 0 }) ∧
    (∀ k (v : BitVec 64), k < 1792 → ∃ t, Gives (.registerWrite (0x01010000 + 4 * k) 32 v) s t ∧
      t.coalOf k = { s.coalOf k with count := max 1 (v.toNat % 256), timer := min 1000 (max 1 (v.toNat / 256 % 1024)) })) ∧
  (∀ (s : State) (off : Nat) (v : BitVec 32) (w : BitVec 64), s.start.perst = false → s.start.vddGood = true →
    s.start.stage < 0x0C →
    let t := { s with bus := { s.bus with ur := true } }
    Gives (.lowWordWrite off v) s t ∧ Gives (.highWordWrite off v) s t ∧ Gives (.registerWrite off 32 w) s t) ∧
  (∀ (s : State) (v : BitVec 32), s.start.stage = 0x0C → s.queues.find 0 = none →
    let x := s.enq0
    let legal := 6 ≤ x.sqLog2 ∧ x.sqLog2 ≤ 18 ∧ 6 ≤ x.cqLog2 ∧ x.cqLog2 ≤ 18 ∧ x.vector ≤ 0x6FF ∧ x.cqAddr % 4096 = 0 ∧
      x.shadowAddr % 8 = 0
    (legal → v.getLsbD 0 = true → (∃ r < 4, s.regionRetired r = false) → ∃ t home, Gives (.queCtrlEnableWrite v) s t ∧
      home < 4 ∧ s.regionRetired home = false ∧
      t.queues.find 0 = some { x with home := home, st := .active, admin := true } ∧
      (∀ q, q ≠ 0 → t.queues.find q = s.queues.find q) ∧ { t with queues := s.queues, free := s.free } = s) ∧
    (¬ legal ∨ v.getLsbD 0 = false → Idle (.queCtrlEnableWrite v) s))

/-- Log 1: a step takes the command at the front of the queue and runs it on the state with the queue's rest; an empty queue
leaves the block idle (the model's choice). -/
def Obligations.StepRunsFront : Prop :=
  (∀ (c : Instr) (l : List Instr) (s : State), s.pending = c :: l → step s = exec c { s with pending := l }) ∧
  (∀ (c : Instr) (s : State), step { s with pending := c :: s.pending } = exec c s) ∧
  (∀ s : State, s.pending = [] → step s = .next s)

/-- R37, R290, R376, R384, R393, R409, R412: the machine as State.reset has it: no command waits, the datum is UNSET, the cores
are held with zeroed registers, in supervisor and plain mode,
with interrupts off, unwritten guards and VBASE at 0x400, each MSI-X entry is masked, every coalescing
register holds 1 and 1, no fuse is burnt, and 16 commit tokens stand ready. -/
def Obligations.ResetState : Prop :=
  let s := State.reset
  s.pending = [] ∧ s.start.vddGood = false ∧ s.start.perst = true ∧ s.start.stage = 0 ∧ s.integ.safe = false ∧
  s.datum.st = .unset ∧ s.start.tokens = 16 ∧ s.lcs.code = 0 ∧ s.ctxs = [] ∧ s.queues = [] ∧ s.slices = [] ∧
  s.keys.slots = [] ∧ s.rng.stage = .off ∧ s.rng.drbgs = [] ∧ s.window = [] ∧ s.host = [] ∧ s.hbm = [] ∧ s.emram = [] ∧
  (∀ c, (s.core c).held = true ∧ (∀ r, (s.core c).gx r = 0) ∧ (s.core c).fl = 0 ∧ (s.core c).pc = 0 ∧
    (s.core c).priv = true ∧ (s.core c).ie = false ∧ (s.core c).exl = false ∧ (s.core c).recov = false ∧
    (s.core c).plain = true ∧ (s.core c).curPrio = 16 ∧ (s.core c).init = 0 ∧ (∀ y, (s.core c).y.getD y 0 = 0) ∧
    (s.core c).vbase = 0x400 ∧ (s.core c).qmod = 0) ∧
  (∀ v, (s.msixEntry v).mask = true ∧ (s.coalOf v).count = 1 ∧ (s.coalOf v).timer = 1) ∧
  ∀ u, (s.unitSt u).job = .idle ∧ (s.unitSt u).retired = false

/-- R407, R409, R412: the bounds hold at reset, and the memories have their canonical form there. -/
def Obligations.InvariantsAtReset : Prop := Bounds State.reset ∧ MemoryForm State.reset

/-- R407, R409, R412: every step keeps the bounds: at most 16 tokens, five and three fuse groups, two bank records. -/
def Obligations.BoundsAreKept : Prop := ∀ s t : State, Bounds s → step s = .next t → Bounds t

/-- Log 105: every step keeps the canonical form of the queue window, host memory, the HBM and eMRAM, so that equal memories are
equal data. -/
def Obligations.MemoryFormIsKept : Prop := ∀ s t : State, MemoryForm s → step s = .next t → MemoryForm t

/-- Log 1: a step that goes on takes exactly the front command: what waits behind it stays in its order, and no command adds one
(the model's queue). -/
def Obligations.QueueIsFirstInFirstOut : Prop := ∀ s t : State, step s = .next t → t.pending = s.pending.tail

/-- R370, R371: the safe state ends at a reset of the whole device alone: after a step of any command but PERST_N and power, a
device in the safe state still is in it, and its first alarm stays latched. -/
def Obligations.SafeStateStays : Prop :=
  ∀ (c : Instr) (s t : State), exec c s = .next t → s.integ.safe = true →
    (∀ e, c ≠ .perstNDeassert e) → c ≠ .perstNAssert → c ≠ .powerLoss →
    t.integ.safe = true ∧ t.integ.firstClass = s.integ.firstClass ∧ t.integ.cause = s.integ.cause ∧
    t.integ.alarmV = s.integ.alarmV

/-! ## Traps, words without a meaning, error events, packets and the queue window in full (R63, R71, R80, R94, R310, R358) -/

/-- The entry of an exception that is neither in recovery mode nor doubled, over the state `b` in which the core has nothing
outstanding: the saved status, PC, cause and information, supervisor mode with interrupts off, and the handler at VBASE +
64 x the code (R310). -/
def Enters (t b : State) (c : Nat) (epc info : BitVec 64) (code : Nat) : Prop :=
  CoreOnly t b c
    { b.core c with
      epstate := (b.core c).pstate, epc := epc, einfo := info, ecause := BitVec.ofNat 64 code
      priv := true, ie := false, exl := true, pc := (b.core c).vbase + BitVec.ofNat 64 (64 * code), cycle := (b.core c).cycle + 1 }

/-- A core that issues and takes an exception in the plain way (R289, R310). -/
structure Excepts (s : State) (c : Nat) : Prop where
  core : c < 69
  held : (s.core c).held = false
  halted : (s.core c).halted = false
  waiting : (s.core c).waiting = false
  recov : (s.core c).recov = false
  exl : (s.core c).exl = false

/-- R299, R310: TRAP and a word without a meaning complete in the entry of their exceptions, TRAP with EPC at the next
instruction; R310, R348, R358: an uncorrectable error of a scalar access and of a fetch completes in BUS and FETCH, one
in an executing sheet's SRAM and in an engine's working storage ends the operation and charges the unit, one in the event log
loses the records of its word, and a corrected one of a control store is counted. -/
def Obligations.TrapsAndErrorsComplete : Prop :=
  (∀ (c : Nat) (g : BitVec 4) (code : BitVec 10) (s : State), Runs s c g →
    ((s.atGuard c g).core c).recov = false → ((s.atGuard c g).core c).exl = false →
    let b := (s.atGuard c g).quiesceAll c
    ∃ t, exec (.trap c g code) s = .next t ∧ Enters t b c ((b.core c).pc + 4) (code.setWidth 64) 8) ∧
  (∀ (c : Nat) (w : BitVec 32) (s : State), Excepts s c → fetchOk c (s.core c).pc = true → s.wordLegal c w = false →
    ∃ t, exec (.undefinedEncoding c w) s = .next t ∧
      Enters t (s.quiesceAll c) c (((s.quiesceAll c).core c).pc) (w.setWidth 64) 1) ∧
  (∀ (u c : Nat) (a : BitVec 64) (s : State), Excepts s c →
    (∃ t, exec (.uncorrectableEccError u (.coreData c a)) s = .next t ∧
      Enters t (s.quiesceAll c) c (((s.quiesceAll c).core c).pc) a 4) ∧
    (∃ t, exec (.uncorrectableEccError u (.coreFetch c)) s = .next t ∧
      Enters t (s.quiesceAll c) c (((s.quiesceAll c).core c).pc) (s.core c).pc 5)) ∧
  (∀ (u : Nat) (s : State), u < 104 → s.serving = true →
    let lost := (s.abortUnit u (Part.worksOn u)).charge u 2
    (unitKind u = 0 → s.busyUnit u = true → exec (.uncorrectableEccError u .sheetSram) s = .next lost) ∧
    (unitKind u = 1 → s.busyUnit u = true → exec (.uncorrectableEccError u .engineOps) s = .next lost) ∧
    (unitKind u < 2 → s.jobFree u = false → exec (.uncorrectableEccError u .storeBit) s = .next
      { s with integ := { s.integ with storeCorrected := min (s.integ.storeCorrected + 1) 65535 } })) ∧
  (∀ (u w : Nat) (s : State), w < 2048 → ∃ t, exec (.uncorrectableEccError u (.logWord 1 w)) s = .next t ∧
    (∀ k, (t.log.circ.find k).map EvRec.code = if k / 2 = w then some 0xFFFF else (s.log.circ.find k).map EvRec.code) ∧
    { t with log := s.log } = s)

/-- R71, R94, R397: an access to the queue window completes: a read on the interface's stream gives the octets of the ring, with
doorbell pages as zero, and a clean 4-octet write of a doorbell register rings it. R63, R78, R80: the packet that a queue
may consume completes its tests, H moves past its cells, and it waits in its context with its header and payload. -/
def Obligations.WindowAndPacketsComplete : Prop :=
  (∀ (off len : Nat) (data : Bytes) (ide : Option (BitVec 3)) (poison : Bool) (s : State), s.start.stage = 0x0C →
    (∀ n, s.windowSlice off = some n → OnStream s n ide) →
    exec (.queueWindowAccess false off len data ide poison) s = .next { s with bus := { s.bus with
      ur := false
      bytes := (List.range (min len 4096)).map fun i => if s.inDoorbellPage (off + i) then 0 else s.window.getD (off + i) 0 } } ∧
    (∀ q, s.windowQueue off = some (q, 0) → data.length = 4 → poison = false →
      exec (.queueWindowAccess true off len data ide poison) s =
        .next ({ s with bus := { s.bus with ur := false } }.sqDoorbell q (BitVec.ofNat 32 (leNat data)) ide)) ∧
    (∀ q, s.windowQueue off = some (q, 4) → data.length = 4 → poison = false →
      exec (.queueWindowAccess true off len data ide poison) s =
        .next ({ s with bus := { s.bus with ur := false } }.cqDoorbell q (BitVec.ofNat 32 (leNat data)) ide)) ∧
    ((∀ q, s.windowQueue off ≠ some (q, 0) ∧ s.windowQueue off ≠ some (q, 4)) →
      ∃ t, exec (.queueWindowAccess true off len data ide poison) s = .next t ∧
        ∀ a, t.window.getD a 0 =
          if off ≤ a ∧ a < off + data.length ∧ a < 2 ^ 32 ∧ s.inDoorbellPage a = false then data.getD (a - off) 0
          else s.window.getD a 0)) ∧
  (∀ (q i : Nat) (s : State) (x : Queue) (first : Bool) (own op : Nat), MayConsume s q i x →
    let head := s.ringRead x 1 x.h
    let h := s.hdrAt head
    let body := (s.ringRead x (h.cells - 1) (x.h + 1)).take h.payLen
    (1 ≤ h.cells ∧ h.cells ≤ 1024 ∧ h.cells ≤ (x.t - x.h).toNat) → h.stream = 0 →
    s.verdict80 q x h body (s.steps123 x h head body).1 = .accepted first own op →
    (s.steps123 x h head body).1 = none →
    ∃ t z d, exec (.packetConsume q) s = .next t ∧ t.queues.find q = some z ∧ z.h = x.h + BitVec.ofNat 32 h.cells ∧
      t.ctxs.find i = some d ∧ d.q = q ∧ d.seq = x.nextSeq ∧ d.slice = x.slice ∧ d.region = x.home ∧ d.accepted = s.now ∧
      d.phase = .waiting ∧ d.opcode = h.opcode ∧ d.flags = h.flags ∧ d.tag = h.tag ∧ d.keyA = h.keyA ∧ d.keyB = h.keyB ∧
      d.param = h.param ∧ d.deadline = h.deadline ∧ d.outLimit = h.outLimit ∧ d.payload = body ∧ d.pages = own + op)

/-! ## Statements of several parts -/

/-- Both parts: the short vector and guard instructions. -/
def Obligations.ShortVectorAndGuardResults : Prop := Sys2Proof.Claims.ShortVectorResults ∧ Sys2Proof.Claims.GuardResults

/-- Both parts: a multiply or divide starts, and its result lands when its cycles have passed. -/
def Obligations.MultiplierResults : Prop := Sys2Proof.Claims.MultiplierStarts ∧ Sys2Proof.Claims.MultiplierWritesLand

/-- Both parts: loads, and accesses to the control window. -/
def Obligations.Loads : Prop := Sys2Proof.Claims.LoadResults ∧ Sys2Proof.Claims.ControlWindowAccess

/-- Both parts: SYSRD and SYSWR. -/
def Obligations.SystemRegisters : Prop := Sys2Proof.Claims.SystemRegisterReads ∧ Sys2Proof.Claims.SystemRegisterWrites

/-- Both parts: exceptions in plain and in recovery mode. -/
def Obligations.ExceptionEntries : Prop := Sys2Proof.Claims.ExceptionEntry ∧ Sys2Proof.Claims.RecoveryEntry

/-- Its parts: traps, words without a meaning, illegal encodings, and task mode. -/
def Obligations.TrapsAndPrivilege : Prop :=
  Sys2Proof.Claims.TrapsAndIllegalWords ∧ Sys2Proof.Claims.IllegalForms ∧ Sys2Proof.Claims.TaskModeRaisesPriv

/-- Its parts: a false guard, a stopped core, and a core with nothing outstanding. -/
def Obligations.WhatDoesNotIssue : Prop :=
  Sys2Proof.Claims.FalseGuardHasNoEffect ∧ Sys2Proof.Claims.StoppedCoreIssuesNothing ∧ Sys2Proof.Claims.QuietCoreHasNoInterlock

/-- Its parts: interrupts, their end, and the core watchdogs. -/
def Obligations.Interrupts : Prop :=
  Sys2Proof.Claims.InterruptAcceptance ∧ Sys2Proof.Claims.EndOfInterrupt ∧ Sys2Proof.Claims.CoreWatchdog

/-- Both parts: CPSTAT, CPSYNC and the end of a coprocessor command. -/
def Obligations.CoprocessorProgress : Prop := Sys2Proof.Claims.CoprocessorStatus ∧ Sys2Proof.Claims.CoprocessorCompletion

/-- Both parts: element-wise results and compares. -/
def Obligations.VectorArithmetic : Prop := Sys2Proof.Claims.VectorResults ∧ Sys2Proof.Claims.VectorCompares

/-- Both parts: VL, extraction and insertion, and the beats that leave a pipe. -/
def Obligations.VectorLengthExtractAndBeats : Prop := Sys2Proof.Claims.VectorLengthAndExtract ∧ Sys2Proof.Claims.BeatsLeave

/-- Its parts: vector loads and stores and their faults. -/
def Obligations.VectorMemory : Prop :=
  Sys2Proof.Claims.VectorLoads ∧ Sys2Proof.Claims.VectorStores ∧ Sys2Proof.Claims.VectorFaults

/-- Both parts: holdover, challenge expiry and phase refinements. -/
def Obligations.HoldoverAndRefinement : Prop := Sys2Proof.Claims.HoldoverAndChallengeExpiry ∧ Sys2Proof.Claims.PhaseRefinement

/-- Both parts: challenges, the verdict on a token, and its application. -/
def Obligations.ChallengesAndTokens : Prop := Sys2Proof.Claims.ChallengeAndToken ∧ Sys2Proof.Claims.TokenApplies

/-- Both parts: the queue window, and the packet that a queue consumes. -/
def Obligations.PacketsAndQueueWindow : Prop := Sys2Proof.Claims.QueueWindow ∧ Sys2Proof.Claims.PacketConsumption

/-- Both parts: reruns, legs and ends of operations. -/
def Obligations.RerunsLegsAndEnds : Prop := Sys2Proof.Claims.RerunsAndLegs ∧ Sys2Proof.Claims.OperationEnds

/-- Both parts: slices and queue pairs. -/
def Obligations.SlicesAndQueues : Prop := Sys2Proof.Claims.SliceAdministration ∧ Sys2Proof.Claims.QueuePairs

/-- Both parts: slabs and their comparisons. -/
def Obligations.Slabs : Prop := Sys2Proof.Claims.SlabLaunches ∧ Sys2Proof.Claims.SlabComparisons

/-- Both parts: the entropy source and the random instances. -/
def Obligations.EntropyAndInstances : Prop := Sys2Proof.Claims.EntropySource ∧ Sys2Proof.Claims.RandomInstances

/-- Both parts: residency, preparation, bumps and reclaim of keys. -/
def Obligations.KeyStoreEvents : Prop := Sys2Proof.Claims.KeyResidencyAndPreparation ∧ Sys2Proof.Claims.BumpsAndReclaim

/-- Both parts: the commands that the cores answer, and RANDOM_BYTES. -/
def Obligations.CoreServices : Prop := Sys2Proof.Claims.CoreAnswers ∧ Sys2Proof.Claims.RandomBytesServed

/-- Both parts: a start from power-up to READY. -/
def Obligations.StartUp : Prop := Sys2Proof.Claims.StartsAndBanks ∧ Sys2Proof.Claims.StartGoesOn

/-- Both parts: the SPDM responder and the security of interfaces. -/
def Obligations.SpdmAndInterfaces : Prop := Sys2Proof.Claims.SpdmResponder ∧ Sys2Proof.Claims.InterfaceSecurity

/-- Both parts: the event controller and the records of events. -/
def Obligations.EventsAndRecords : Prop := Sys2Proof.Claims.EventController ∧ Sys2Proof.Claims.EventRecords

/-- Both parts: how a command ends, and the deadline test of what a core executes. -/
def Obligations.EndsAndDeadlines : Prop := Sys2Proof.Claims.CommandsEnd ∧ Sys2Proof.Claims.DeadlineDecides

/-- Both parts: whose turn it is to launch, and the launch itself. -/
def Obligations.TurnsAndLaunches : Prop := Sys2Proof.Claims.LaunchesTakeTurns ∧ Sys2Proof.Claims.OperationLaunches

/-- Both parts: reads and writes of the control window. -/
def Obligations.RegisterAccess : Prop := Sys2Proof.Claims.RegisterReads ∧ Sys2Proof.Claims.RegisterWrites
end

