-- ==== Sys2Proof/Laws/Tab.lean ====
section
/-! SUPPORT. What the operations of a sparse table do to its entries, and that each keeps the canonical form. -/

namespace Sys2Proof.Machine

variable {α : Type}

/-! ## Entries -/

@[simp] theorem Tab.find_nil (a : Nat) : Tab.find ([] : Tab α) a = none := rfl

@[simp] theorem Tab.getD_nil (a : Nat) (d : α) : Tab.getD ([] : Tab α) a d = d := rfl

@[simp] theorem Tab.find_put_same (t : Tab α) (a : Nat) (w : α) : (t.put a w).find a = some w := by
  induction t with
  | nil => simp [Tab.put, Tab.find]
  | cons p t ih =>
    obtain ⟨k, v⟩ := p
    simp only [Tab.put]
    split
    · simp [Tab.find]
    · split
      · simp [Tab.find]
      · rename_i h
        simp [Tab.find, Ne.symm h, ih]

theorem Tab.find_put_ne (t : Tab α) {a b : Nat} (w : α) (h : b ≠ a) : (t.put a w).find b = t.find b := by
  induction t with
  | nil => simp [Tab.put, Tab.find, Ne.symm h]
  | cons p t ih =>
    obtain ⟨k, v⟩ := p
    simp only [Tab.put]
    split
    · simp [Tab.find, Ne.symm h]
    · split
      · rename_i e
        subst e
        simp [Tab.find, Ne.symm h]
      · simp [Tab.find, ih]

@[simp] theorem Tab.find_drop_same (t : Tab α) (a : Nat) : (t.drop a).find a = none := by
  induction t with
  | nil => rfl
  | cons p t ih =>
    obtain ⟨k, v⟩ := p
    simp only [Tab.drop]
    split
    · exact ih
    · rename_i h
      simp [Tab.find, h, ih]

theorem Tab.find_drop_ne (t : Tab α) {a b : Nat} (h : b ≠ a) : (t.drop a).find b = t.find b := by
  induction t with
  | nil => rfl
  | cons p t ih =>
    obtain ⟨k, v⟩ := p
    simp only [Tab.drop]
    split
    · rename_i e
      subst e
      simp [Tab.find, Ne.symm h, ih]
    · simp [Tab.find, ih]

@[simp] theorem Tab.getD_put_same (t : Tab α) (a : Nat) (w d : α) : (t.put a w).getD a d = w := by
  simp [Tab.getD]

theorem Tab.getD_put_ne (t : Tab α) {a b : Nat} (w d : α) (h : b ≠ a) : (t.put a w).getD b d = t.getD b d := by
  simp [Tab.getD, Tab.find_put_ne t w h]

/-- A read after a write to the same key gives the value written. -/
@[simp] theorem Tab.getD_putD_same [DecidableEq α] (t : Tab α) (a : Nat) (w d : α) : (t.putD a w d).getD a d = w := by
  unfold Tab.putD
  split
  · rename_i h
    simp [Tab.getD, h]
  · simp

/-- A write leaves every other key alone. -/
theorem Tab.getD_putD_ne [DecidableEq α] (t : Tab α) {a b : Nat} (w d : α) (h : b ≠ a) :
    (t.putD a w d).getD b d = t.getD b d := by
  unfold Tab.putD
  split
  · simp [Tab.getD, Tab.find_drop_ne t h]
  · exact Tab.getD_put_ne t w d h

@[simp] theorem Tab.find_modify_same (t : Tab α) (a : Nat) (f : α → α) : (t.modify a f).find a = (t.find a).map f := by
  unfold Tab.modify
  split
  · rename_i v h
    simp [h]
  · rename_i h
    simp [h]

theorem Tab.find_modify_ne (t : Tab α) {a b : Nat} (f : α → α) (h : b ≠ a) : (t.modify a f).find b = t.find b := by
  unfold Tab.modify
  split
  · exact Tab.find_put_ne t _ h
  · rfl

theorem Tab.find_mapVals (t : Tab α) (f : Nat → α → α) (a : Nat) : (t.mapVals f).find a = (t.find a).map (f a) := by
  induction t with
  | nil => rfl
  | cons p t ih =>
    obtain ⟨k, v⟩ := p
    by_cases h : k = a
    · subst h
      simp [Tab.mapVals, Tab.find]
    · simpa [Tab.mapVals, Tab.find, h] using ih

/-! ## The canonical form -/

/-- Every key of a table lies above a bound. -/
def Tab.above (t : Tab α) (n : Nat) : Prop := ∀ p ∈ t, n < p.1

theorem Tab.rising_cons (k : Nat) (v : α) (t : Tab α) :
    Tab.rising ((k, v) :: t) = true ↔ Tab.above t k ∧ t.rising = true := by
  induction t generalizing k v with
  | nil => simp [Tab.rising, Tab.above]
  | cons p t ih =>
    obtain ⟨j, w⟩ := p
    simp only [Tab.rising, Bool.and_eq_true, decide_eq_true_eq]
    rw [ih j w]
    constructor
    · rintro ⟨h, ha, hr⟩
      refine ⟨fun q hq => ?_, ha, hr⟩
      rcases List.mem_cons.1 hq with rfl | hq
      · exact h
      · exact Nat.lt_trans h (ha q hq)
    · rintro ⟨h, ha, hr⟩
      exact ⟨h (j, w) (List.mem_cons_self ..), ha, hr⟩

theorem Tab.above_put (t : Tab α) {n a : Nat} (w : α) (h : t.above n) (ha : n < a) : (t.put a w).above n := by
  induction t with
  | nil =>
    intro p hp
    simp [Tab.put] at hp
    simpa [hp] using ha
  | cons q t ih =>
    obtain ⟨k, v⟩ := q
    intro p hp
    have hk : n < k := h (k, v) (List.mem_cons_self ..)
    have ht : Tab.above t n := fun r hr => h r (List.mem_cons_of_mem _ hr)
    simp only [Tab.put] at hp
    split at hp
    · rcases List.mem_cons.1 hp with rfl | hp
      · exact ha
      · exact h p hp
    · split at hp
      · rcases List.mem_cons.1 hp with rfl | hp
        · exact ha
        · exact ht p hp
      · rcases List.mem_cons.1 hp with rfl | hp
        · exact hk
        · exact ih ht p hp

theorem Tab.above_drop (t : Tab α) {n a : Nat} (h : t.above n) : (t.drop a).above n := by
  induction t with
  | nil => exact h
  | cons q t ih =>
    obtain ⟨k, v⟩ := q
    have ht : Tab.above t n := fun r hr => h r (List.mem_cons_of_mem _ hr)
    intro p hp
    simp only [Tab.drop] at hp
    split at hp
    · exact ih ht p hp
    · rcases List.mem_cons.1 hp with rfl | hp
      · exact h _ (List.mem_cons_self ..)
      · exact ih ht p hp

theorem Tab.rising_put (t : Tab α) (a : Nat) (w : α) (h : t.rising = true) : (t.put a w).rising = true := by
  induction t with
  | nil => rfl
  | cons q t ih =>
    obtain ⟨k, v⟩ := q
    obtain ⟨ha, hr⟩ := (Tab.rising_cons k v t).1 h
    simp only [Tab.put]
    split
    · rename_i hlt
      refine (Tab.rising_cons a w _).2 ⟨fun p hp => ?_, h⟩
      rcases List.mem_cons.1 hp with rfl | hp
      · exact hlt
      · exact Nat.lt_trans hlt (ha p hp)
    · split
      · rename_i e
        subst e
        exact (Tab.rising_cons a w t).2 ⟨ha, hr⟩
      · rename_i h1 h2
        exact (Tab.rising_cons k v _).2 ⟨Tab.above_put t w ha (by omega), ih hr⟩

theorem Tab.rising_drop (t : Tab α) (a : Nat) (h : t.rising = true) : (t.drop a).rising = true := by
  induction t with
  | nil => rfl
  | cons q t ih =>
    obtain ⟨k, v⟩ := q
    obtain ⟨ha, hr⟩ := (Tab.rising_cons k v t).1 h
    simp only [Tab.drop]
    split
    · exact ih hr
    · exact (Tab.rising_cons k v _).2 ⟨Tab.above_drop t ha, ih hr⟩

theorem Tab.noDefault_put [DecidableEq α] (t : Tab α) (a : Nat) (w d : α) (h : t.noDefault d = true) (hw : w ≠ d) :
    (t.put a w).noDefault d = true := by
  induction t with
  | nil => simp [Tab.put, Tab.noDefault, hw]
  | cons q t ih =>
    obtain ⟨k, v⟩ := q
    simp only [Tab.noDefault, List.all_cons, Bool.and_eq_true, decide_eq_true_eq] at h
    simp only [Tab.put]
    split
    · simpa [Tab.noDefault, hw] using h
    · split
      · simpa [Tab.noDefault, hw] using h.2
      · have := ih (by simpa [Tab.noDefault] using h.2)
        simpa [Tab.noDefault, h.1] using this

theorem Tab.noDefault_drop [DecidableEq α] (t : Tab α) (a : Nat) (d : α) (h : t.noDefault d = true) :
    (t.drop a).noDefault d = true := by
  induction t with
  | nil => rfl
  | cons q t ih =>
    obtain ⟨k, v⟩ := q
    simp only [Tab.noDefault, List.all_cons, Bool.and_eq_true, decide_eq_true_eq] at h
    have ht := ih (by simpa [Tab.noDefault] using h.2)
    simp only [Tab.drop]
    split
    · exact ht
    · simpa [Tab.noDefault, h.1] using ht

/-- A write keeps the canonical form. -/
theorem Tab.wf_putD [DecidableEq α] (t : Tab α) (a : Nat) (w d : α) (h : t.wf d = true) : (t.putD a w d).wf d = true := by
  obtain ⟨hr, hn⟩ : t.rising = true ∧ t.noDefault d = true := by simpa [Tab.wf] using h
  unfold Tab.putD
  split
  · simp [Tab.wf, Tab.rising_drop t a hr, Tab.noDefault_drop t a d hn]
  · rename_i hw
    simp [Tab.wf, Tab.rising_put t a w hr, Tab.noDefault_put t a w d hn hw]

theorem wf_putBytes (a : Nat) (b : Bytes) (m : Tab Byte) (h : m.wf 0 = true) : (putBytes a b m).wf 0 = true := by
  induction b generalizing a m with
  | nil => exact h
  | cons x t ih => exact ih _ _ (Tab.wf_putD m a x 0 h)

theorem wf_hostWrite (space a : Nat) (b : Bytes) (m : Tab Byte) (h : m.wf 0 = true) :
    (hostWrite space a b m).wf 0 = true := by
  induction b generalizing a m with
  | nil => exact h
  | cons x t ih => exact ih _ _ (Tab.wf_putD m _ x 0 h)

/-- Reading an octet after a store of octets: outside them, what was there. -/
theorem getD_putBytes_out (a : Nat) (b : Bytes) (m : Tab Byte) (i : Nat) (h : i < a ∨ a + b.length ≤ i) :
    (putBytes a b m).getD i 0 = m.getD i 0 := by
  induction b generalizing a m with
  | nil => rfl
  | cons x t ih =>
    simp only [List.length_cons] at h
    rw [putBytes, ih _ _ (by omega), Tab.getD_putD_ne m x 0 (by omega)]

/-- Reading an octet after a store of octets: the octet stored. -/
theorem getD_putBytes_in (a : Nat) (b : Bytes) (m : Tab Byte) (i : Nat) (h : i < b.length) :
    (putBytes a b m).getD (a + i) 0 = b[i] := by
  induction b generalizing a m i with
  | nil => simp at h
  | cons x t ih =>
    cases i with
    | zero => rw [putBytes, getD_putBytes_out _ _ _ _ (by omega)]; simp
    | succ n =>
      have := ih (a + 1) (m.putD a x 0) n (by simpa using h)
      simpa [putBytes, Nat.add_assoc, Nat.add_comm 1 n] using this

end Sys2Proof.Machine
end

