-- ==== Sys2Proof/Laws/State.lean ====
section
/-! SUPPORT. What each update of one field of the state leaves alone, and what a read after it gives. -/

namespace Sys2Proof.Machine

open Sys2Proof

variable (s : State)

/-! ## setCore -/

@[simp] theorem State.setCore_pending (c : Nat) (k : Core) : (s.setCore c k).pending = s.pending := rfl
@[simp] theorem State.setCore_now (c : Nat) (k : Core) : (s.setCore c k).now = s.now := rfl
@[simp] theorem State.setCore_free (c : Nat) (k : Core) : (s.setCore c k).free = s.free := rfl
@[simp] theorem State.setCore_datum (c : Nat) (k : Core) : (s.setCore c k).datum = s.datum := rfl
@[simp] theorem State.setCore_units (c : Nat) (k : Core) : (s.setCore c k).units = s.units := rfl
@[simp] theorem State.setCore_engines (c : Nat) (k : Core) : (s.setCore c k).engines = s.engines := rfl
@[simp] theorem State.setCore_queues (c : Nat) (k : Core) : (s.setCore c k).queues = s.queues := rfl
@[simp] theorem State.setCore_enq0 (c : Nat) (k : Core) : (s.setCore c k).enq0 = s.enq0 := rfl
@[simp] theorem State.setCore_slices (c : Nat) (k : Core) : (s.setCore c k).slices = s.slices := rfl
@[simp] theorem State.setCore_ctxs (c : Nat) (k : Core) : (s.setCore c k).ctxs = s.ctxs := rfl
@[simp] theorem State.setCore_collectors (c : Nat) (k : Core) : (s.setCore c k).collectors = s.collectors := rfl
@[simp] theorem State.setCore_writerNext (c : Nat) (k : Core) : (s.setCore c k).writerNext = s.writerNext := rfl
@[simp] theorem State.setCore_turns (c : Nat) (k : Core) : (s.setCore c k).turns = s.turns := rfl
@[simp] theorem State.setCore_keys (c : Nat) (k : Core) : (s.setCore c k).keys = s.keys := rfl
@[simp] theorem State.setCore_stateful (c : Nat) (k : Core) : (s.setCore c k).stateful = s.stateful := rfl
@[simp] theorem State.setCore_rng (c : Nat) (k : Core) : (s.setCore c k).rng = s.rng := rfl
@[simp] theorem State.setCore_events (c : Nat) (k : Core) : (s.setCore c k).events = s.events := rfl
@[simp] theorem State.setCore_log (c : Nat) (k : Core) : (s.setCore c k).log = s.log := rfl
@[simp] theorem State.setCore_integ (c : Nat) (k : Core) : (s.setCore c k).integ = s.integ := rfl
@[simp] theorem State.setCore_start (c : Nat) (k : Core) : (s.setCore c k).start = s.start := rfl
@[simp] theorem State.setCore_lcs (c : Nat) (k : Core) : (s.setCore c k).lcs = s.lcs := rfl
@[simp] theorem State.setCore_bus (c : Nat) (k : Core) : (s.setCore c k).bus = s.bus := rfl
@[simp] theorem State.setCore_window (c : Nat) (k : Core) : (s.setCore c k).window = s.window := rfl
@[simp] theorem State.setCore_host (c : Nat) (k : Core) : (s.setCore c k).host = s.host := rfl
@[simp] theorem State.setCore_hbm (c : Nat) (k : Core) : (s.setCore c k).hbm = s.hbm := rfl
@[simp] theorem State.setCore_emram (c : Nat) (k : Core) : (s.setCore c k).emram = s.emram := rfl

/-! ## onCore -/

@[simp] theorem State.onCore_pending (c : Nat) (f : Core → Core) : (s.onCore c f).pending = s.pending := rfl
@[simp] theorem State.onCore_now (c : Nat) (f : Core → Core) : (s.onCore c f).now = s.now := rfl
@[simp] theorem State.onCore_free (c : Nat) (f : Core → Core) : (s.onCore c f).free = s.free := rfl
@[simp] theorem State.onCore_datum (c : Nat) (f : Core → Core) : (s.onCore c f).datum = s.datum := rfl
@[simp] theorem State.onCore_units (c : Nat) (f : Core → Core) : (s.onCore c f).units = s.units := rfl
@[simp] theorem State.onCore_engines (c : Nat) (f : Core → Core) : (s.onCore c f).engines = s.engines := rfl
@[simp] theorem State.onCore_queues (c : Nat) (f : Core → Core) : (s.onCore c f).queues = s.queues := rfl
@[simp] theorem State.onCore_enq0 (c : Nat) (f : Core → Core) : (s.onCore c f).enq0 = s.enq0 := rfl
@[simp] theorem State.onCore_slices (c : Nat) (f : Core → Core) : (s.onCore c f).slices = s.slices := rfl
@[simp] theorem State.onCore_ctxs (c : Nat) (f : Core → Core) : (s.onCore c f).ctxs = s.ctxs := rfl
@[simp] theorem State.onCore_collectors (c : Nat) (f : Core → Core) : (s.onCore c f).collectors = s.collectors := rfl
@[simp] theorem State.onCore_writerNext (c : Nat) (f : Core → Core) : (s.onCore c f).writerNext = s.writerNext := rfl
@[simp] theorem State.onCore_turns (c : Nat) (f : Core → Core) : (s.onCore c f).turns = s.turns := rfl
@[simp] theorem State.onCore_keys (c : Nat) (f : Core → Core) : (s.onCore c f).keys = s.keys := rfl
@[simp] theorem State.onCore_stateful (c : Nat) (f : Core → Core) : (s.onCore c f).stateful = s.stateful := rfl
@[simp] theorem State.onCore_rng (c : Nat) (f : Core → Core) : (s.onCore c f).rng = s.rng := rfl
@[simp] theorem State.onCore_events (c : Nat) (f : Core → Core) : (s.onCore c f).events = s.events := rfl
@[simp] theorem State.onCore_log (c : Nat) (f : Core → Core) : (s.onCore c f).log = s.log := rfl
@[simp] theorem State.onCore_integ (c : Nat) (f : Core → Core) : (s.onCore c f).integ = s.integ := rfl
@[simp] theorem State.onCore_start (c : Nat) (f : Core → Core) : (s.onCore c f).start = s.start := rfl
@[simp] theorem State.onCore_lcs (c : Nat) (f : Core → Core) : (s.onCore c f).lcs = s.lcs := rfl
@[simp] theorem State.onCore_bus (c : Nat) (f : Core → Core) : (s.onCore c f).bus = s.bus := rfl
@[simp] theorem State.onCore_window (c : Nat) (f : Core → Core) : (s.onCore c f).window = s.window := rfl
@[simp] theorem State.onCore_host (c : Nat) (f : Core → Core) : (s.onCore c f).host = s.host := rfl
@[simp] theorem State.onCore_hbm (c : Nat) (f : Core → Core) : (s.onCore c f).hbm = s.hbm := rfl
@[simp] theorem State.onCore_emram (c : Nat) (f : Core → Core) : (s.onCore c f).emram = s.emram := rfl

/-! ## setUnit -/

@[simp] theorem State.setUnit_pending (u : Nat) (f : UnitSt → UnitSt) : (s.setUnit u f).pending = s.pending := rfl
@[simp] theorem State.setUnit_now (u : Nat) (f : UnitSt → UnitSt) : (s.setUnit u f).now = s.now := rfl
@[simp] theorem State.setUnit_free (u : Nat) (f : UnitSt → UnitSt) : (s.setUnit u f).free = s.free := rfl
@[simp] theorem State.setUnit_datum (u : Nat) (f : UnitSt → UnitSt) : (s.setUnit u f).datum = s.datum := rfl
@[simp] theorem State.setUnit_engines (u : Nat) (f : UnitSt → UnitSt) : (s.setUnit u f).engines = s.engines := rfl
@[simp] theorem State.setUnit_queues (u : Nat) (f : UnitSt → UnitSt) : (s.setUnit u f).queues = s.queues := rfl
@[simp] theorem State.setUnit_enq0 (u : Nat) (f : UnitSt → UnitSt) : (s.setUnit u f).enq0 = s.enq0 := rfl
@[simp] theorem State.setUnit_slices (u : Nat) (f : UnitSt → UnitSt) : (s.setUnit u f).slices = s.slices := rfl
@[simp] theorem State.setUnit_ctxs (u : Nat) (f : UnitSt → UnitSt) : (s.setUnit u f).ctxs = s.ctxs := rfl
@[simp] theorem State.setUnit_collectors (u : Nat) (f : UnitSt → UnitSt) : (s.setUnit u f).collectors = s.collectors := rfl
@[simp] theorem State.setUnit_writerNext (u : Nat) (f : UnitSt → UnitSt) : (s.setUnit u f).writerNext = s.writerNext := rfl
@[simp] theorem State.setUnit_turns (u : Nat) (f : UnitSt → UnitSt) : (s.setUnit u f).turns = s.turns := rfl
@[simp] theorem State.setUnit_keys (u : Nat) (f : UnitSt → UnitSt) : (s.setUnit u f).keys = s.keys := rfl
@[simp] theorem State.setUnit_stateful (u : Nat) (f : UnitSt → UnitSt) : (s.setUnit u f).stateful = s.stateful := rfl
@[simp] theorem State.setUnit_rng (u : Nat) (f : UnitSt → UnitSt) : (s.setUnit u f).rng = s.rng := rfl
@[simp] theorem State.setUnit_events (u : Nat) (f : UnitSt → UnitSt) : (s.setUnit u f).events = s.events := rfl
@[simp] theorem State.setUnit_log (u : Nat) (f : UnitSt → UnitSt) : (s.setUnit u f).log = s.log := rfl
@[simp] theorem State.setUnit_integ (u : Nat) (f : UnitSt → UnitSt) : (s.setUnit u f).integ = s.integ := rfl
@[simp] theorem State.setUnit_start (u : Nat) (f : UnitSt → UnitSt) : (s.setUnit u f).start = s.start := rfl
@[simp] theorem State.setUnit_lcs (u : Nat) (f : UnitSt → UnitSt) : (s.setUnit u f).lcs = s.lcs := rfl
@[simp] theorem State.setUnit_bus (u : Nat) (f : UnitSt → UnitSt) : (s.setUnit u f).bus = s.bus := rfl
@[simp] theorem State.setUnit_cores (u : Nat) (f : UnitSt → UnitSt) : (s.setUnit u f).cores = s.cores := rfl
@[simp] theorem State.setUnit_window (u : Nat) (f : UnitSt → UnitSt) : (s.setUnit u f).window = s.window := rfl
@[simp] theorem State.setUnit_host (u : Nat) (f : UnitSt → UnitSt) : (s.setUnit u f).host = s.host := rfl
@[simp] theorem State.setUnit_hbm (u : Nat) (f : UnitSt → UnitSt) : (s.setUnit u f).hbm = s.hbm := rfl
@[simp] theorem State.setUnit_emram (u : Nat) (f : UnitSt → UnitSt) : (s.setUnit u f).emram = s.emram := rfl

/-! ## setCtx -/

@[simp] theorem State.setCtx_pending (i : Nat) (f : Ctx → Ctx) : (s.setCtx i f).pending = s.pending := rfl
@[simp] theorem State.setCtx_now (i : Nat) (f : Ctx → Ctx) : (s.setCtx i f).now = s.now := rfl
@[simp] theorem State.setCtx_free (i : Nat) (f : Ctx → Ctx) : (s.setCtx i f).free = s.free := rfl
@[simp] theorem State.setCtx_datum (i : Nat) (f : Ctx → Ctx) : (s.setCtx i f).datum = s.datum := rfl
@[simp] theorem State.setCtx_units (i : Nat) (f : Ctx → Ctx) : (s.setCtx i f).units = s.units := rfl
@[simp] theorem State.setCtx_engines (i : Nat) (f : Ctx → Ctx) : (s.setCtx i f).engines = s.engines := rfl
@[simp] theorem State.setCtx_queues (i : Nat) (f : Ctx → Ctx) : (s.setCtx i f).queues = s.queues := rfl
@[simp] theorem State.setCtx_enq0 (i : Nat) (f : Ctx → Ctx) : (s.setCtx i f).enq0 = s.enq0 := rfl
@[simp] theorem State.setCtx_slices (i : Nat) (f : Ctx → Ctx) : (s.setCtx i f).slices = s.slices := rfl
@[simp] theorem State.setCtx_collectors (i : Nat) (f : Ctx → Ctx) : (s.setCtx i f).collectors = s.collectors := rfl
@[simp] theorem State.setCtx_writerNext (i : Nat) (f : Ctx → Ctx) : (s.setCtx i f).writerNext = s.writerNext := rfl
@[simp] theorem State.setCtx_turns (i : Nat) (f : Ctx → Ctx) : (s.setCtx i f).turns = s.turns := rfl
@[simp] theorem State.setCtx_keys (i : Nat) (f : Ctx → Ctx) : (s.setCtx i f).keys = s.keys := rfl
@[simp] theorem State.setCtx_stateful (i : Nat) (f : Ctx → Ctx) : (s.setCtx i f).stateful = s.stateful := rfl
@[simp] theorem State.setCtx_rng (i : Nat) (f : Ctx → Ctx) : (s.setCtx i f).rng = s.rng := rfl
@[simp] theorem State.setCtx_events (i : Nat) (f : Ctx → Ctx) : (s.setCtx i f).events = s.events := rfl
@[simp] theorem State.setCtx_log (i : Nat) (f : Ctx → Ctx) : (s.setCtx i f).log = s.log := rfl
@[simp] theorem State.setCtx_integ (i : Nat) (f : Ctx → Ctx) : (s.setCtx i f).integ = s.integ := rfl
@[simp] theorem State.setCtx_start (i : Nat) (f : Ctx → Ctx) : (s.setCtx i f).start = s.start := rfl
@[simp] theorem State.setCtx_lcs (i : Nat) (f : Ctx → Ctx) : (s.setCtx i f).lcs = s.lcs := rfl
@[simp] theorem State.setCtx_bus (i : Nat) (f : Ctx → Ctx) : (s.setCtx i f).bus = s.bus := rfl
@[simp] theorem State.setCtx_cores (i : Nat) (f : Ctx → Ctx) : (s.setCtx i f).cores = s.cores := rfl
@[simp] theorem State.setCtx_window (i : Nat) (f : Ctx → Ctx) : (s.setCtx i f).window = s.window := rfl
@[simp] theorem State.setCtx_host (i : Nat) (f : Ctx → Ctx) : (s.setCtx i f).host = s.host := rfl
@[simp] theorem State.setCtx_hbm (i : Nat) (f : Ctx → Ctx) : (s.setCtx i f).hbm = s.hbm := rfl
@[simp] theorem State.setCtx_emram (i : Nat) (f : Ctx → Ctx) : (s.setCtx i f).emram = s.emram := rfl

/-! ## setQueue -/

@[simp] theorem State.setQueue_pending (q : Nat) (f : Queue → Queue) : (s.setQueue q f).pending = s.pending := rfl
@[simp] theorem State.setQueue_now (q : Nat) (f : Queue → Queue) : (s.setQueue q f).now = s.now := rfl
@[simp] theorem State.setQueue_free (q : Nat) (f : Queue → Queue) : (s.setQueue q f).free = s.free := rfl
@[simp] theorem State.setQueue_datum (q : Nat) (f : Queue → Queue) : (s.setQueue q f).datum = s.datum := rfl
@[simp] theorem State.setQueue_units (q : Nat) (f : Queue → Queue) : (s.setQueue q f).units = s.units := rfl
@[simp] theorem State.setQueue_engines (q : Nat) (f : Queue → Queue) : (s.setQueue q f).engines = s.engines := rfl
@[simp] theorem State.setQueue_enq0 (q : Nat) (f : Queue → Queue) : (s.setQueue q f).enq0 = s.enq0 := rfl
@[simp] theorem State.setQueue_slices (q : Nat) (f : Queue → Queue) : (s.setQueue q f).slices = s.slices := rfl
@[simp] theorem State.setQueue_ctxs (q : Nat) (f : Queue → Queue) : (s.setQueue q f).ctxs = s.ctxs := rfl
@[simp] theorem State.setQueue_collectors (q : Nat) (f : Queue → Queue) : (s.setQueue q f).collectors = s.collectors := rfl
@[simp] theorem State.setQueue_writerNext (q : Nat) (f : Queue → Queue) : (s.setQueue q f).writerNext = s.writerNext := rfl
@[simp] theorem State.setQueue_turns (q : Nat) (f : Queue → Queue) : (s.setQueue q f).turns = s.turns := rfl
@[simp] theorem State.setQueue_keys (q : Nat) (f : Queue → Queue) : (s.setQueue q f).keys = s.keys := rfl
@[simp] theorem State.setQueue_stateful (q : Nat) (f : Queue → Queue) : (s.setQueue q f).stateful = s.stateful := rfl
@[simp] theorem State.setQueue_rng (q : Nat) (f : Queue → Queue) : (s.setQueue q f).rng = s.rng := rfl
@[simp] theorem State.setQueue_events (q : Nat) (f : Queue → Queue) : (s.setQueue q f).events = s.events := rfl
@[simp] theorem State.setQueue_log (q : Nat) (f : Queue → Queue) : (s.setQueue q f).log = s.log := rfl
@[simp] theorem State.setQueue_integ (q : Nat) (f : Queue → Queue) : (s.setQueue q f).integ = s.integ := rfl
@[simp] theorem State.setQueue_start (q : Nat) (f : Queue → Queue) : (s.setQueue q f).start = s.start := rfl
@[simp] theorem State.setQueue_lcs (q : Nat) (f : Queue → Queue) : (s.setQueue q f).lcs = s.lcs := rfl
@[simp] theorem State.setQueue_bus (q : Nat) (f : Queue → Queue) : (s.setQueue q f).bus = s.bus := rfl
@[simp] theorem State.setQueue_cores (q : Nat) (f : Queue → Queue) : (s.setQueue q f).cores = s.cores := rfl
@[simp] theorem State.setQueue_window (q : Nat) (f : Queue → Queue) : (s.setQueue q f).window = s.window := rfl
@[simp] theorem State.setQueue_host (q : Nat) (f : Queue → Queue) : (s.setQueue q f).host = s.host := rfl
@[simp] theorem State.setQueue_hbm (q : Nat) (f : Queue → Queue) : (s.setQueue q f).hbm = s.hbm := rfl
@[simp] theorem State.setQueue_emram (q : Nat) (f : Queue → Queue) : (s.setQueue q f).emram = s.emram := rfl

/-! ## setSlice -/

@[simp] theorem State.setSlice_pending (n : Nat) (f : Slice → Slice) : (s.setSlice n f).pending = s.pending := rfl
@[simp] theorem State.setSlice_now (n : Nat) (f : Slice → Slice) : (s.setSlice n f).now = s.now := rfl
@[simp] theorem State.setSlice_free (n : Nat) (f : Slice → Slice) : (s.setSlice n f).free = s.free := rfl
@[simp] theorem State.setSlice_datum (n : Nat) (f : Slice → Slice) : (s.setSlice n f).datum = s.datum := rfl
@[simp] theorem State.setSlice_units (n : Nat) (f : Slice → Slice) : (s.setSlice n f).units = s.units := rfl
@[simp] theorem State.setSlice_engines (n : Nat) (f : Slice → Slice) : (s.setSlice n f).engines = s.engines := rfl
@[simp] theorem State.setSlice_queues (n : Nat) (f : Slice → Slice) : (s.setSlice n f).queues = s.queues := rfl
@[simp] theorem State.setSlice_enq0 (n : Nat) (f : Slice → Slice) : (s.setSlice n f).enq0 = s.enq0 := rfl
@[simp] theorem State.setSlice_ctxs (n : Nat) (f : Slice → Slice) : (s.setSlice n f).ctxs = s.ctxs := rfl
@[simp] theorem State.setSlice_collectors (n : Nat) (f : Slice → Slice) : (s.setSlice n f).collectors = s.collectors := rfl
@[simp] theorem State.setSlice_writerNext (n : Nat) (f : Slice → Slice) : (s.setSlice n f).writerNext = s.writerNext := rfl
@[simp] theorem State.setSlice_turns (n : Nat) (f : Slice → Slice) : (s.setSlice n f).turns = s.turns := rfl
@[simp] theorem State.setSlice_keys (n : Nat) (f : Slice → Slice) : (s.setSlice n f).keys = s.keys := rfl
@[simp] theorem State.setSlice_stateful (n : Nat) (f : Slice → Slice) : (s.setSlice n f).stateful = s.stateful := rfl
@[simp] theorem State.setSlice_rng (n : Nat) (f : Slice → Slice) : (s.setSlice n f).rng = s.rng := rfl
@[simp] theorem State.setSlice_events (n : Nat) (f : Slice → Slice) : (s.setSlice n f).events = s.events := rfl
@[simp] theorem State.setSlice_log (n : Nat) (f : Slice → Slice) : (s.setSlice n f).log = s.log := rfl
@[simp] theorem State.setSlice_integ (n : Nat) (f : Slice → Slice) : (s.setSlice n f).integ = s.integ := rfl
@[simp] theorem State.setSlice_start (n : Nat) (f : Slice → Slice) : (s.setSlice n f).start = s.start := rfl
@[simp] theorem State.setSlice_lcs (n : Nat) (f : Slice → Slice) : (s.setSlice n f).lcs = s.lcs := rfl
@[simp] theorem State.setSlice_bus (n : Nat) (f : Slice → Slice) : (s.setSlice n f).bus = s.bus := rfl
@[simp] theorem State.setSlice_cores (n : Nat) (f : Slice → Slice) : (s.setSlice n f).cores = s.cores := rfl
@[simp] theorem State.setSlice_window (n : Nat) (f : Slice → Slice) : (s.setSlice n f).window = s.window := rfl
@[simp] theorem State.setSlice_host (n : Nat) (f : Slice → Slice) : (s.setSlice n f).host = s.host := rfl
@[simp] theorem State.setSlice_hbm (n : Nat) (f : Slice → Slice) : (s.setSlice n f).hbm = s.hbm := rfl
@[simp] theorem State.setSlice_emram (n : Nat) (f : Slice → Slice) : (s.setSlice n f).emram = s.emram := rfl

/-! ## setRoute -/

@[simp] theorem State.setRoute_pending (c : Nat) (f : IntRoute → IntRoute) : (s.setRoute c f).pending = s.pending := rfl
@[simp] theorem State.setRoute_now (c : Nat) (f : IntRoute → IntRoute) : (s.setRoute c f).now = s.now := rfl
@[simp] theorem State.setRoute_free (c : Nat) (f : IntRoute → IntRoute) : (s.setRoute c f).free = s.free := rfl
@[simp] theorem State.setRoute_datum (c : Nat) (f : IntRoute → IntRoute) : (s.setRoute c f).datum = s.datum := rfl
@[simp] theorem State.setRoute_units (c : Nat) (f : IntRoute → IntRoute) : (s.setRoute c f).units = s.units := rfl
@[simp] theorem State.setRoute_engines (c : Nat) (f : IntRoute → IntRoute) : (s.setRoute c f).engines = s.engines := rfl
@[simp] theorem State.setRoute_queues (c : Nat) (f : IntRoute → IntRoute) : (s.setRoute c f).queues = s.queues := rfl
@[simp] theorem State.setRoute_enq0 (c : Nat) (f : IntRoute → IntRoute) : (s.setRoute c f).enq0 = s.enq0 := rfl
@[simp] theorem State.setRoute_slices (c : Nat) (f : IntRoute → IntRoute) : (s.setRoute c f).slices = s.slices := rfl
@[simp] theorem State.setRoute_ctxs (c : Nat) (f : IntRoute → IntRoute) : (s.setRoute c f).ctxs = s.ctxs := rfl
@[simp] theorem State.setRoute_collectors (c : Nat) (f : IntRoute → IntRoute) : (s.setRoute c f).collectors = s.collectors := rfl
@[simp] theorem State.setRoute_writerNext (c : Nat) (f : IntRoute → IntRoute) : (s.setRoute c f).writerNext = s.writerNext := rfl
@[simp] theorem State.setRoute_turns (c : Nat) (f : IntRoute → IntRoute) : (s.setRoute c f).turns = s.turns := rfl
@[simp] theorem State.setRoute_keys (c : Nat) (f : IntRoute → IntRoute) : (s.setRoute c f).keys = s.keys := rfl
@[simp] theorem State.setRoute_stateful (c : Nat) (f : IntRoute → IntRoute) : (s.setRoute c f).stateful = s.stateful := rfl
@[simp] theorem State.setRoute_rng (c : Nat) (f : IntRoute → IntRoute) : (s.setRoute c f).rng = s.rng := rfl
@[simp] theorem State.setRoute_log (c : Nat) (f : IntRoute → IntRoute) : (s.setRoute c f).log = s.log := rfl
@[simp] theorem State.setRoute_integ (c : Nat) (f : IntRoute → IntRoute) : (s.setRoute c f).integ = s.integ := rfl
@[simp] theorem State.setRoute_start (c : Nat) (f : IntRoute → IntRoute) : (s.setRoute c f).start = s.start := rfl
@[simp] theorem State.setRoute_lcs (c : Nat) (f : IntRoute → IntRoute) : (s.setRoute c f).lcs = s.lcs := rfl
@[simp] theorem State.setRoute_bus (c : Nat) (f : IntRoute → IntRoute) : (s.setRoute c f).bus = s.bus := rfl
@[simp] theorem State.setRoute_cores (c : Nat) (f : IntRoute → IntRoute) : (s.setRoute c f).cores = s.cores := rfl
@[simp] theorem State.setRoute_window (c : Nat) (f : IntRoute → IntRoute) : (s.setRoute c f).window = s.window := rfl
@[simp] theorem State.setRoute_host (c : Nat) (f : IntRoute → IntRoute) : (s.setRoute c f).host = s.host := rfl
@[simp] theorem State.setRoute_hbm (c : Nat) (f : IntRoute → IntRoute) : (s.setRoute c f).hbm = s.hbm := rfl
@[simp] theorem State.setRoute_emram (c : Nat) (f : IntRoute → IntRoute) : (s.setRoute c f).emram = s.emram := rfl

/-! ## setRng -/

@[simp] theorem State.setRng_pending (f : Rng → Rng) : (s.setRng f).pending = s.pending := rfl
@[simp] theorem State.setRng_now (f : Rng → Rng) : (s.setRng f).now = s.now := rfl
@[simp] theorem State.setRng_free (f : Rng → Rng) : (s.setRng f).free = s.free := rfl
@[simp] theorem State.setRng_datum (f : Rng → Rng) : (s.setRng f).datum = s.datum := rfl
@[simp] theorem State.setRng_units (f : Rng → Rng) : (s.setRng f).units = s.units := rfl
@[simp] theorem State.setRng_engines (f : Rng → Rng) : (s.setRng f).engines = s.engines := rfl
@[simp] theorem State.setRng_queues (f : Rng → Rng) : (s.setRng f).queues = s.queues := rfl
@[simp] theorem State.setRng_enq0 (f : Rng → Rng) : (s.setRng f).enq0 = s.enq0 := rfl
@[simp] theorem State.setRng_slices (f : Rng → Rng) : (s.setRng f).slices = s.slices := rfl
@[simp] theorem State.setRng_ctxs (f : Rng → Rng) : (s.setRng f).ctxs = s.ctxs := rfl
@[simp] theorem State.setRng_collectors (f : Rng → Rng) : (s.setRng f).collectors = s.collectors := rfl
@[simp] theorem State.setRng_writerNext (f : Rng → Rng) : (s.setRng f).writerNext = s.writerNext := rfl
@[simp] theorem State.setRng_turns (f : Rng → Rng) : (s.setRng f).turns = s.turns := rfl
@[simp] theorem State.setRng_keys (f : Rng → Rng) : (s.setRng f).keys = s.keys := rfl
@[simp] theorem State.setRng_stateful (f : Rng → Rng) : (s.setRng f).stateful = s.stateful := rfl
@[simp] theorem State.setRng_events (f : Rng → Rng) : (s.setRng f).events = s.events := rfl
@[simp] theorem State.setRng_log (f : Rng → Rng) : (s.setRng f).log = s.log := rfl
@[simp] theorem State.setRng_integ (f : Rng → Rng) : (s.setRng f).integ = s.integ := rfl
@[simp] theorem State.setRng_start (f : Rng → Rng) : (s.setRng f).start = s.start := rfl
@[simp] theorem State.setRng_lcs (f : Rng → Rng) : (s.setRng f).lcs = s.lcs := rfl
@[simp] theorem State.setRng_bus (f : Rng → Rng) : (s.setRng f).bus = s.bus := rfl
@[simp] theorem State.setRng_cores (f : Rng → Rng) : (s.setRng f).cores = s.cores := rfl
@[simp] theorem State.setRng_window (f : Rng → Rng) : (s.setRng f).window = s.window := rfl
@[simp] theorem State.setRng_host (f : Rng → Rng) : (s.setRng f).host = s.host := rfl
@[simp] theorem State.setRng_hbm (f : Rng → Rng) : (s.setRng f).hbm = s.hbm := rfl
@[simp] theorem State.setRng_emram (f : Rng → Rng) : (s.setRng f).emram = s.emram := rfl

/-! ## setSpdm -/

@[simp] theorem State.setSpdm_pending (f : Spdm → Spdm) : (s.setSpdm f).pending = s.pending := rfl
@[simp] theorem State.setSpdm_now (f : Spdm → Spdm) : (s.setSpdm f).now = s.now := rfl
@[simp] theorem State.setSpdm_free (f : Spdm → Spdm) : (s.setSpdm f).free = s.free := rfl
@[simp] theorem State.setSpdm_datum (f : Spdm → Spdm) : (s.setSpdm f).datum = s.datum := rfl
@[simp] theorem State.setSpdm_units (f : Spdm → Spdm) : (s.setSpdm f).units = s.units := rfl
@[simp] theorem State.setSpdm_engines (f : Spdm → Spdm) : (s.setSpdm f).engines = s.engines := rfl
@[simp] theorem State.setSpdm_queues (f : Spdm → Spdm) : (s.setSpdm f).queues = s.queues := rfl
@[simp] theorem State.setSpdm_enq0 (f : Spdm → Spdm) : (s.setSpdm f).enq0 = s.enq0 := rfl
@[simp] theorem State.setSpdm_slices (f : Spdm → Spdm) : (s.setSpdm f).slices = s.slices := rfl
@[simp] theorem State.setSpdm_ctxs (f : Spdm → Spdm) : (s.setSpdm f).ctxs = s.ctxs := rfl
@[simp] theorem State.setSpdm_collectors (f : Spdm → Spdm) : (s.setSpdm f).collectors = s.collectors := rfl
@[simp] theorem State.setSpdm_writerNext (f : Spdm → Spdm) : (s.setSpdm f).writerNext = s.writerNext := rfl
@[simp] theorem State.setSpdm_turns (f : Spdm → Spdm) : (s.setSpdm f).turns = s.turns := rfl
@[simp] theorem State.setSpdm_keys (f : Spdm → Spdm) : (s.setSpdm f).keys = s.keys := rfl
@[simp] theorem State.setSpdm_stateful (f : Spdm → Spdm) : (s.setSpdm f).stateful = s.stateful := rfl
@[simp] theorem State.setSpdm_rng (f : Spdm → Spdm) : (s.setSpdm f).rng = s.rng := rfl
@[simp] theorem State.setSpdm_events (f : Spdm → Spdm) : (s.setSpdm f).events = s.events := rfl
@[simp] theorem State.setSpdm_log (f : Spdm → Spdm) : (s.setSpdm f).log = s.log := rfl
@[simp] theorem State.setSpdm_integ (f : Spdm → Spdm) : (s.setSpdm f).integ = s.integ := rfl
@[simp] theorem State.setSpdm_start (f : Spdm → Spdm) : (s.setSpdm f).start = s.start := rfl
@[simp] theorem State.setSpdm_lcs (f : Spdm → Spdm) : (s.setSpdm f).lcs = s.lcs := rfl
@[simp] theorem State.setSpdm_cores (f : Spdm → Spdm) : (s.setSpdm f).cores = s.cores := rfl
@[simp] theorem State.setSpdm_window (f : Spdm → Spdm) : (s.setSpdm f).window = s.window := rfl
@[simp] theorem State.setSpdm_host (f : Spdm → Spdm) : (s.setSpdm f).host = s.host := rfl
@[simp] theorem State.setSpdm_hbm (f : Spdm → Spdm) : (s.setSpdm f).hbm = s.hbm := rfl
@[simp] theorem State.setSpdm_emram (f : Spdm → Spdm) : (s.setSpdm f).emram = s.emram := rfl

/-! ## setLane -/

@[simp] theorem State.setLane_pending (u l : Nat) (f : Lane → Lane) : (s.setLane u l f).pending = s.pending := rfl
@[simp] theorem State.setLane_now (u l : Nat) (f : Lane → Lane) : (s.setLane u l f).now = s.now := rfl
@[simp] theorem State.setLane_free (u l : Nat) (f : Lane → Lane) : (s.setLane u l f).free = s.free := rfl
@[simp] theorem State.setLane_datum (u l : Nat) (f : Lane → Lane) : (s.setLane u l f).datum = s.datum := rfl
@[simp] theorem State.setLane_engines (u l : Nat) (f : Lane → Lane) : (s.setLane u l f).engines = s.engines := rfl
@[simp] theorem State.setLane_queues (u l : Nat) (f : Lane → Lane) : (s.setLane u l f).queues = s.queues := rfl
@[simp] theorem State.setLane_enq0 (u l : Nat) (f : Lane → Lane) : (s.setLane u l f).enq0 = s.enq0 := rfl
@[simp] theorem State.setLane_slices (u l : Nat) (f : Lane → Lane) : (s.setLane u l f).slices = s.slices := rfl
@[simp] theorem State.setLane_ctxs (u l : Nat) (f : Lane → Lane) : (s.setLane u l f).ctxs = s.ctxs := rfl
@[simp] theorem State.setLane_collectors (u l : Nat) (f : Lane → Lane) : (s.setLane u l f).collectors = s.collectors := rfl
@[simp] theorem State.setLane_writerNext (u l : Nat) (f : Lane → Lane) : (s.setLane u l f).writerNext = s.writerNext := rfl
@[simp] theorem State.setLane_turns (u l : Nat) (f : Lane → Lane) : (s.setLane u l f).turns = s.turns := rfl
@[simp] theorem State.setLane_keys (u l : Nat) (f : Lane → Lane) : (s.setLane u l f).keys = s.keys := rfl
@[simp] theorem State.setLane_stateful (u l : Nat) (f : Lane → Lane) : (s.setLane u l f).stateful = s.stateful := rfl
@[simp] theorem State.setLane_rng (u l : Nat) (f : Lane → Lane) : (s.setLane u l f).rng = s.rng := rfl
@[simp] theorem State.setLane_events (u l : Nat) (f : Lane → Lane) : (s.setLane u l f).events = s.events := rfl
@[simp] theorem State.setLane_log (u l : Nat) (f : Lane → Lane) : (s.setLane u l f).log = s.log := rfl
@[simp] theorem State.setLane_integ (u l : Nat) (f : Lane → Lane) : (s.setLane u l f).integ = s.integ := rfl
@[simp] theorem State.setLane_start (u l : Nat) (f : Lane → Lane) : (s.setLane u l f).start = s.start := rfl
@[simp] theorem State.setLane_lcs (u l : Nat) (f : Lane → Lane) : (s.setLane u l f).lcs = s.lcs := rfl
@[simp] theorem State.setLane_bus (u l : Nat) (f : Lane → Lane) : (s.setLane u l f).bus = s.bus := rfl
@[simp] theorem State.setLane_cores (u l : Nat) (f : Lane → Lane) : (s.setLane u l f).cores = s.cores := rfl
@[simp] theorem State.setLane_window (u l : Nat) (f : Lane → Lane) : (s.setLane u l f).window = s.window := rfl
@[simp] theorem State.setLane_host (u l : Nat) (f : Lane → Lane) : (s.setLane u l f).host = s.host := rfl
@[simp] theorem State.setLane_hbm (u l : Nat) (f : Lane → Lane) : (s.setLane u l f).hbm = s.hbm := rfl
@[simp] theorem State.setLane_emram (u l : Nat) (f : Lane → Lane) : (s.setLane u l f).emram = s.emram := rfl

/-! ## setStream -/

@[simp] theorem State.setStream_pending (q id : Nat) (f : Stream → Stream) : (s.setStream q id f).pending = s.pending := rfl
@[simp] theorem State.setStream_now (q id : Nat) (f : Stream → Stream) : (s.setStream q id f).now = s.now := rfl
@[simp] theorem State.setStream_free (q id : Nat) (f : Stream → Stream) : (s.setStream q id f).free = s.free := rfl
@[simp] theorem State.setStream_datum (q id : Nat) (f : Stream → Stream) : (s.setStream q id f).datum = s.datum := rfl
@[simp] theorem State.setStream_units (q id : Nat) (f : Stream → Stream) : (s.setStream q id f).units = s.units := rfl
@[simp] theorem State.setStream_engines (q id : Nat) (f : Stream → Stream) : (s.setStream q id f).engines = s.engines := rfl
@[simp] theorem State.setStream_enq0 (q id : Nat) (f : Stream → Stream) : (s.setStream q id f).enq0 = s.enq0 := rfl
@[simp] theorem State.setStream_slices (q id : Nat) (f : Stream → Stream) : (s.setStream q id f).slices = s.slices := rfl
@[simp] theorem State.setStream_ctxs (q id : Nat) (f : Stream → Stream) : (s.setStream q id f).ctxs = s.ctxs := rfl
@[simp] theorem State.setStream_collectors (q id : Nat) (f : Stream → Stream) : (s.setStream q id f).collectors = s.collectors := rfl
@[simp] theorem State.setStream_writerNext (q id : Nat) (f : Stream → Stream) : (s.setStream q id f).writerNext = s.writerNext := rfl
@[simp] theorem State.setStream_turns (q id : Nat) (f : Stream → Stream) : (s.setStream q id f).turns = s.turns := rfl
@[simp] theorem State.setStream_keys (q id : Nat) (f : Stream → Stream) : (s.setStream q id f).keys = s.keys := rfl
@[simp] theorem State.setStream_stateful (q id : Nat) (f : Stream → Stream) : (s.setStream q id f).stateful = s.stateful := rfl
@[simp] theorem State.setStream_rng (q id : Nat) (f : Stream → Stream) : (s.setStream q id f).rng = s.rng := rfl
@[simp] theorem State.setStream_events (q id : Nat) (f : Stream → Stream) : (s.setStream q id f).events = s.events := rfl
@[simp] theorem State.setStream_log (q id : Nat) (f : Stream → Stream) : (s.setStream q id f).log = s.log := rfl
@[simp] theorem State.setStream_integ (q id : Nat) (f : Stream → Stream) : (s.setStream q id f).integ = s.integ := rfl
@[simp] theorem State.setStream_start (q id : Nat) (f : Stream → Stream) : (s.setStream q id f).start = s.start := rfl
@[simp] theorem State.setStream_lcs (q id : Nat) (f : Stream → Stream) : (s.setStream q id f).lcs = s.lcs := rfl
@[simp] theorem State.setStream_bus (q id : Nat) (f : Stream → Stream) : (s.setStream q id f).bus = s.bus := rfl
@[simp] theorem State.setStream_cores (q id : Nat) (f : Stream → Stream) : (s.setStream q id f).cores = s.cores := rfl
@[simp] theorem State.setStream_window (q id : Nat) (f : Stream → Stream) : (s.setStream q id f).window = s.window := rfl
@[simp] theorem State.setStream_host (q id : Nat) (f : Stream → Stream) : (s.setStream q id f).host = s.host := rfl
@[simp] theorem State.setStream_hbm (q id : Nat) (f : Stream → Stream) : (s.setStream q id f).hbm = s.hbm := rfl
@[simp] theorem State.setStream_emram (q id : Nat) (f : Stream → Stream) : (s.setStream q id f).emram = s.emram := rfl

/-! ## setPreps -/

@[simp] theorem State.setPreps_pending (f : List Build → List Build) : (s.setPreps f).pending = s.pending := rfl
@[simp] theorem State.setPreps_now (f : List Build → List Build) : (s.setPreps f).now = s.now := rfl
@[simp] theorem State.setPreps_free (f : List Build → List Build) : (s.setPreps f).free = s.free := rfl
@[simp] theorem State.setPreps_datum (f : List Build → List Build) : (s.setPreps f).datum = s.datum := rfl
@[simp] theorem State.setPreps_units (f : List Build → List Build) : (s.setPreps f).units = s.units := rfl
@[simp] theorem State.setPreps_engines (f : List Build → List Build) : (s.setPreps f).engines = s.engines := rfl
@[simp] theorem State.setPreps_queues (f : List Build → List Build) : (s.setPreps f).queues = s.queues := rfl
@[simp] theorem State.setPreps_enq0 (f : List Build → List Build) : (s.setPreps f).enq0 = s.enq0 := rfl
@[simp] theorem State.setPreps_slices (f : List Build → List Build) : (s.setPreps f).slices = s.slices := rfl
@[simp] theorem State.setPreps_ctxs (f : List Build → List Build) : (s.setPreps f).ctxs = s.ctxs := rfl
@[simp] theorem State.setPreps_collectors (f : List Build → List Build) : (s.setPreps f).collectors = s.collectors := rfl
@[simp] theorem State.setPreps_writerNext (f : List Build → List Build) : (s.setPreps f).writerNext = s.writerNext := rfl
@[simp] theorem State.setPreps_turns (f : List Build → List Build) : (s.setPreps f).turns = s.turns := rfl
@[simp] theorem State.setPreps_stateful (f : List Build → List Build) : (s.setPreps f).stateful = s.stateful := rfl
@[simp] theorem State.setPreps_rng (f : List Build → List Build) : (s.setPreps f).rng = s.rng := rfl
@[simp] theorem State.setPreps_events (f : List Build → List Build) : (s.setPreps f).events = s.events := rfl
@[simp] theorem State.setPreps_log (f : List Build → List Build) : (s.setPreps f).log = s.log := rfl
@[simp] theorem State.setPreps_integ (f : List Build → List Build) : (s.setPreps f).integ = s.integ := rfl
@[simp] theorem State.setPreps_start (f : List Build → List Build) : (s.setPreps f).start = s.start := rfl
@[simp] theorem State.setPreps_lcs (f : List Build → List Build) : (s.setPreps f).lcs = s.lcs := rfl
@[simp] theorem State.setPreps_bus (f : List Build → List Build) : (s.setPreps f).bus = s.bus := rfl
@[simp] theorem State.setPreps_cores (f : List Build → List Build) : (s.setPreps f).cores = s.cores := rfl
@[simp] theorem State.setPreps_window (f : List Build → List Build) : (s.setPreps f).window = s.window := rfl
@[simp] theorem State.setPreps_host (f : List Build → List Build) : (s.setPreps f).host = s.host := rfl
@[simp] theorem State.setPreps_hbm (f : List Build → List Build) : (s.setPreps f).hbm = s.hbm := rfl
@[simp] theorem State.setPreps_emram (f : List Build → List Build) : (s.setPreps f).emram = s.emram := rfl

/-! ## setBuilds -/

@[simp] theorem State.setBuilds_pending (f : List Build → List Build) : (s.setBuilds f).pending = s.pending := rfl
@[simp] theorem State.setBuilds_now (f : List Build → List Build) : (s.setBuilds f).now = s.now := rfl
@[simp] theorem State.setBuilds_free (f : List Build → List Build) : (s.setBuilds f).free = s.free := rfl
@[simp] theorem State.setBuilds_datum (f : List Build → List Build) : (s.setBuilds f).datum = s.datum := rfl
@[simp] theorem State.setBuilds_units (f : List Build → List Build) : (s.setBuilds f).units = s.units := rfl
@[simp] theorem State.setBuilds_engines (f : List Build → List Build) : (s.setBuilds f).engines = s.engines := rfl
@[simp] theorem State.setBuilds_queues (f : List Build → List Build) : (s.setBuilds f).queues = s.queues := rfl
@[simp] theorem State.setBuilds_enq0 (f : List Build → List Build) : (s.setBuilds f).enq0 = s.enq0 := rfl
@[simp] theorem State.setBuilds_slices (f : List Build → List Build) : (s.setBuilds f).slices = s.slices := rfl
@[simp] theorem State.setBuilds_ctxs (f : List Build → List Build) : (s.setBuilds f).ctxs = s.ctxs := rfl
@[simp] theorem State.setBuilds_collectors (f : List Build → List Build) : (s.setBuilds f).collectors = s.collectors := rfl
@[simp] theorem State.setBuilds_writerNext (f : List Build → List Build) : (s.setBuilds f).writerNext = s.writerNext := rfl
@[simp] theorem State.setBuilds_turns (f : List Build → List Build) : (s.setBuilds f).turns = s.turns := rfl
@[simp] theorem State.setBuilds_keys (f : List Build → List Build) : (s.setBuilds f).keys = s.keys := rfl
@[simp] theorem State.setBuilds_rng (f : List Build → List Build) : (s.setBuilds f).rng = s.rng := rfl
@[simp] theorem State.setBuilds_events (f : List Build → List Build) : (s.setBuilds f).events = s.events := rfl
@[simp] theorem State.setBuilds_log (f : List Build → List Build) : (s.setBuilds f).log = s.log := rfl
@[simp] theorem State.setBuilds_integ (f : List Build → List Build) : (s.setBuilds f).integ = s.integ := rfl
@[simp] theorem State.setBuilds_start (f : List Build → List Build) : (s.setBuilds f).start = s.start := rfl
@[simp] theorem State.setBuilds_lcs (f : List Build → List Build) : (s.setBuilds f).lcs = s.lcs := rfl
@[simp] theorem State.setBuilds_bus (f : List Build → List Build) : (s.setBuilds f).bus = s.bus := rfl
@[simp] theorem State.setBuilds_cores (f : List Build → List Build) : (s.setBuilds f).cores = s.cores := rfl
@[simp] theorem State.setBuilds_window (f : List Build → List Build) : (s.setBuilds f).window = s.window := rfl
@[simp] theorem State.setBuilds_host (f : List Build → List Build) : (s.setBuilds f).host = s.host := rfl
@[simp] theorem State.setBuilds_hbm (f : List Build → List Build) : (s.setBuilds f).hbm = s.hbm := rfl
@[simp] theorem State.setBuilds_emram (f : List Build → List Build) : (s.setBuilds f).emram = s.emram := rfl

/-! ## tookTurn -/

@[simp] theorem State.tookTurn_pending (a b r k n : Nat) (l : List (Nat × Nat)) : (s.tookTurn a b r k n l).pending = s.pending := rfl
@[simp] theorem State.tookTurn_now (a b r k n : Nat) (l : List (Nat × Nat)) : (s.tookTurn a b r k n l).now = s.now := rfl
@[simp] theorem State.tookTurn_free (a b r k n : Nat) (l : List (Nat × Nat)) : (s.tookTurn a b r k n l).free = s.free := rfl
@[simp] theorem State.tookTurn_datum (a b r k n : Nat) (l : List (Nat × Nat)) : (s.tookTurn a b r k n l).datum = s.datum := rfl
@[simp] theorem State.tookTurn_units (a b r k n : Nat) (l : List (Nat × Nat)) : (s.tookTurn a b r k n l).units = s.units := rfl
@[simp] theorem State.tookTurn_engines (a b r k n : Nat) (l : List (Nat × Nat)) : (s.tookTurn a b r k n l).engines = s.engines := rfl
@[simp] theorem State.tookTurn_queues (a b r k n : Nat) (l : List (Nat × Nat)) : (s.tookTurn a b r k n l).queues = s.queues := rfl
@[simp] theorem State.tookTurn_enq0 (a b r k n : Nat) (l : List (Nat × Nat)) : (s.tookTurn a b r k n l).enq0 = s.enq0 := rfl
@[simp] theorem State.tookTurn_slices (a b r k n : Nat) (l : List (Nat × Nat)) : (s.tookTurn a b r k n l).slices = s.slices := rfl
@[simp] theorem State.tookTurn_ctxs (a b r k n : Nat) (l : List (Nat × Nat)) : (s.tookTurn a b r k n l).ctxs = s.ctxs := rfl
@[simp] theorem State.tookTurn_collectors (a b r k n : Nat) (l : List (Nat × Nat)) : (s.tookTurn a b r k n l).collectors = s.collectors := rfl
@[simp] theorem State.tookTurn_writerNext (a b r k n : Nat) (l : List (Nat × Nat)) : (s.tookTurn a b r k n l).writerNext = s.writerNext := rfl
@[simp] theorem State.tookTurn_keys (a b r k n : Nat) (l : List (Nat × Nat)) : (s.tookTurn a b r k n l).keys = s.keys := rfl
@[simp] theorem State.tookTurn_stateful (a b r k n : Nat) (l : List (Nat × Nat)) : (s.tookTurn a b r k n l).stateful = s.stateful := rfl
@[simp] theorem State.tookTurn_rng (a b r k n : Nat) (l : List (Nat × Nat)) : (s.tookTurn a b r k n l).rng = s.rng := rfl
@[simp] theorem State.tookTurn_events (a b r k n : Nat) (l : List (Nat × Nat)) : (s.tookTurn a b r k n l).events = s.events := rfl
@[simp] theorem State.tookTurn_log (a b r k n : Nat) (l : List (Nat × Nat)) : (s.tookTurn a b r k n l).log = s.log := rfl
@[simp] theorem State.tookTurn_integ (a b r k n : Nat) (l : List (Nat × Nat)) : (s.tookTurn a b r k n l).integ = s.integ := rfl
@[simp] theorem State.tookTurn_start (a b r k n : Nat) (l : List (Nat × Nat)) : (s.tookTurn a b r k n l).start = s.start := rfl
@[simp] theorem State.tookTurn_lcs (a b r k n : Nat) (l : List (Nat × Nat)) : (s.tookTurn a b r k n l).lcs = s.lcs := rfl
@[simp] theorem State.tookTurn_bus (a b r k n : Nat) (l : List (Nat × Nat)) : (s.tookTurn a b r k n l).bus = s.bus := rfl
@[simp] theorem State.tookTurn_cores (a b r k n : Nat) (l : List (Nat × Nat)) : (s.tookTurn a b r k n l).cores = s.cores := rfl
@[simp] theorem State.tookTurn_window (a b r k n : Nat) (l : List (Nat × Nat)) : (s.tookTurn a b r k n l).window = s.window := rfl
@[simp] theorem State.tookTurn_host (a b r k n : Nat) (l : List (Nat × Nat)) : (s.tookTurn a b r k n l).host = s.host := rfl
@[simp] theorem State.tookTurn_hbm (a b r k n : Nat) (l : List (Nat × Nat)) : (s.tookTurn a b r k n l).hbm = s.hbm := rfl
@[simp] theorem State.tookTurn_emram (a b r k n : Nat) (l : List (Nat × Nat)) : (s.tookTurn a b r k n l).emram = s.emram := rfl

/-! ## Reads after an update -/

@[simp] theorem State.core_setCore (c : Nat) (k : Core) : (s.setCore c k).core c = k := by
  simp [State.setCore, State.core]

theorem State.core_setCore_ne {c d : Nat} (k : Core) (h : d ≠ c) : (s.setCore c k).core d = s.core d := by
  simp [State.setCore, State.core, Tab.getD_putD_ne s.cores k Core.reset h]

@[simp] theorem State.core_onCore (c : Nat) (f : Core → Core) : (s.onCore c f).core c = f (s.core c) := by
  simp [State.onCore]

theorem State.core_onCore_ne {c d : Nat} (f : Core → Core) (h : d ≠ c) : (s.onCore c f).core d = s.core d := by
  simp [State.onCore, State.core_setCore_ne s _ h]

@[simp] theorem State.unitSt_setUnit (u : Nat) (f : UnitSt → UnitSt) : (s.setUnit u f).unitSt u = f (s.unitSt u) := by
  simp [State.setUnit, State.unitSt]

theorem State.unitSt_setUnit_ne {u v : Nat} (f : UnitSt → UnitSt) (h : v ≠ u) : (s.setUnit u f).unitSt v = s.unitSt v := by
  simp [State.setUnit, State.unitSt, Tab.getD_put_ne s.units _ _ h]

@[simp] theorem State.find_setCtx (i : Nat) (f : Ctx → Ctx) : (s.setCtx i f).ctxs.find i = (s.ctxs.find i).map f := by
  simp [State.setCtx]

theorem State.find_setCtx_ne {i j : Nat} (f : Ctx → Ctx) (h : j ≠ i) : (s.setCtx i f).ctxs.find j = s.ctxs.find j := by
  simp [State.setCtx, Tab.find_modify_ne s.ctxs f h]

@[simp] theorem State.find_setQueue (q : Nat) (f : Queue → Queue) :
    (s.setQueue q f).queues.find q = (s.queues.find q).map f := by
  simp [State.setQueue]

theorem State.find_setQueue_ne {q r : Nat} (f : Queue → Queue) (h : r ≠ q) :
    (s.setQueue q f).queues.find r = s.queues.find r := by
  simp [State.setQueue, Tab.find_modify_ne s.queues f h]

@[simp] theorem State.find_setSlice (n : Nat) (f : Slice → Slice) :
    (s.setSlice n f).slices.find n = (s.slices.find n).map f := by
  simp [State.setSlice]

theorem State.find_setSlice_ne {n m : Nat} (f : Slice → Slice) (h : m ≠ n) :
    (s.setSlice n f).slices.find m = s.slices.find m := by
  simp [State.setSlice, Tab.find_modify_ne s.slices f h]

@[simp] theorem State.route_setRoute (c : Nat) (f : IntRoute → IntRoute) : (s.setRoute c f).route c = f (s.route c) := by
  simp [State.setRoute, State.route]

theorem State.route_setRoute_ne {c d : Nat} (f : IntRoute → IntRoute) (h : d ≠ c) :
    (s.setRoute c f).route d = s.route d := by
  simp [State.setRoute, State.route, Tab.getD_putD_ne s.events.routes _ _ h]

/-! ## General registers -/

@[simp] theorem Core.gx_zero (k : Core) : k.gx 0#5 = 0#64 := rfl

@[simp] theorem Core.setX_zero (k : Core) (v : BitVec 64) : k.setX 0#5 v = k := rfl

/-- A write of a general register is what a read of it gives; a write of x0 is discarded. -/
theorem Core.gx_setX (k : Core) (r q : BitVec 5) (v : BitVec 64) :
    (k.setX r v).gx q = if q = r ∧ q ≠ 0 then v else k.gx q := by
  by_cases hq : q = 0
  · subst hq
    simp [Core.gx]
  · by_cases hr : r = 0
    · subst hr
      exact (if_neg fun h => hq h.1).symm
    · have hx : (k.setX r v).gx q = (k.x.putD r.toNat v 0).getD q.toNat 0 := by
        unfold Core.setX Core.gx
        rw [if_neg hq, if_neg hr]
      by_cases e : q = r
      · subst e
        rw [hx, Tab.getD_putD_same, if_pos ⟨rfl, hq⟩]
      · have hn : q.toNat ≠ r.toNat := fun h => e (BitVec.eq_of_toNat_eq h)
        rw [hx, Tab.getD_putD_ne k.x v 0 hn, if_neg (fun h => e h.1), Core.gx, if_neg hq]

/-- A write of a general register changes the general registers alone. -/
theorem Core.setX_eq (k : Core) (r : BitVec 5) (v : BitVec 64) : k.setX r v = { k with x := (k.setX r v).x } := by
  unfold Core.setX
  split <;> rfl

/-- A write of a yield register is what a read of it gives. -/
theorem Core.gy_setY (k : Core) (r q : BitVec 2) (v : BitVec 64) :
    (k.setY r.toNat v).gy q = if q = r then v else k.gy q := by
  unfold Core.setY Core.gy
  by_cases e : q = r
  · subst e
    rw [Tab.getD_putD_same, if_pos rfl]
  · have hn : q.toNat ≠ r.toNat := fun h => e (BitVec.eq_of_toNat_eq h)
    rw [Tab.getD_putD_ne k.y v 0 hn, if_neg e]

end Sys2Proof.Machine
end

