-- ==== Sys2Proof/Laws/Ops.lean ====
section
/-! SUPPORT. What each shared operation can do, said once: the state that it may change, and when a command of a core runs. -/

namespace Sys2Proof.Machine

open Sys2Proof

variable (s : State)

/-! ## Events and messages (R375, R377, R385) -/

/-- A message writes host memory alone. -/
theorem State.sendMsg_frame (v : Nat) : ∃ h, s.sendMsg v = { s with host := h } := ⟨_, rfl⟩

/-- A firing changes the event controller and host memory alone. -/
theorem State.fire_frame (v : Nat) : ∃ e h, s.fire v = { s with events := e, host := h } := by
  unfold State.fire
  dsimp only
  split <;> exact ⟨_, _, rfl⟩

/-- So does the post of one event to a host source. -/
theorem State.postVector_frame (v : Nat) (n : Bool) : ∃ e h, s.postVector v n = { s with events := e, host := h } := by
  unfold State.postVector
  dsimp only
  split
  · exact State.fire_frame (v := v) (s := State.mk ..)
  · exact ⟨_, _, rfl⟩

/-- So does the release of a pending vector. -/
theorem State.releasePending_frame (v : Nat) : ∃ e h, s.releasePending v = { s with events := e, host := h } := by
  unfold State.releasePending
  dsimp only
  repeat' split
  all_goals exact ⟨_, _, rfl⟩

/-- So does the post of a class event. -/
theorem State.postClass_frame (c : Nat) : ∃ e h, s.postClass c = { s with events := e, host := h } := by
  unfold State.postClass
  dsimp only
  split <;> split
  · obtain ⟨e, h, q⟩ := State.postVector_frame (s.setRoute c fun r => { r with pending := true }) (s.evClass c).hostSource false
    exact ⟨e, h, q⟩
  · exact ⟨_, _, rfl⟩
  · exact State.postVector_frame s (s.evClass c).hostSource false
  · exact ⟨_, _, rfl⟩

/-- A raised event changes the event controller, host memory and the recorder alone; it waits behind those detected before it. -/
theorem State.raise_frame (code origin p0 p1 p2 p3 : Nat) : ∃ e h r, r.code = code ∧ r.origin = origin ∧ r.repeats = 0 ∧
    s.raise code origin p0 p1 p2 p3 =
      { s with events := e, host := h, log := { s.log with queue := s.log.queue ++ [r] } } := by
  obtain ⟨e, h, q⟩ := State.postClass_frame s code
  unfold State.raise
  dsimp only
  rw [q]
  exact ⟨e, h, _, rfl, rfl, rfl, rfl⟩

/-! ## Commands on a core (R38, R56, R65) -/

/-- When a waiting command is ripe. -/
theorem State.ripe_eq (i o : Nat) (c : Ctx) (h : s.ctxs.find i = some c) :
    s.ripe i o = if s.serving && !s.unsettled && c.opcode == o && decide (c.phase = .waiting) && decide (c.accepted < s.now) &&
      !s.blocked c then some c else none := by
  simp only [State.ripe, h]

/-- A ripe command whose deadline test passes runs. -/
theorem State.runCore_runs {i o : Nat} {c : Ctx} (k : Ctx → State → State) (h : s.ripe i o = some c) (d : s.deadlineTest c = none) :
    s.runCore i o k = k c s := by
  simp only [State.runCore, h, d]

/-- A ripe command whose deadline test fails ends with the status of the test. -/
theorem State.runCore_refuses {i o st : Nat} {c : Ctx} (k : Ctx → State → State) (h : s.ripe i o = some c)
    (d : s.deadlineTest c = some st) : s.runCore i o k = s.refuse i st := by
  simp only [State.runCore, h, d]

/-- A command that is not ripe stays as it is. -/
theorem State.runCore_idle {i o : Nat} (k : Ctx → State → State) (h : s.ripe i o = none) : s.runCore i o k = s := by
  simp only [State.runCore, h]

/-- What a core's command keeps: what its refusal and its own effect keep. -/
theorem State.runCore_keeps (P : State → Prop) (i o : Nat) (k : Ctx → State → State) (hs : P s) (hr : ∀ st, P (s.refuse i st))
    (hk : ∀ c, s.ctxs.find i = some c → P (k c s)) : P (s.runCore i o k) := by
  unfold State.runCore
  split
  · exact hs
  · rename_i c h
    split
    · exact hr _
    · refine hk c ?_
      unfold State.ripe at h
      split at h
      · cases h
      · rename_i d hd
        split at h
        · cases h
          exact hd
        · cases h

/-! ## Outcomes (R69, R80, R143) -/

/-- A decided command keeps the outcome it has. -/
theorem State.conclude_decided {i : Nat} {c : Ctx} (r : Result) (h : s.ctxs.find i = some c) (d : c.phase.decided = true) :
    s.conclude i r = s := by
  simp only [State.conclude, h, d, if_true]

theorem State.refuse_decided {i : Nat} {c : Ctx} (st : Nat) (h : s.ctxs.find i = some c) (d : c.phase.decided = true) :
    s.refuse i st = s := by
  simp only [State.refuse, h, d, if_true]

/-- No context, no outcome. -/
theorem State.conclude_none {i : Nat} (r : Result) (h : s.ctxs.find i = none) : s.conclude i r = s := by
  simp only [State.conclude, h]

theorem State.refuse_none {i : Nat} (st : Nat) (h : s.ctxs.find i = none) : s.refuse i st = s := by
  simp only [State.refuse, h]

/-- What the end of a stream by an error changes: contexts, queues and the memory of slices. -/
theorem State.streamError_frame (c : Ctx) :
    ∃ x q y, s.streamError c = { s with ctxs := x, queues := q, slices := y } := by
  unfold State.streamError State.dropStream State.abortStream State.freeStream
  dsimp only
  repeat' split
  all_goals exact ⟨_, _, _, rfl⟩

/-! ## The safe state (R369 to R371) -/

/-- An alarm leaves the device in the safe state with ALARM_N asserted and its class latched. -/
theorem State.alarm_safe (cls cause : Nat) : (s.alarm cls cause).integ.safe = true ∧ (s.alarm cls cause).integ.alarmOut = true := by
  unfold State.alarm
  dsimp only
  repeat' split
  all_goals exact ⟨rfl, rfl⟩

/-- A region core's fault marks the region alone. -/
theorem State.regionFault_frame (r n : Nat) : ∃ g, s.regionFault r n = { s with integ := g } := by
  unfold State.regionFault
  split <;> exact ⟨_, rfl⟩

end Sys2Proof.Machine
end

