-- ==== Sys2Proof/Laws/Root.lean ====
section
/-! SUPPORT. The lengths and numbers of octet strings, and a helper copy of zero offsets, which regenerates the root of
zero blocks (R244, R245). -/

namespace Sys2Proof.Machine

open Sys2Proof

@[simp] theorem le_length : ∀ n v, (le n v).length = n
  | 0, _ => rfl
  | n + 1, v => by simp [le, le_length n]

/-- A number is read back as far as its octets go. -/
theorem leNat_le : ∀ n v, leNat (le n v) = v % 256 ^ n
  | 0, v => by simp [le, leNat, Nat.mod_one]
  | n + 1, v => by
    have h := Nat.mod_mul (a := 256) (b := 256 ^ n) (x := v)
    simp only [le, leNat, leNat_le n, BitVec.toNat_ofNat, Nat.pow_succ, Nat.mul_comm (256 ^ n)]
    omega

theorem leNat_zeros : ∀ n, leNat (List.replicate n 0) = 0
  | 0 => rfl
  | n + 1 => by rw [List.replicate_succ, leNat, leNat_zeros n]; rfl

theorem crc32c_lt (b : Bytes) : crc32c b < 2 ^ 32 := BitVec.isLt _

@[simp] theorem rootCheck_length (r : Bytes) : (rootCheck r).length = 16 := by simp [rootCheck, kmac256_length]

theorem pufBlocks_zero (b : Bytes) (h : leNat (b.take 12276) = 0) : pufBlocks b = List.replicate 96 0 := by
  have e : (fun i => leNat (b.take 12276) / 2 ^ (1023 * i) % 2 ^ 1023) = fun _ => 0 := by
    funext i; rw [h, Nat.zero_div, Nat.zero_mod]
  rw [pufBlocks, e]; rfl

theorem bchMul_zero (b : Nat) : bchMul 0 b = 0 := by
  have h : ∀ l : List Nat, l.foldl (fun acc i => if b.testBit (9 - i) then Nat.xor (bchStep acc) 0 else bchStep acc) 0 = 0 := by
    intro l
    induction l with
    | nil => rfl
    | cons a l ih =>
      have e : (if b.testBit (9 - a) then Nat.xor (bchStep 0) 0 else bchStep 0) = 0 := by split <;> rfl
      simp only [List.foldl_cons, e, ih]
  exact h _

theorem bchEval_zeros (n x : Nat) : bchEval (List.replicate n 0) x = 0 := by
  induction n with
  | zero => rfl
  | succ n ih =>
    show Nat.xor (bchMul (bchEval (List.replicate n 0) x) x) 0 = 0
    rw [ih, bchMul_zero]; rfl

theorem syndromes_zero : syndromes 0 = List.replicate 114 0 := by
  have h : blockBits 0 = List.replicate 1023 0 := by
    have e : (fun i => if Nat.testBit 0 i then 1 else 0) = fun _ => 0 := by funext i; rw [Nat.zero_testBit]; rfl
    rw [blockBits, e, List.map_const', List.length_range]
  have e : (fun j => bchEval (List.replicate 1023 0) (bchExp (j + 1))) = fun _ => 0 := by funext j; exact bchEval_zeros _ _
  rw [syndromes, h, e, List.map_const', List.length_range]

theorem locator_zero : (locatorOf (List.replicate 114 0)).c = [1] ∧ (locatorOf (List.replicate 114 0)).len = 0 := by decide +kernel

/-- A block of zeros is a codeword. -/
theorem bchDecode_zero : bchDecode 0 = some (0, 0) := by
  have e : ∀ x, bchEval [1] x = 1 := fun x => by
    have h : bchEval [1] x = Nat.xor (bchMul 0 x) 1 := rfl
    rw [h, bchMul_zero]; rfl
  have f : (List.filter (fun i => bchEval [1] (bchExp (1023 - i)) == 0) (List.range 1023)) = [] := by
    rw [List.filter_eq_nil_iff]; intro i _; rw [e]; exact Bool.false_ne_true
  rw [bchDecode, syndromes_zero, locator_zero.1, locator_zero.2, f]
  rfl

/-- The parts of a helper copy. -/
theorem helperCopy_parts (o r : Bytes) (h : o.length = 12276) :
    (helperCopy o r).length = 12296 ∧ (helperCopy o r).take 12292 = o ++ rootCheck r ∧ (helperCopy o r).take 12276 = o ∧
    bytesAt (helperCopy o r) 12276 16 = rootCheck r ∧ uAt (helperCopy o r) 12292 4 = crc32c (o ++ rootCheck r) := by
  have hl : (o ++ rootCheck r).length = 12292 := by rw [List.length_append, h, rootCheck_length]
  refine ⟨?_, List.take_left' hl, ?_, ?_, ?_⟩
  · rw [helperCopy, List.length_append, hl, le_length]
  · rw [helperCopy, List.append_assoc]; exact List.take_left' h
  · rw [helperCopy, List.append_assoc, bytesAt, List.drop_left' h]; exact List.take_left' (rootCheck_length r)
  · rw [helperCopy, uAt, bytesAt, List.drop_left' hl, List.take_of_length_le (Nat.le_of_eq (le_length ..)), leNat_le]
    exact Nat.mod_eq_of_lt (crc32c_lt _)

/-- Helper data of zero offsets regenerate the root of zero blocks from a response of zeros. -/
theorem regenerate_zeros :
    (regenerate (helperCopy (List.replicate 12276 0) (pufRootOf (List.replicate 96 0))) []).isSome = true := by
  obtain ⟨hn, hb, ho, hk, hc⟩ :=
    helperCopy_parts (List.replicate 12276 0) (pufRootOf (List.replicate 96 0)) List.length_replicate
  have hz := pufBlocks_zero (helperCopy (List.replicate 12276 0) (pufRootOf (List.replicate 96 0))) (by rw [ho]; exact leNat_zeros _)
  have hp : pufBlocks [] = List.replicate 96 0 := pufBlocks_zero _ rfl
  have hd : (((List.replicate 96 0).zip (List.replicate 96 0)).map fun x : Nat × Nat => (bchDecode (Nat.xor x.1 x.2), x.2)) =
      List.replicate 96 (some (0, 0), 0) := by
    rw [List.zip_replicate', List.map_replicate]
    show List.replicate 96 (bchDecode 0, 0) = _
    rw [bchDecode_zero]
  rw [regenerate]
  dsimp only
  rw [hn, hc, hb, hz, hp, hd, hk, if_neg (by omega), if_neg (by decide)]
  simp only [List.map_replicate, show Nat.xor 0 0 = 0 from rfl]
  rw [if_pos trivial]; rfl

end Sys2Proof.Machine
end

