-- ==== Sys2Proof/Laws/Spdm.lean ====
section
/-! SUPPORT. What a record seals, it opens to (R252, log 68). -/

namespace Sys2Proof.Machine

open Sys2Proof

theorem gcmTag_length (key iv aad ct : Bytes) : (gcmTag key iv aad ct).length = 16 := by
  simp [gcmTag, fit_length]

theorem recordHead_length (via : SpdmPath) (a b c : Nat) : (recordHead via a b c).length = if via = .mctp then 8 else 6 := by
  unfold recordHead
  split <;> simp

/-- A record of a message opens to it under the same key and sequence number. -/
theorem SpdmKey.openRecord_seal (k : SpdmKey) (via : SpdmPath) (sid : Nat) (m : Bytes) (h : m.length < 65000) :
    k.openRecord via sid (k.sealRecord via sid m) = some m := by
  have hb : 2 ≤ (recordBody via m).length := by simp [recordBody]
  have hr : (k.sealRecord via sid m).length - (recordHead via 0 0 0).length = (recordBody via m).length + 16 := by
    simp [SpdmKey.sealRecord, recordHead_length, gcmSeal, gcmCrypt_length, gcmTag_length]
  have hd : ∀ d : Bytes, d.length < 65536 → uAt (le 2 d.length ++ d) 0 2 = d.length ∧ bytesAt (le 2 d.length ++ d) 2 d.length = d := by
    intro d hd
    constructor
    · rw [uAt, bytesAt, List.drop_zero, List.take_left' (le_length ..), leNat_le]
      exact Nat.mod_eq_of_lt hd
    · rw [bytesAt, List.drop_left' (le_length ..), List.take_length]
  obtain ⟨head, hh⟩ : ∃ head, recordHead via sid k.seq ((recordBody via m).length + 16) = head := ⟨_, rfl⟩
  have hs : k.sealRecord via sid m = head ++ (gcmCrypt (spdmExpand 32 k.secret "key" []) k.nonce (recordBody via m) ++
      gcmTag (spdmExpand 32 k.secret "key" []) k.nonce head (gcmCrypt (spdmExpand 32 k.secret "key" []) k.nonce (recordBody via m))) := by
    simp only [SpdmKey.sealRecord, gcmSeal, hh]
  have ht : (k.sealRecord via sid m).take head.length = head := by rw [hs]; exact List.take_left
  have hc : (k.sealRecord via sid m).drop head.length = gcmCrypt (spdmExpand 32 k.secret "key" []) k.nonce (recordBody via m) ++
      gcmTag (spdmExpand 32 k.secret "key" []) k.nonce head (gcmCrypt (spdmExpand 32 k.secret "key" []) k.nonce (recordBody via m)) := by
    rw [hs]; exact List.drop_left
  have hn : ¬ (head ≠ head ∨ (recordBody via m).length + 16 < 18) := fun e => e.elim (fun e => e rfl) (by omega)
  simp only [SpdmKey.openRecord, hr, hh, ht, hc, Nat.add_sub_cancel, if_neg hn]
  rw [List.take_left' (gcmCrypt_length ..),
    List.drop_left' (gcmCrypt_length ..), gcmOpen_seal]
  by_cases hv : via = .mctp
  · subst hv
    have e := hd (5#8 :: m) (by simp only [List.length_cons]; omega)
    rw [List.length_cons] at e
    simp [recordBody, e.1, e.2]
  · have e := hd m (by omega)
    simp [recordBody, hv, e.1, e.2]

end Sys2Proof.Machine
end

