-- ==== Sys2Proof/Laws/Work.lean ====
section
/-! SUPPORT. What the operations of keys, draws, lanes, engines and the journal can change, said once, and what is read back
after them. -/

namespace Sys2Proof.Machine

open Sys2Proof

variable (s : State)

/-! ## Draws (R151, R277) -/

/-- A draw takes the next number and counts one request of its instance. -/
theorem State.drawFrom_frame (d n : Nat) : ∃ g, s.drawFrom d n = (drawBytes s.free n, { s with free := s.free + 1, rng := g }) :=
  ⟨_, rfl⟩

/-- The draw of a unit changes beside that only the cores: the random port of its sheet. -/
theorem State.drawFor_frame (d u n : Nat) : ∃ f g k, s.drawFor d u n = { s with free := f, rng := g, cores := k } := by
  unfold State.drawFor
  split
  · exact ⟨_, _, _, rfl⟩
  · dsimp only
    split <;> exact ⟨_, _, _, rfl⟩

/-- A command that waits for a draw keeps its first boundary of waiting. -/
theorem State.awaitDraw_again {i : Nat} {c : Ctx} {b : Nat} (h : s.ctxs.find i = some c) (w : c.waitFrom = some b) :
    (s.awaitDraw i).ctxs.find i = some c := by
  simp only [State.awaitDraw, State.find_setCtx, h, Option.map_some, w, Option.getD_some]
  rw [← w]

/-! ## Lanes and engines (R198, R206, R220, R223) -/

/-- A lane's update is what a read of it gives. -/
@[simp] theorem State.lane_setLane (u l : Nat) (f : Lane → Lane) :
    ((s.setLane u l f).unitSt u).lane l = f ((s.unitSt u).lane l) := by
  simp [State.setLane, UnitSt.lane]

/-- The save of a lane's context changes the save counter, the stream's entry and the lane. -/
theorem State.saveLane_frame (u l : Nat) : ∃ k q x, s.saveLane u l = { s with keys := k, queues := q, units := x } := by
  unfold State.saveLane
  dsimp only
  split <;> exact ⟨_, _, _, rfl⟩

/-- An operation's load of an engine changes the engines alone. -/
theorem State.loadEngine_frame (c : Ctx) (u set : Nat) (draw : Bytes) (b : Bool) :
    ∃ e, s.loadEngine c u set draw b = { s with engines := e } := by
  unfold State.loadEngine
  split <;> exact ⟨_, rfl⟩

/-- So does its end. -/
theorem State.clearEngine_frame (u : Nat) : ∃ e, s.clearEngine u = { s with engines := e } := by
  unfold State.clearEngine
  split <;> exact ⟨_, rfl⟩

/-- At the end of an engine's operation no mask and no share is left; its operands are (R198). -/
theorem State.clearEngine_clears (u : Nat) (h : unitKind u = 1) :
    ((s.clearEngine u).engine (engineOf u)).msk = [] ∧ ((s.clearEngine u).engine (engineOf u)).kps = [] ∧
    ((s.clearEngine u).engine (engineOf u)).ops = (s.engine (engineOf u)).ops := by
  simp [State.clearEngine, h, State.engine]

/-! ## The key vault (R28, R261) -/

/-- A policy block has 64 octets. -/
@[simp] theorem Policy.bytes_length (p : Policy) : p.bytes.length = 64 := by
  simp [Policy.bytes]

/-- What a slot was given is what opens. -/
theorem Slot.material_of_withKey (x : Slot) (key : Bytes) (h r e n : Nat) (p : Policy) (m : Bytes) :
    (x.withKey key h r e n p m).material key = m :=
  x.material_withKey key h r e n p m p.bytes_length

/-! ## The journal and the leaves (R165, R168, R169) -/

/-- A journal write changes the stateful part alone. -/
theorem State.journalPut_frame (r : JRec) : ∃ t, s.journalPut r = { s with stateful := t } := by
  unfold State.journalPut
  dsimp only
  split <;> exact ⟨_, rfl⟩

theorem State.journalNow_frame (r : JRec) : ∃ t, s.journalNow r = { s with stateful := t } := by
  obtain ⟨t, h⟩ := s.journalPut_frame r
  unfold State.journalNow
  rw [h]
  exact ⟨_, rfl⟩

theorem State.journalWrite_frame (a b c d e f : Nat) : ∃ t, s.journalWrite a b c d e f = { s with stateful := t } := by
  unfold State.journalWrite
  dsimp only
  split
  · exact s.journalNow_frame _
  · exact ⟨_, rfl⟩

/-- A write that the budget does not admit waits behind the others. -/
theorem State.journalWrite_waits (a b c d e f : Nat) (h : s.journalRoom = false) :
    (s.journalWrite a b c d e f).stateful.journal = s.stateful.journal ∧
    (s.journalWrite a b c d e f).stateful.owed.length = s.stateful.owed.length + 1 := by
  simp [State.journalWrite, h]

/-- The assignment of a leaf changes the stateful part alone. -/
theorem State.assignLeaf_frame (h : Nat) : ∃ t, s.assignLeaf h = { s with stateful := t } := by
  unfold State.assignLeaf
  dsimp only
  split <;> exact ⟨_, rfl⟩

/-- The next leaf of the key only moves forward. -/
theorem State.assignLeaf_next {h : Nat} {l : Leaves} (f : s.stateful.keys.find (s.keyIdOf h) = some l) :
    (s.assignLeaf h).stateful.keys.find (s.keyIdOf h) = some { l with next := l.next + 1 } := by
  simp [State.assignLeaf, f]

end Sys2Proof.Machine
end

