-- ==== Sys2Proof/WellFormed.lean ====
section
/-! DEFINITION. Which commands name objects the device has: cores, units, regions, vectors, classes, cells, DRBGs,
rails, coprocessors, lanes and sensors. The meanings stop on a core, unit, region, cell, DRBG or rail that
does not exist. -/

namespace Sys2Proof

/-- Chief core, four region cores, 64 sheet cores (R289). -/
def coreOk (c : Nat) : Bool := decide (c < 69)
/-- 104 units (R16). -/
def unitOk (u : Nat) : Bool := decide (u < 104)
/-- Four regions (R16). -/
def regionOk (r : Nat) : Bool := decide (r < 4)
/-- 2,048 MSI-X entries (R376). -/
def vectorOk (v : Nat) : Bool := decide (v < 2048)
/-- 256 event classes (R393). -/
def classOk (c : Nat) : Bool := decide (c < 256)
/-- Eight latch cells (R272). -/
def cellOk (c : Nat) : Bool := decide (c < 8)
/-- 13 DRBG instances (R277). -/
def drbgOk (d : Nat) : Bool := decide (d < 13)
/-- Nine rails (R429, R447). -/
def railOk (r : Nat) : Bool := decide (r < 9)
/-- Coprocessors 0 to 6 (R316, R334). -/
def cpOk (c : Nat) : Bool := decide (c < 7)
/-- Four work lanes and four check lanes of a stream pipe (R220). -/
def laneOk (l : Nat) : Bool := decide (l < 8)
/-- A site of an uncorrectable error names a lane or a core that exists. -/
def siteOk : EccSite → Bool
  | .laneState l => laneOk l
  | .guardFile c => coreOk c
  | .coreData c _ => coreOk c
  | .coreFetch c => coreOk c
  | _ => true
/-- Ten junction-temperature sensors (R451). -/
def tempsOk (t : List Int) : Bool := t.length == 10

/-- The command's operands name objects that exist. -/
def Instr.wellFormed : Instr → Bool
  | .tickBoundary => true
  | .datumHoldoverWiden => true
  | .datumChallenge _ => true
  | .datumToken _ => true
  | .datumTokenApply => true
  | .datumChallengeExpire => true
  | .datumRead _ => true
  | .datumPpsEdge _ => true
  | .ptmExchange _ _ _ => true
  | .datumRefineApply => true
  | .sqDoorbell _ _ _ => true
  | .cqDoorbell _ _ _ => true
  | .noticeEntry _ => true
  | .packetConsume _ => true
  | .operationLaunch _ u => unitOk u
  | .operationComplete _ => true
  | .checkLaunch _ u => unitOk u
  | .checkComplete _ _ => true
  | .rerunLaunch _ u => unitOk u
  | .legLaunch _ => true
  | .benchmarkLaunch u _ => unitOk u
  | .benchmarkComplete u _ => unitOk u
  | .hatchingLaunch u => unitOk u
  | .collectorAdmit r => regionOk r
  | .completionWrite => true
  | .coalesceTimerExpire v => vectorOk v
  | .queCtrlEnableWrite _ => true
  | .sliceCreate _ => true
  | .sliceResize _ => true
  | .sliceDestroy _ => true
  | .sliceReset _ => true
  | .sliceFreeze _ => true
  | .sliceQuiesced _ => true
  | .sliceExport _ => true
  | .sliceImport _ => true
  | .sliceThaw _ => true
  | .importPrepare _ => true
  | .importSessionExpire _ => true
  | .sliceQuery _ => true
  | .qpCreate _ => true
  | .qpDestroy _ => true
  | .qpShutdownComplete _ => true
  | .sliceInfo _ => true
  | .sliceEpochAdvance _ => true
  | .mlkemKeygen _ => true
  | .mlkemEncaps _ => true
  | .mlkemDecaps _ => true
  | .mlkemPublic _ => true
  | .mldsaKeygen _ => true
  | .mldsaSign _ => true
  | .mldsaVerify _ => true
  | .mldsaPublic _ => true
  | .hybridKeygen _ => true
  | .hybridEncaps _ => true
  | .hybridDecaps _ => true
  | .compositeKeygen _ => true
  | .compositeSign _ => true
  | .compositeVerify _ => true
  | .keyPreparation _ _ u _ => unitOk u
  | .keyResidency _ r => regionOk r
  | .slhdsaKeygen _ => true
  | .slhdsaSign _ => true
  | .slhdsaVerify _ => true
  | .slhdsaPublic _ => true
  | .lmsKeygen _ => true
  | .lmsSign _ => true
  | .lmsVerify _ => true
  | .lmsPublic _ => true
  | .lmsState _ => true
  | .xmssKeygen _ => true
  | .xmssSign _ => true
  | .xmssVerify _ => true
  | .xmssPublic _ => true
  | .xmssState _ => true
  | .treeBatchLaunch _ _ u _ => unitOk u
  | .journalReserve _ => true
  | .mceKeygen _ => true
  | .mceEncaps _ => true
  | .mceDecaps _ => true
  | .mcePublic _ => true
  | .hqcKeygen _ => true
  | .hqcEncaps _ => true
  | .hqcDecaps _ => true
  | .hqcPublic _ => true
  | .surveyBatch _ => true
  | .bearingFormationComplete _ _ _ => true
  | .surveyAnchor _ => true
  | .verifyBearing _ => true
  | .anchorDrop _ => true
  | .ecKeygen _ => true
  | .ecdsaSign _ => true
  | .ecdsaVerify _ => true
  | .eddsaSign _ => true
  | .eddsaVerify _ => true
  | .ecAgree _ => true
  | .ecPublic _ => true
  | .rsaKeygen _ => true
  | .rsaSign _ => true
  | .rsaVerify _ => true
  | .rsaDecrypt _ => true
  | .rsaEncrypt _ => true
  | .rsaPublic _ => true
  | .digest _ => true
  | .digestBatch _ => true
  | .mac _ => true
  | .macVerify _ => true
  | .kdfHkdf _ => true
  | .kdfCounter _ => true
  | .kdfKmac _ => true
  | .seal _ => true
  | .openSeal _ => true
  | .wrap _ => true
  | .unwrap _ => true
  | .slabLaunch _ u lane cu clane => unitOk u && laneOk lane && unitOk cu && laneOk clane
  | .slabComplete _ _ => true
  | .keyGenerate _ => true
  | .keyLoadPublic _ => true
  | .keyInfo _ => true
  | .keyDestroy _ => true
  | .generationBump => true
  | .slotReclaim _ => true
  | .keyPersist _ => true
  | .keyRestore _ => true
  | .keyReceivePrepare _ => true
  | .keyExport _ => true
  | .keyImport _ => true
  | .keyEpochAdvance _ => true
  | .peerEnrol _ => true
  | .attestQuote _ => true
  | .randomBytes _ => true
  | .randomStatus _ => true
  | .conditionedBlock => true
  | .healthFailure _ cell _ => cellOk cell
  | .balanceWindow cell _ => cellOk cell
  | .balanceTimeout cell => cellOk cell
  | .sourceStageComplete _ => true
  | .drbgReseed d => drbgOk d
  | .drbgReseedLimit d => drbgOk d
  | .drbgPeriodicKat d _ _ => drbgOk d
  | .rngWaitExpire _ => true
  | .addi c _ _ _ _ => coreOk c
  | .andi c _ _ _ _ => coreOk c
  | .ori c _ _ _ _ => coreOk c
  | .xori c _ _ _ _ => coreOk c
  | .ldk c _ _ _ _ => coreOk c
  | .ldkh c _ _ _ _ => coreOk c
  | .shk c _ _ _ => coreOk c
  | .addk c _ _ _ _ => coreOk c
  | .slli c _ _ _ _ => coreOk c
  | .srli c _ _ _ _ => coreOk c
  | .srai c _ _ _ _ => coreOk c
  | .rori c _ _ _ _ => coreOk c
  | .cmpi c _ _ _ => coreOk c
  | .addpc c _ _ _ => coreOk c
  | .ld c _ _ _ _ _ => coreOk c
  | .st c _ _ _ _ _ => coreOk c
  | .b c _ _ => coreOk c
  | .bl c _ _ => coreOk c
  | .jr c _ _ _ _ => coreOk c
  | .sysrd c _ _ _ => coreOk c
  | .syswr c _ _ _ => coreOk c
  | .eoi c _ => coreOk c
  | .fence c _ => coreOk c
  | .eret c _ => coreOk c
  | .wfi c _ => coreOk c
  | .plainx c _ => coreOk c
  | .plaine c _ => coreOk c
  | .trap c _ _ => coreOk c
  | .add c _ _ _ _ _ => coreOk c
  | .sub c _ _ _ _ _ => coreOk c
  | .and c _ _ _ _ _ => coreOk c
  | .or c _ _ _ _ _ => coreOk c
  | .xor c _ _ _ _ _ => coreOk c
  | .andn c _ _ _ _ _ => coreOk c
  | .sll c _ _ _ _ _ => coreOk c
  | .srl c _ _ _ _ _ => coreOk c
  | .sra c _ _ _ _ _ => coreOk c
  | .ror c _ _ _ _ _ => coreOk c
  | .adc c _ _ _ _ _ => coreOk c
  | .sbc c _ _ _ _ _ => coreOk c
  | .addw c _ _ _ _ _ => coreOk c
  | .subw c _ _ _ _ _ => coreOk c
  | .min c _ _ _ _ _ => coreOk c
  | .max c _ _ _ _ _ => coreOk c
  | .minu c _ _ _ _ _ => coreOk c
  | .maxu c _ _ _ _ _ => coreOk c
  | .clz c _ _ _ _ => coreOk c
  | .ctz c _ _ _ _ => coreOk c
  | .popc c _ _ _ _ => coreOk c
  | .bswap c _ _ _ _ => coreOk c
  | .padd c _ _ _ _ _ => coreOk c
  | .psub c _ _ _ _ _ => coreOk c
  | .padds c _ _ _ _ _ => coreOk c
  | .paddus c _ _ _ _ _ => coreOk c
  | .psubs c _ _ _ _ _ => coreOk c
  | .psubus c _ _ _ _ _ => coreOk c
  | .pmull c _ _ _ _ _ => coreOk c
  | .pmulhu c _ _ _ _ _ => coreOk c
  | .pcmpeq c _ _ _ _ _ => coreOk c
  | .pcmpgt c _ _ _ _ _ => coreOk c
  | .pmin c _ _ _ _ _ => coreOk c
  | .pmax c _ _ _ _ _ => coreOk c
  | .pminu c _ _ _ _ _ => coreOk c
  | .pmaxu c _ _ _ _ _ => coreOk c
  | .psll c _ _ _ _ _ => coreOk c
  | .psrl c _ _ _ _ _ => coreOk c
  | .psra c _ _ _ _ _ => coreOk c
  | .pavgu c _ _ _ _ _ => coreOk c
  | .gcmp c _ _ _ _ _ => coreOk c
  | .gset c _ _ _ => coreOk c
  | .gand c _ _ _ _ _ _ => coreOk c
  | .gor c _ _ _ _ _ _ => coreOk c
  | .gxor c _ _ _ _ _ _ => coreOk c
  | .gfromx c _ _ _ _ => coreOk c
  | .mul64 c _ _ _ _ => coreOk c
  | .mulw c _ _ _ _ _ => coreOk c
  | .mulws c _ _ _ _ _ => coreOk c
  | .mulm c _ _ _ _ => coreOk c
  | .mfy c _ _ _ => coreOk c
  | .mty c _ _ _ => coreOk c
  | .yieldWriteLand c => coreOk c
  | .interruptAccept c => coreOk c
  | .coreWdogExpire c => coreOk c
  | .cpstat c _ _ _ => coreOk c
  | .cpsync c _ _ _ => coreOk c
  | .coprocessorCommandComplete c cp => coreOk c && cpOk cp
  | .bnlaunch c _ _ _ _ => coreOk c
  | .bnpoll c _ _ _ => coreOk c
  | .bnclear c _ _ => coreOk c
  | .sequencerWatchdogExpire u => unitOk u
  | .controlStoreReloadEnd u => unitOk u
  | .nttFwd c _ _ => coreOk c
  | .nttInv c _ _ => coreOk c
  | .nttPmul c _ _ _ => coreOk c
  | .nttPmacc c _ _ _ => coreOk c
  | .hInit c _ => coreOk c
  | .hAbsorb c _ _ _ => coreOk c
  | .hFinal c _ => coreOk c
  | .hSqueeze c _ _ _ => coreOk c
  | .hSave c _ _ => coreOk c
  | .hLoad c _ _ => coreOk c
  | .smpUnif c _ _ _ => coreOk c
  | .smpCbd c _ _ _ => coreOk c
  | .smpBound c _ _ _ => coreOk c
  | .smpBall c _ _ => coreOk c
  | .bfMulv c _ _ _ => coreOk c
  | .bfMatvec c _ _ _ => coreOk c
  | .bfEval c _ _ _ => coreOk c
  | .bfBmstep c _ _ _ => coreOk c
  | .kpSel c _ _ _ => coreOk c
  | .kpAbsorb c _ _ _ => coreOk c
  | .kpBfload c _ _ _ => coreOk c
  | .kpDrop c _ => coreOk c
  | .rpMseed c _ => coreOk c
  | .rpDraw c _ _ => coreOk c
  | .rpMaskv c _ _ => coreOk c
  | .vadd c _ _ _ _ _ _ => coreOk c
  | .vsub c _ _ _ _ _ _ => coreOk c
  | .vand c _ _ _ _ _ _ => coreOk c
  | .vor c _ _ _ _ _ _ => coreOk c
  | .vxor c _ _ _ _ _ _ => coreOk c
  | .vandn c _ _ _ _ _ _ => coreOk c
  | .vsll c _ _ _ _ _ _ => coreOk c
  | .vsrl c _ _ _ _ _ _ => coreOk c
  | .vsra c _ _ _ _ _ _ => coreOk c
  | .vmin c _ _ _ _ _ _ => coreOk c
  | .vmax c _ _ _ _ _ _ => coreOk c
  | .vminu c _ _ _ _ _ _ => coreOk c
  | .vmaxu c _ _ _ _ _ _ => coreOk c
  | .vaddm c _ _ _ _ _ _ => coreOk c
  | .vsubm c _ _ _ _ _ _ => coreOk c
  | .vnegm c _ _ _ _ => coreOk c
  | .vsrrU c _ _ _ _ _ => coreOk c
  | .vsrrS c _ _ _ _ _ => coreOk c
  | .vsatU c _ _ _ _ _ => coreOk c
  | .vsatS c _ _ _ _ _ => coreOk c
  | .vmul c _ _ _ _ _ _ => coreOk c
  | .vmulhu c _ _ _ _ _ _ => coreOk c
  | .vmulhrU c _ _ _ _ _ _ => coreOk c
  | .vmulhrS c _ _ _ _ _ _ => coreOk c
  | .vmulm c _ _ _ _ _ _ => coreOk c
  | .vmacm c _ _ _ _ _ _ => coreOk c
  | .vmv c _ _ _ _ => coreOk c
  | .vsplat c _ _ _ _ => coreOk c
  | .vext c _ _ _ _ => coreOk c
  | .vslideup c _ _ _ _ _ => coreOk c
  | .vslidedn c _ _ _ _ _ => coreOk c
  | .vbrev c _ _ _ _ _ => coreOk c
  | .vcomp c _ _ _ _ _ => coreOk c
  | .vdecomp c _ _ _ _ _ => coreOk c
  | .vcmpeq c _ _ _ _ _ _ => coreOk c
  | .vcmpne c _ _ _ _ _ _ => coreOk c
  | .vcmpltu c _ _ _ _ _ _ => coreOk c
  | .vcmpgeu c _ _ _ _ _ _ => coreOk c
  | .vcmplt c _ _ _ _ _ _ => coreOk c
  | .vcmpge c _ _ _ _ _ _ => coreOk c
  | .vld c _ _ _ _ _ _ => coreOk c
  | .vst c _ _ _ _ _ _ => coreOk c
  | .vgather c _ _ _ _ _ _ => coreOk c
  | .vgatherFf c _ _ _ _ _ _ => coreOk c
  | .vscatter c _ _ _ _ _ _ => coreOk c
  | .vsetvl c _ _ _ => coreOk c
  | .vsetvli c _ _ _ => coreOk c
  | .unitRetire u _ => unitOk u
  | .regionRetire r _ => regionOk r
  | .retirementMapUpdate => true
  | .transientExpire u => unitOk u
  | .contextStall _ => true
  | .lockstepMismatch => true
  | .regionCoreMismatch r => regionOk r
  | .hbmScrubRead _ _ => true
  | .railVoltageExcursion rail _ _ => railOk rail
  | .tempSensorConversion temps => tempsOk temps
  | .hbmStackTempRead _ => true
  | .referenceClockFault _ _ => true
  | .lightSensorTrigger => true
  | .tamperInN _ => true
  | .thermtripN _ => true
  | .msixVectorMaskWrite v _ => vectorOk v
  | .msixFunctionMaskWrite _ => true
  | .evcClassWrite cl _ => classOk cl
  | .evcIntRouteMaskWrite cl _ _ => classOk cl
  | .eventRecordWrite => true
  | .repeatFlush => true
  | .opSecondsPersist => true
  | .logRead _ => true
  | .logInfo => true
  | .logGet _ _ _ => true
  | .perstNDeassert _ => true
  | .fuseGroupBurnComplete _ => true
  | .hbmTrainingComplete _ => true
  | .datumAcqExpire => true
  | .perstNAssert => true
  | .powerLoss => true
  | .flr => true
  | .hotReset => true
  | .configRequest _ => true
  | .memoryRequestBeforeReady => true
  | .configStatus _ => true
  | .configCommit _ _ => true
  | .commitTokenGain => true
  | .stageGet => true
  | .identGet => true
  | .lcsRequest _ => true
  | .lcsCancel _ => true
  | .debugInstall _ => true
  | .getVersion _ _ => true
  | .getCapabilities _ _ => true
  | .negotiateAlgorithms _ _ => true
  | .getDigests _ _ => true
  | .getCertificate _ _ _ => true
  | .challenge _ _ => true
  | .getMeasurements _ _ _ => true
  | .keyExchange _ _ => true
  | .finish _ _ => true
  | .endSession _ _ => true
  | .keyUpdate _ _ => true
  | .heartbeat _ _ => true
  | .ideKm _ _ => true
  | .getTdispVersion _ => true
  | .getTdispCapabilities _ => true
  | .lockInterfaceRequest _ _ => true
  | .getDeviceInterfaceReport _ => true
  | .getDeviceInterfaceState _ => true
  | .startInterfaceRequest _ => true
  | .stopInterfaceRequest _ => true
  | .lowWordRead _ _ => true
  | .dtmValueLowRead _ => true
  | .rcRead _ _ => true
  | .lowWordWrite _ _ => true
  | .highWordWrite _ _ => true
  | .registerWrite _ _ _ => true
  | .powerUp _ => true
  | .queueWindowAccess _ _ _ _ _ _ => true
  | .undefinedEncoding c _ => coreOk c
  | .beatLeavesPipe c => coreOk c
  | .uncorrectableEccError u site => unitOk u && siteOk site
  | .hbmChannelFailure _ => true
  | .smbusTimeout => true
  | .jtagAccess _ => true
  | .identityChainProvisioning _ => true

end Sys2Proof
end

