-- ==== Sys2Proof/Tests/Slice0.lean ====
section
/-! SUPPORT. Tests of the model: terms that the check of WellFormed refuses, small values that the spec's own examples and
tables give, and for each statement with hypotheses a state and operands that meet them. Where a hypothesis is the verdict
of a standard's check, which nothing here can evaluate, the witness holds for every verdict that accepts. -/

-- One theorem at a time: the tests elaborated side by side hold more memory than the check allows.
set_option Elab.async false

namespace Sys2Proof.Tests

open Sys2Proof Sys2Proof.Machine Sys2Proof.Claims

/-! ## WellFormed -/

theorem test_illformed_core : (Instr.add 69 0 false 1 2 3).wellFormed = false := by decide
theorem test_illformed_unit : (Instr.operationLaunch 0 104).wellFormed = false := by decide
theorem test_illformed_region : (Instr.collectorAdmit 4).wellFormed = false := by decide
theorem test_illformed_vector : (Instr.coalesceTimerExpire 2048).wellFormed = false := by decide
theorem test_illformed_class : (Instr.evcClassWrite 256 0).wellFormed = false := by decide
theorem test_illformed_cell : (Instr.balanceTimeout 8).wellFormed = false := by decide
theorem test_illformed_drbg : (Instr.drbgPeriodicKat 13 .periodic true).wellFormed = false := by decide
theorem test_illformed_rail : (Instr.railVoltageExcursion 9 0 0).wellFormed = false := by decide
theorem test_illformed_coprocessor : (Instr.coprocessorCommandComplete 5 7).wellFormed = false := by decide
theorem test_illformed_lane : (Instr.slabLaunch 0 20 8 21 4).wellFormed = false := by decide
theorem test_illformed_temps : (Instr.tempSensorConversion [25]).wellFormed = false := by decide

/-! ## Values of the spec's examples -/

/-- "123456789" is the check string of CRC-32C (R86). -/
theorem test_crc32c : crc32c (ascii "123456789") = 0xE3069283 := by decide +kernel

/-- The words of the example of plain mode (R298). -/
theorem test_word_ldkh : insnWord 0 0x05 (fmtW 2 false 0x0020) = 0x01440020#32 := by decide
theorem test_word_addi : insnWord 0 0x01 (fmtI 2 2 8) = 0x00442008#32 := by decide
theorem test_word_subF : insnWord 0 0x00 (fmtR 0 2 3 0x41) = 0x000021C1#32 := by decide
theorem test_word_b : insnWord 2 0x18 (BitVec.ofInt 22 (-3)) = 0x263FFFFD#32 := by decide
theorem test_word_or : insnWord 3 0x00 (fmtR 15 17 0 0x03) = 0x301F1003#32 := by decide
/-- The words of the vector examples (R323, R325). -/
theorem test_word_vmulm : insnWord 0 0x23 (fmtV 3 1 2 0 4) = 0x08C61104#32 := by decide
theorem test_word_vaddm : insnWord 0 0x20 (fmtV 4 3 5 0 13) = 0x0808328D#32 := by decide
theorem test_word_vld : insnWord 0 0x28 (fmtVM 1 2 0 0 2 0) = 0x0A022008#32 := by decide

/-! ## States -/

/-- A device in READY at boundary 1,000, its graticule running, with the datum trusted at 5 s and 1,000 ns wide. -/
def ready : State :=
  { State.reset with
    now := 1000
    datum := { Datum.reset with v := 5000000000, lo := 4999999000, hi := 5000001000, st := .trusted }
    start := { StartUp.reset with vddGood := true, perst := false, stage := 0x0C, fuseRead := true, loadDone := true, grat := true } }

/-- A core in service: out of reset, in normal service, guards written. -/
def core0 : Core := { Core.reset with held := false, plain := false, init := 255 }

/-- READY with sheet core 5 replaced. -/
def onSheet (k : Core) : State := { ready with cores := [(5, k)] }

/-- READY with the chief core in service. -/
def onChief : State := { ready with cores := [(0, core0)] }

theorem runs_sheet : Runs (onSheet core0) 5 0 := ⟨by decide, by decide, by decide, by decide, by decide, by decide⟩
theorem runs_chief : Runs onChief 0 0 := ⟨by decide, by decide, by decide, by decide, by decide, by decide⟩

/-! ## Witnesses: the cores -/

theorem witness_ScalarResults : ∃ f, scalarForm (.add 5 0 true 31 1 2) = some f ∧ Runs (onSheet core0) f.c f.g :=
  ⟨_, rfl, runs_sheet⟩
theorem witness_ShortVectorResults : ∃ f, packedForm (.padd 5 0 2 1 2 3) = some f ∧ f.es ≠ 3 ∧ Runs (onSheet core0) f.c f.g :=
  ⟨_, rfl, by decide, runs_sheet⟩
theorem witness_GuardResults : ∃ f, guardForm (.gset 5 0 7 14) = some f ∧ Runs (onSheet core0) f.c f.g := ⟨_, rfl, runs_sheet⟩
theorem witness_MultiplierStarts : ∃ f, mulForm (.mul64 5 0 3 1 2) = some f ∧ Runs (onSheet core0) f.c f.g := ⟨_, rfl, runs_sheet⟩

/-- The core with x1 at an address. -/
def based (a : BitVec 64) : Core := core0.setX 1 a

/-- A load of 8 octets at the last address of a sheet's data SRAM that holds them. -/
theorem witness_LoadResults : Runs (onSheet (based 0x23FFF8)) 5 0 ∧ (6#3 ≠ 7) ∧
    (loadAddr ((before (onSheet (based 0x23FFF8)) 5 0 [1] [2]).core 5) 6 1 0).toNat % loadSize 6 = 0 ∧
    placeOf 5 (loadAddr ((before (onSheet (based 0x23FFF8)) 5 0 [1] [2]).core 5) 6 1 0).toNat (loadSize 6) = some .data :=
  ⟨⟨by decide, by decide, by decide, by decide, by decide, by decide⟩, by decide, by decide, by decide⟩

/-- The chief core with x1 at DTM_VALUE in its control window. -/
def chiefWindow : State := { ready with cores := [(0, core0.setX 1 0x100002000)] }

theorem witness_ControlWindowAccess : Runs chiefWindow 0 0 ∧
    (loadAddr ((before chiefWindow 0 0 [1] [2]).core 0) 6 1 0).toNat % loadSize 6 = 0 ∧
    placeOf 0 (loadAddr ((before chiefWindow 0 0 [1] [2]).core 0) 6 1 0).toNat (loadSize 6) = some .window ∧
    (storeAddr ((before chiefWindow 0 0 [1, 2] []).core 0) 3 1 0).toNat % 8 = 0 ∧
    placeOf 0 (storeAddr ((before chiefWindow 0 0 [1, 2] []).core 0) 3 1 0).toNat 8 = some .window :=
  ⟨⟨by decide, by decide, by decide, by decide, by decide, by decide⟩, by decide, by decide, by decide, by decide⟩

theorem witness_StoreResults : Runs (onSheet (based 0x23FFF8)) 5 0 ∧
    (storeAddr ((before (onSheet (based 0x23FFF8)) 5 0 [1, 2] []).core 5) 3 1 0).toNat % 8 = 0 ∧
    placeOf 5 (storeAddr ((before (onSheet (based 0x23FFF8)) 5 0 [1, 2] []).core 5) 3 1 0).toNat 8 = some .data ∧
    memoryPlace .data :=
  ⟨⟨by decide, by decide, by decide, by decide, by decide, by decide⟩, by decide, by decide, Or.inl rfl⟩

/-- A misaligned address, and the first address behind data SRAM. -/
theorem witness_AccessTraps :
    (Runs (onSheet (based 0x23FFF9)) 5 0 ∧
      (loadAddr ((before (onSheet (based 0x23FFF9)) 5 0 [1] [2]).core 5) 6 1 0).toNat % loadSize 6 ≠ 0 ∧
      (storeAddr ((before (onSheet (based 0x23FFF9)) 5 0 [1, 2] []).core 5) 3 1 0).toNat % 8 ≠ 0) ∧
    (Runs (onSheet (based 0x240000)) 5 0 ∧
      placeOf 5 (loadAddr ((before (onSheet (based 0x240000)) 5 0 [1] [2]).core 5) 6 1 0).toNat (loadSize 6) = none ∧
      placeOf 5 (storeAddr ((before (onSheet (based 0x240000)) 5 0 [1, 2] []).core 5) 3 1 0).toNat 8 = none) :=
  ⟨⟨⟨by decide, by decide, by decide, by decide, by decide, by decide⟩, by decide, by decide⟩,
   ⟨by decide, by decide, by decide, by decide, by decide, by decide⟩, by decide, by decide⟩

theorem witness_BranchResults :
    (Runs (onSheet (based 0xFFFC)) 5 0 ∧ (((before (onSheet (based 0xFFFC)) 5 0 [1] [31]).core 5).gx 1 + 0).toNat % 4 = 0) ∧
    (Runs (onSheet (based 0xFFFD)) 5 0 ∧ (((before (onSheet (based 0xFFFD)) 5 0 [1] [31]).core 5).gx 1 + 0).toNat % 4 ≠ 0) :=
  ⟨⟨⟨by decide, by decide, by decide, by decide, by decide, by decide⟩, by decide⟩,
   ⟨by decide, by decide, by decide, by decide, by decide, by decide⟩, by decide⟩

/-- A register of the core, one of a coprocessor that it lacks, and one that needs supervisor mode. -/
theorem witness_SystemRegisterReads : Runs (onSheet core0) 5 0 ∧ Runs onChief 0 0 ∧ assigned 0 0x200 = true ∧ absentCp 0 0x200 = true ∧
    assigned 5 1 = true ∧ absentCp 5 1 = false ∧ Super (onSheet core0) 5 0 := ⟨runs_sheet, runs_chief, by decide, by decide, by decide, by decide, rfl⟩
theorem witness_SystemRegisterWrites : Runs (onSheet core0) 5 0 ∧ assigned 5 0x20 = true ∧ absentCp 5 0x20 = false ∧
    assigned 5 5 = true ∧ absentCp 5 5 = false ∧ Super (onSheet core0) 5 0 := ⟨runs_sheet, by decide, by decide, by decide, by decide, rfl⟩

theorem witness_SystemInstructions : Runs (onSheet core0) 5 0 ∧ Super (onSheet core0) 5 0 ∧
    (∀ n : BitVec 3, n ≠ 0 → (((((onSheet core0).settleCore 5).waitGuards 5 [1, 2, 3, 4, 5, 6, 7]).core 5).init.getLsbD n.toNat) = true) ∧
    (((onSheet core0).atGuard 5 0).core 5).ie = false ∧ ((onSheet core0).atGuard 5 0).eventPending 5 = false :=
  ⟨runs_sheet, rfl, by decide, by decide, by decide⟩

/-- An event is pending for a core with interrupts off. -/
theorem witness_WfiGoesOn :
    let s := { onSheet core0 with events := { EventCtl.reset with
        routes := [(3, { IntRoute.reset with target := 2, pending := true })] }, cores := [(1, core0)] }
    Runs s 1 0 ∧ Super s 1 0 ∧ ((s.atGuard 1 0).core 1).ie = false ∧ (s.atGuard 1 0).eventPending 1 = true :=
  ⟨⟨by decide, by decide, by decide, by decide, by decide, by decide⟩, rfl, by decide, by decide⟩

theorem witness_ExceptionEntry : ((onSheet core0).core 5).recov = false ∧ ((onSheet core0).core 5).exl = false := by decide
theorem witness_RecoveryEntry :
    (((onSheet { core0 with exl := true }).core 5).recov = false ∧ ((onSheet { core0 with exl := true }).core 5).exl = true) ∧
    ((onSheet { core0 with recov := true }).core 5).recov = true ∧ (onSheet core0).working (coreUnit 5) = true := by decide

theorem witness_TrapsAndIllegalWords :
    Runs (onSheet core0) 5 0 ∧ (onSheet core0).wordLegal 5 0x1C000000 = false ∧
    (∃ n : BitVec 3, n ≠ 0 ∧ ((((onSheet { core0 with init := 1 }).settleCore 5).waitGuards 5 [1, 2, 3, 4, 5, 6, 7]).core 5).init.getLsbD n.toNat = false) ∧
    fetchOk 5 ((onSheet { core0 with init := 1 }).core 5).pc = true :=
  ⟨runs_sheet, by decide, by decide, by decide⟩

theorem witness_FalseGuardHasNoEffect : guarded (.add 5 1 true 1 2 3) = some (5, 1) ∧ legalForm (onSheet core0) (.add 5 1 true 1 2 3) ∧
    ((onSheet core0).core 5).held = false ∧ fetchOk 5 ((onSheet core0).core 5).pc = true ∧
    (((onSheet core0).atGuard 5 1).core 5).takes 1 = false := ⟨rfl, ⟨(by intro f h; cases h), True.intro⟩, by decide, by decide, by decide⟩

theorem witness_TaskModeRaisesPriv : ∃ w, privWord (.eret 5 0) = some (5, 0, w) ∧ Runs (onSheet { core0 with priv := false }) 5 0 ∧
    (((onSheet { core0 with priv := false }).atGuard 5 0).core 5).priv = false ∧
    legalForm (onSheet { core0 with priv := false }) (.eret 5 0) :=
  ⟨_, rfl, ⟨by decide, by decide, by decide, by decide, by decide, by decide⟩, by decide, ⟨(by intro f h; cases h), True.intro⟩⟩

/-- The region core 1 with a source of priority 15 presented, the highest number below CURPRIO 16. -/
def presenting : State :=
  { ready with
    cores := [(1, { core0 with ie := true })]
    events := { EventCtl.reset with
      routes := [(3, { IntRoute.reset with target := 2, prio := 15, pending := true })] } }

theorem witness_InterruptAcceptance : presenting.presented 1 = some (15, 3) ∧ (presenting.core 1).held = false ∧
    (presenting.core 1).ie = true ∧ (presenting.core 1).exl = false ∧ 15 < (presenting.core 1).curPrio.toNat := by decide

theorem witness_EndOfInterrupt :
    let s := { presenting with events := { EventCtl.reset with routes := [(3, { IntRoute.reset with active := true, activeOn := 1 })] } }
    (s.route ((0x703#11).toNat - 0x700)).active = true ∧ (s.route 3).activeOn = 1 ∧ (s.core 1).held = false ∧
    (s.route ((0x704#11).toNat - 0x700)).active = false := by decide

theorem witness_CoreWatchdog : ∀ c ∈ [0, 1, 5], (({ ready with cores := [(c, { core0 with wdog := 1 })] } : State).core c).wdog ≠ 0 ∧
    (({ ready with cores := [(c, { core0 with wdog := 1 })] } : State).core c).wdogFrom + 1 ≤ ready.now ∧ ready.working 0 = true := by decide

/-- Plain exceptions of a sheet core; a sheet that runs an operation, an engine that does, and the control window of the log. -/
theorem witness_TrapsAndErrorsComplete :
    (Runs (onSheet core0) 5 0 ∧ (((onSheet core0).atGuard 5 0).core 5).recov = false ∧ (((onSheet core0).atGuard 5 0).core 5).exl = false) ∧
    (Excepts (onSheet core0) 5 ∧ fetchOk 5 ((onSheet core0).core 5).pc = true ∧ (onSheet core0).wordLegal 5 0x1C000000 = false) ∧
    (∀ u ∈ [3, 16], let s := { ready with units := [(u, { UnitSt.reset with job := .op 7, ends := 2000 })] }
      s.serving = true ∧ s.busyUnit u = true ∧ s.jobFree u = false ∧ unitKind u < 2) ∧ unitKind 3 = 0 ∧ unitKind 16 = 1 ∧ 2047 < 2048 :=
  ⟨⟨runs_sheet, by decide, by decide⟩, ⟨⟨by decide, by decide, by decide, by decide, by decide, by decide⟩, by decide, by decide⟩,
   by decide, by decide, by decide, by decide⟩

theorem witness_UncorrectableErrors : (onSheet core0).issuing 5 = true ∧ (onSheet core0).serving = true ∧
    unitKind 0 = 0 ∧ unitKind 16 = 1 ∧ unitKind 20 = 2 ∧ unitKind 103 = 3 := by decide

/-! ## Witnesses: coprocessors and long vectors -/

/-- Sheet core 5 with all control stores loaded, and without. -/
def loaded (k : Core) : State :=
  { onSheet k with start := { ready.start with image := { ImageInfo.reset with locked := 15, stores := List.replicate 5 (List.replicate 512 0) } } }

theorem runs_loaded : Runs (loaded core0) 5 0 := ⟨by decide, by decide, by decide, by decide, by decide, by decide⟩

theorem witness_CoprocessorIssue :
    (∃ f, cpForm (.kpSel 5 0 3 1) = some f ∧ Runs (loaded core0) f.c f.g ∧ Super (loaded core0) f.c f.g ∧ present f.c f.p ∧
      (loaded core0).entryLoaded f.p f.fn = true) ∧
    (∃ f, cpForm (.nttFwd 0 0 1) = some f ∧ Runs onChief f.c f.g ∧ (f.p ≠ 4 ∧ f.p ≠ 6) ∧ ¬ present f.c f.p) ∧
    (∃ f, cpForm (.nttFwd 5 0 1) = some f ∧ f.c < 69 ∧ ((onSheet core0).core f.c).held = false ∧ present f.c f.p ∧
      (onSheet core0).entryLoaded f.p f.fn = false ∧ fetchOk f.c ((onSheet core0).core f.c).pc = true) :=
  ⟨⟨_, rfl, runs_loaded, rfl, Or.inl ⟨by decide, by decide⟩, rfl⟩,
   ⟨_, rfl, runs_chief, by decide, by unfold present; decide⟩,
   ⟨_, rfl, by decide, by decide, Or.inl ⟨by decide, by decide⟩, rfl, by decide⟩⟩

/-- A command of the random port that waits, first behind no fault and then behind one. -/
def oneCp (f : Option Nat) : Core :=
  { core0 with cps := [(5, { queue := [{ seq := 0, issued := 0, fn := 2, rd := 0, a := 0, b := 0, vl := 0, cfg := [] }], fault := f, freeAt := 0 })] }

theorem witness_CoprocessorStatus : Runs (onSheet core0) 5 0 ∧ Runs onChief 0 0 ∧ present 5 5 ∧ ¬ present 0 5 ∧
    (((before (onSheet (oneCp none)) 5 0 [] [3]).core 5).cp 5).fault = none ∧
    (((before (onSheet (oneCp (some 2))) 5 0 [] [3]).core 5).cp 5).fault = some 2 :=
  ⟨runs_sheet, runs_chief, by unfold present; decide, by unfold present; decide, by decide, by decide⟩

theorem witness_CoprocessorCompletion :
    (∃ m, ((onSheet (oneCp none)).core 5).cpNext 5 = some (5, m) ∧ (((onSheet (oneCp none)).core 5).cp 5).fault = none) ∧
    (∃ m, ((onSheet (oneCp (some 2))).core 5).cpNext 5 = some (5, m) ∧ (((onSheet (oneCp (some 2))).core 5).cp 5).fault.isSome = true) :=
  ⟨⟨_, rfl, rfl⟩, ⟨_, rfl, rfl⟩⟩

/-- VL 256, an odd modulus, and element 0 of v1 at the greatest signed word. -/
def vectors : Core := { core0 with vl := 256, qmod := 3329, v := [(256, 0x7FFFFFFF)] }

theorem witness_VectorResults : ∃ f, vecForm (.vsatS 5 0 3 1 7 0) = some f ∧ 5 ≤ f.c ∧ Runs (onSheet vectors) f.c f.g ∧
    (((beforeVec (onSheet vectors) f.c f.g f.xr [] (f.vd.toNat :: f.srcs)).core f.c).vecWait f.shape).ahead.vl ≤ 256 ∧
    isActive vectors 0 255 :=
  ⟨_, rfl, by decide, ⟨by decide, by decide, by decide, by decide, by decide, by decide⟩, by decide, by unfold isActive; decide⟩

theorem witness_VectorCompares : ∃ f, cmpForm (.vcmplt 5 0 false 7 1 2 0) = some f ∧ 5 ≤ f.c ∧ Runs (onSheet vectors) f.c f.g ∧
    (((beforeVec (onSheet vectors) f.c f.g [] [] (f.vs1.toNat :: [f.vs2.toNat])).core f.c).vecWait f.shape).ahead.vl ≤ 256 :=
  ⟨_, rfl, by decide, ⟨by decide, by decide, by decide, by decide, by decide, by decide⟩, by decide⟩

/-- VL 0 and VL 256. -/
theorem witness_VectorLengthAndExtract : Runs (onSheet core0) 5 0 ∧ Runs (onSheet vectors) 5 0 :=
  ⟨runs_sheet, ⟨by decide, by decide, by decide, by decide, by decide, by decide⟩⟩

/-- Two elements at x1, at the end of the sheet's SRAM and one element beyond it. -/
def pairAt (a : BitVec 64) : Core := { (based a) with vl := 2 }

theorem runs_last : Runs (onSheet (pairAt 0x23FFF8)) 5 0 := ⟨by decide, by decide, by decide, by decide, by decide, by decide⟩
theorem runs_past : Runs (onSheet (pairAt 0x240000)) 5 0 := ⟨by decide, by decide, by decide, by decide, by decide, by decide⟩

theorem witness_VectorLoads : ∃ f, vmemForm (.vld 5 0 2 3 1 0 0) = some f ∧ f.store = false ∧ Runs (onSheet (pairAt 0x23FFF8)) f.c f.g ∧
    let a := (f.waited (beforeVec (onSheet (pairAt 0x23FFF8)) f.c f.g f.xr [] f.vr)).ahead
    a.vl = 2 ∧ f.access ((beforeVec (onSheet (pairAt 0x23FFF8)) f.c f.g f.xr [] f.vr).core f.c) ≠ .strided ∧
    (f.addr a 0).toNat = 0x23FFF8 ∧ (f.addr a 1).toNat = 0x23FFFC :=
  ⟨_, rfl, rfl, runs_last, by decide⟩

theorem witness_VectorStores : ∃ f, vmemForm (.vst 5 0 2 3 1 0 0) = some f ∧ f.store = true ∧ Runs (onSheet (pairAt 0x23FFF8)) f.c f.g ∧
    let a := (f.waited (beforeVec (onSheet (pairAt 0x23FFF8)) f.c f.g f.xr [] f.vr)).ahead
    a.vl = 2 ∧ (f.addr a 0).toNat = 0x23FFF8 ∧ (f.addr a 1).toNat = 0x23FFFC :=
  ⟨_, rfl, rfl, runs_last, by decide⟩

/-- The first element fails, and the second after a first that does not. -/
theorem witness_VectorFaults :
    (∃ f, vmemForm (.vld 5 0 2 3 1 0 0) = some f ∧ f.ff = false ∧ Runs (onSheet (pairAt 0x240000)) f.c f.g ∧
      let a := (f.waited (beforeVec (onSheet (pairAt 0x240000)) f.c f.g f.xr [] f.vr)).ahead
      isActive a f.vm 0 ∧ (f.addr a 0).toNat = 0x240000) ∧
    (∃ f, vmemForm (.vgatherFf 5 0 2 3 1 2 0) = some f ∧ f.ff = true ∧
      let k := { pairAt 0x23FFFC with v := [(513, 1)] }
      let a := (f.waited (beforeVec (onSheet k) f.c f.g f.xr [] f.vr)).ahead
      isActive a f.vm 0 ∧ isActive a f.vm 1 ∧ (f.addr a 0).toNat = 0x23FFFC ∧ (f.addr a 1).toNat = 0x240000) :=
  ⟨⟨_, rfl, rfl, runs_past, by unfold isActive; decide⟩, ⟨_, rfl, rfl, by unfold isActive; decide⟩⟩

theorem witness_BeatsLeave : ((onSheet core0).core 5).waiting = false ∧ ((onSheet core0).core 5).halted = false ∧
    ∃ b, b ∈ ((onSheet { core0 with
      waiting := true
      beats := [{ leave := 7, pipe := .valu, unitLoad := false, idx := 0, reg := 3, elems := [(0, 1)], issue := 0 }] }).core 5).beats ∧
      b.leave = 7 := ⟨rfl, rfl, _, List.mem_singleton.mpr rfl, rfl⟩

theorem witness_IllegalForms : (∃ w, illegalWord (.padd 5 0 3 1 2 3) = some (5, w)) ∧ (∃ w, illegalWord (.vadd 4 0 false 1 2 3 0) = some (4, w)) ∧
    (∃ w, illegalWord (.vcomp 5 0 1 2 13 0) = some (5, w)) ∧ illegalWord (.vcomp 5 0 1 2 12 0) = none ∧
    ((onSheet core0).core 5).held = false ∧ fetchOk 5 ((onSheet core0).core 5).pc = true :=
  ⟨⟨_, rfl⟩, ⟨_, rfl⟩, ⟨_, rfl⟩, rfl, rfl, by decide⟩

theorem witness_StoppedCore : guarded (.add 5 0 true 1 2 3) = some (5, 0) ∧ ((onSheet Core.reset).core 5).held = true ∧
    ((onSheet Core.reset).core 5).waiting = false ∧ ((onSheet { core0 with waiting := true, ie := true }).core 5).ie = true := by decide

theorem witness_QuietCore : (core0.mulq = [] ∧ core0.beats = [] ∧ core0.loadAt ≤ core0.cycle) ∧ ∀ p, (core0.cp p).queue = [] :=
  ⟨by decide, fun _ => rfl⟩

/-! ## Witnesses: commands, slices, the datum, queues -/

/-- A context of queue 0 with an opcode and a payload, accepted before the present boundary. -/
def cmd (o : Nat) (p : Bytes) : Ctx :=
  { newCtx ready (newQueue 0 0 true 0 6 6 0 0 0) 0 (hdrOf []) with opcode := o, payload := p, accepted := 999, outLimit := 65536, flags := 0 }

/-- READY with command 7 in context 7. -/
def holding (c : Ctx) : State := { ready with ctxs := [(7, c)] }

theorem may (o : Nat) (p : Bytes) : MayRun (holding (cmd o p)) 7 o (cmd o p) :=
  ⟨⟨rfl, rfl, rfl, by show 999 < 1000; decide, rfl, rfl, rfl, rfl⟩, by
    have h : (cmd o p).timeBound = false := by show Nat.testBit 0 4 = false; decide
    simp [State.deadlineTest, h]⟩

/-- One part of a command, on unit 3. -/
def onUnit3 (ph : PartPhase) : Part := { mkPart 0 0 0x00100001 10 5 0 0 with phase := ph, unit := some 3, ends := 900 }

/-- Command 7 has launched all its parts and has no result yet. -/
def launched (o : Nat) (p : Bytes) (ph : PartPhase) : Ctx := { cmd o p with phase := .running, parts := [onUnit3 ph] }

theorem launched_ok (o : Nat) (p : Bytes) (ph : PartPhase) (h : o = 0x1A01 → ∃ q ∈ [onUnit3 ph], q.stage = 2 := by decide) : Launched (launched o p ph) :=
  ⟨rfl, by show Nat.testBit 0 0 = false; decide, rfl, fun q h => by rw [List.mem_singleton.mp h]; rfl, h, Or.inr ⟨_, List.mem_singleton.mpr rfl, rfl⟩⟩

theorem witness_SchemeResults : ∃ r, schemeResult (.slhdsaKeygen 7) = some r ∧
    (holding (launched 0x1201 [] .running)).ctxs.find r.ctx = some (launched 0x1201 [] .running) ∧
    (launched 0x1201 [] .running).opcode = r.opcode ∧ Launched (launched 0x1201 [] .running) ∧
    (launched 0x1201 [] .running).result = none ∧ ∃ p ∈ (launched 0x1201 [] .running).parts, p.phase ≠ .passed :=
  ⟨_, rfl, rfl, rfl, launched_ok _ _ _, rfl, _, List.mem_singleton.mpr rfl, by decide⟩

theorem witness_VerifyBearing : (holding (launched 0x1A03 [] .running)).ctxs.find 7 = some (launched 0x1A03 [] .running) ∧
    (launched 0x1A03 [] .running).opcode = 0x1A03 ∧ Launched (launched 0x1A03 [] .running) := ⟨rfl, rfl, launched_ok _ _ _⟩

/-- Slice 1 with one live key in slot 5 at generation 2, of set ML-KEM-768. -/
def key5 : Nat := 1 * 2 ^ 48 + 5 * 2 ^ 24 + 2
def kemKey : Slot := (Slot.empty 2 .live).withKey [] key5 0 0 0 { policyOf [] with param := 0x00100002 } [1]
def keyed (s : State) : State :=
  { s with
    keys := { s.keys with slots := [(slotKey key5, kemKey)] }
    slices := [(1, newSlice 0 7 65536 65536 1 4 1 4 64 16 1024 0 0)] }

theorem witness_ServiceResults : (∃ r, serviceResult (.ecKeygen 7) = some r ∧ r.opcode = 0x2001 ∧ r.ctx = 7) ∧
    Launched (launched 0x4005 [] .running) ∧
    (keyed (holding { launched 0x4005 [] .running with keyA := key5 })).keys.slots.find (slotKey key5) = some kemKey ∧
    Launched (launched 0x4007 [] .running) ∧ Launched (launched 0x4009 [] .running) ∧
    (holding (launched 0x4009 [] .running)).receiveOf (launched 0x4009 [] .running) = none ∧
    ∃ e, ({ holding (launched 0x4009 [] .running) with
      keys := { KeyStore.reset with receives := [{ id := 0, slice := 0, parent := 9, opened := 500, seed := [] }] } }).receiveOf
        (launched 0x4009 [] .running) = some e :=
  ⟨⟨_, rfl, rfl, rfl⟩, launched_ok _ _ _, rfl, launched_ok _ _ _, launched_ok _ _ _, by decide, ⟨_, rfl⟩⟩

/-- A time-bound command whose deadline is V + U, and one nanosecond later; and an untrusted datum. -/
def bound (d : Nat) : Ctx := { cmd 0x5001 [] with flags := 16, deadline := d }

theorem witness_DeadlineDecides : coreCommand (.randomBytes 7) = some (7, 0x5001) ∧
    AtTurn (holding (bound 5000001000)) 7 0x5001 (bound 5000001000) ∧ (bound 5000001000).timeBound = true ∧
    (bound 5000001000).deadline ≤ (holding (bound 5000001000)).datum.v + (holding (bound 5000001000)).unc ∧
    (holding (bound 5000001001)).datum.v + (holding (bound 5000001001)).unc < (bound 5000001001).deadline ∧
    (0x5001 ∉ [0x6003, 0x5002, 0x1A04, 0x4003, 0x4004]) ∧
    AtTurn ({ holding (bound 1) with datum := Datum.reset }) 7 0x5001 (bound 1) :=
  ⟨rfl, ⟨rfl, rfl, rfl, by decide, rfl, rfl, by decide, by decide⟩, by decide, by decide, by decide, by decide,
   ⟨rfl, rfl, rfl, by decide, rfl, rfl, by decide, by decide⟩⟩

/-- A command that waits; one whose parts have passed with a result, a failure, and a deposit into its reserved slot. -/
theorem witness_CommandsEnd :
    (let c := cmd 0x5002 []
     (holding c).ctxs.find 7 = some c ∧ c.phase.decided = false ∧ c.drop = false ∧ c.stream = 0 ∧ c.reserved = none) ∧
    (let c := { launched 0x1201 [] .passed with result := some (Result.output [1, 2]) }
     c.phase = .running ∧ c.cont = false ∧ (∀ p ∈ c.parts, p.phase = .passed) ∧ (∃ p ∈ c.parts, p.slab = false) ∧
     c.bearingEnd = none ∧ c.reserved = none ∧ c.batch = false ∧ chiefVerifies c.opcode = false) ∧
    (let c := { launched 0x1201 [] .passed with result := some (Result.output [1, 2]), reserved := some key5 }
     c.reserved = some key5 ∧ c.orphaned = false ∧ 2 + 8 ≤ c.outLimit) ∧
    ∃ p ∈ (launched 0x1201 [] .running).parts, p.phase ≠ .passed := by decide

theorem witness_CoreAnswers :
    (∃ f, coreAnswer (.datumRead 7) = some (7, 0x6003, f)) ∧ MayRun (holding (cmd 0x6003 [])) 7 0x6003 (cmd 0x6003 []) ∧
    (∃ f, chiefAnswer (.lmsPublic 7) = some (7, 0x1304, f)) ∧ MayRun (holding (cmd 0x1304 [])) 7 0x1304 (cmd 0x1304 []) ∧
    (holding (cmd 0x1304 [])).keyTests (cmd 0x1304 []) = .ok (holding (cmd 0x1304 [])) ∧
    (keyed (holding (cmd 0x4003 []))).liveKey key5 = some kemKey ∧
    (keyed (holding (cmd 0x4003 []))).chargeSlice 0x4003 0 = .ok (keyed (holding (cmd 0x4003 []))) ∧
    MayRun (holding (cmd 0x400A [])) 7 0x400A (cmd 0x400A []) :=
  ⟨⟨_, rfl⟩, may _ _, ⟨_, rfl⟩, may _ _, rfl, rfl, rfl, may _ _⟩

/-- KEY_INFO and KEY_DESTROY of a live key, and ANCHOR_DROP of an anchor. -/
theorem witness_KeyCommands :
    let c := fun o => { cmd o [] with keyA := key5 }
    MayRun (keyed (holding (c 0x4003))) 7 0x4003 (c 0x4003) ∧ MayRun (keyed (holding (c 0x4004))) 7 0x4004 (c 0x4004) ∧
    (keyed (holding (c 0x4004))).keys.bumps = [] :=
  ⟨⟨⟨rfl, rfl, rfl, by decide, rfl, rfl, by decide, by decide⟩, by decide⟩,
   ⟨⟨rfl, rfl, rfl, by decide, rfl, rfl, by decide, by decide⟩, by decide⟩, rfl⟩

def anchored : State :=
  { holding (cmd 0x1A04 (List.replicate 32 3)) with
    keys := { KeyStore.reset with
      anchors := [{ slice := 0, id := List.replicate 32 3, root := [], batchId := 0, leafCount := 1, treeHash := 0, digestLen := 32
                    start := 0, stop := 0, dropped := false }] } }

theorem witness_AnchorDrop : MayRun anchored 7 0x1A04 (cmd 0x1A04 (List.replicate 32 3)) ∧
    (anchored.anchor 0 ((cmd 0x1A04 (List.replicate 32 3)).payload.take 32)).isSome = true :=
  ⟨⟨⟨rfl, rfl, rfl, by decide, rfl, rfl, by decide, by decide⟩, by decide⟩, by decide⟩

/-- All 13 instances seeded, the source running. -/
def seeded (s : State) : State :=
  { s with rng := { s.rng with stage := .running, drbgs := (List.range 13).map fun d => (d, { Drbg.reset with seeded := true }) } }

theorem witness_RandomBytesServed :
    (let s := seeded (holding (cmd 0x5001 [16, 0, 0, 0, 0, 0, 0, 0]))
     MayRun s 7 0x5001 (cmd 0x5001 [16, 0, 0, 0, 0, 0, 0, 0]) ∧ s.serves 5 = true ∧ s.rngHalted = false) ∧
    (let s := holding (cmd 0x5001 [16, 0, 0, 0, 1, 0, 0, 0])
     s.serves 5 = false ∧ s.inHand 7 = false ∧ s.rngHalted = false) :=
  ⟨⟨⟨⟨rfl, rfl, rfl, by decide, rfl, rfl, by decide, by decide⟩, by decide⟩, by decide, by decide⟩, by decide, by decide, by decide⟩

/-- The payload of SLICE_CREATE for slice 1, with rings of 64 cells. -/
def createBytes : Bytes :=
  le 2 1 ++ le 2 0 ++ le 4 7 ++ le 8 65536 ++ le 8 65536 ++ le 2 4 ++ le 2 1 ++ le 4 64 ++ le 4 16 ++ le 4 1024 ++ le 2 1 ++ le 2 4 ++
  le 4 0 ++ le 8 0 ++ le 1 6 ++ le 1 6 ++ le 2 0 ++ le 4 0 ++ le 8 4096 ++ le 8 8

theorem witness_SliceCreate : SliceTurn (holding (cmd 0x0101 createBytes)) 7 0x0101 1 (cmd 0x0101 createBytes) ∧
    (holding (cmd 0x0101 createBytes)).createLegal createBytes = true ∧ (holding (cmd 0x0101 createBytes)).freeQueue = some 1 ∧
    (holding (cmd 0x0101 createBytes)).sharesFit 1 16 1024 = true ∧
    ∃ k < 4, (holding (cmd 0x0101 createBytes)).regionRetired k = false :=
  ⟨⟨may _ _, by decide, by decide⟩, by decide, by decide, by decide, 0, by decide, by decide⟩

/-- Slice 1 in a state, with its administration queue 1, and command 7 of queue 0. -/
def slice1 (st : SliceState) : Slice := { newSlice 1 7 65536 65536 1 4 1 4 64 16 1024 0 0 with st := st, adminQueue := 1 }
def queue1 : Queue := newQueue 1 0 true 65536 6 6 1 4096 8
def sliced (st : SliceState) (c : Ctx) : State :=
  { ready with ctxs := [(7, c)], slices := [(1, slice1 st)], queues := [(1, queue1)] }

theorem turn (st : SliceState) (o : Nat) (p : Bytes) (h : uAt p 0 2 = 1) : SliceTurn (sliced st (cmd o p)) 7 o 1 (cmd o p) :=
  ⟨⟨⟨rfl, rfl, rfl, by show 999 < 1000; decide, rfl, rfl, rfl, rfl⟩, by
    have h : (cmd o p).timeBound = false := by show Nat.testBit 0 4 = false; decide
    simp [State.deadlineTest, h]⟩, h, by
    simp only [State.sliceTurn, sliced, cmd, Tab.vals, List.map, List.any]; simp⟩

/-- Every share kept as it is. -/
def keepBytes : Bytes := le 2 1 ++ le 2 0xFFFF ++ le 2 0xFFFF ++ le 2 0 ++ List.replicate 16 255 ++ le 8 0

theorem witness_SliceAdministration :
    SliceTurn (sliced .active (cmd 0x0102 keepBytes)) 7 0x0102 1 (cmd 0x0102 keepBytes) ∧ zeroAt keepBytes 6 2 = true ∧
    zeroAt keepBytes 0x18 8 = true ∧ (sliced .active (cmd 0x0102 keepBytes)).slotsUsed 1 ≤ 16 ∧
    (sliced .active (cmd 0x0102 keepBytes)).sharesFit 1 16 1024 = true ∧
    SliceTurn (sliced .frozen (cmd 0x0108 (le 8 1))) 7 0x0108 1 (cmd 0x0108 (le 8 1)) ∧ zeroAt (le 8 1) 2 6 = true ∧
    SliceTurn (sliced .active (cmd 0x010A (le 8 1))) 7 0x010A 1 (cmd 0x010A (le 8 1)) ∧
    SliceTurn (sliced .active (cmd 0x0120 (le 8 1))) 7 0x0120 1 (cmd 0x0120 (le 8 1)) ∧
    MayRun (sliced .active { cmd 0x0203 [] with slice := 1 }) 7 0x0203 { cmd 0x0203 [] with slice := 1 } :=
  ⟨turn _ _ _ (by decide), by decide, by decide, by decide, by decide, turn _ _ _ (by decide), by decide,
   turn _ _ _ (by decide), turn _ _ _ (by decide), ⟨⟨rfl, rfl, rfl, by decide, rfl, rfl, by decide, by decide⟩, by decide⟩⟩

/-- QP_CREATE of a second pair behind the first, QP_DESTROY of it, and a pair that is quiet. -/
def qpBytes : Bytes := le 4 8192 ++ le 1 6 ++ le 1 6 ++ le 2 1 ++ le 8 8192 ++ le 8 8 ++ le 8 0
def ofSlice1 (o : Nat) (p : Bytes) : Ctx := { cmd o p with slice := 1, q := 1 }

theorem witness_QueuePairs :
    MayRun (sliced .active (ofSlice1 0x0201 qpBytes)) 7 0x0201 (ofSlice1 0x0201 qpBytes) ∧
    (sliced .active (ofSlice1 0x0201 qpBytes)).qpLegal 1 (slice1 .active) qpBytes = true ∧
    ((sliced .active (ofSlice1 0x0201 qpBytes)).queuesOf 1).length - 1 < (slice1 .active).maxQp ∧
    (let s := { sliced .active (ofSlice1 0x0202 (le 8 2)) with queues := [(1, queue1), (2, { queue1 with admin := false })] }
     MayRun s 7 0x0202 (ofSlice1 0x0202 (le 8 2)) ∧ uAt (le 8 2) 0 2 ≤ 4095 ∧ zeroAt (le 8 2) 2 6 = true ∧
     (s.queues.find 2).map Queue.slice = some 1) ∧
    (let x := { queue1 with st := QueueState.shutting, destroyer := some 7 }
     let s := { sliced .active (ofSlice1 0x0202 (le 8 2)) with queues := [(2, x)] }
     s.queueQuiet 2 x = true ∧ s.unsettled = false) :=
  ⟨⟨⟨rfl, rfl, rfl, by decide, rfl, rfl, by decide, by decide⟩, by decide⟩, by decide, by decide,
   ⟨⟨⟨rfl, rfl, rfl, by decide, rfl, rfl, by decide, by decide⟩, by decide⟩, by decide, by decide, by decide⟩, by decide, by decide⟩

theorem witness_SliceSequences :
    SliceTurn (sliced .active (cmd 0x0104 (le 8 0x30001))) 7 0x0104 1 (cmd 0x0104 (le 8 0x30001)) ∧
    uAt (le 8 0x30001) 2 2 < 4 ∧ zeroAt (le 8 0x30001) 4 4 = true ∧
    SliceTurn (sliced .active (cmd 0x0105 (le 8 0x10001))) 7 0x0105 1 (cmd 0x0105 (le 8 0x10001)) ∧ (slice1 .active).locked = false ∧
    SliceTurn (sliced .exported (cmd 0x0103 (le 8 1))) 7 0x0103 1 (cmd 0x0103 (le 8 1)) ∧
    (∀ st ∈ [SliceState.resetting, .freezing, .destroying],
      let y := { slice1 st with admin := some 7 }
      let s := { sliced st (cmd 0x0104 (le 8 1)) with slices := [(1, y)] }
      s.slices.find 1 = some y ∧ s.sliceQuiet 1 = true ∧ s.unsettled = false ∧ ∀ p ∈ s.slices, p.2.admin = some 7 → p = (1, y)) :=
  ⟨turn _ _ _ (by decide), by decide, by decide, turn _ _ _ (by decide), by decide, turn _ _ _ (by decide), by decide⟩

/-- The body that an export of slice 1 seals is one that an import reads. -/
theorem witness_Migration :
    (let s := seeded (holding (cmd 0x0109 (le 8 1)))
     MayRun s 7 0x0109 (cmd 0x0109 (le 8 1)) ∧ s.drawState 4 = .serves ∧ s.slices.find 1 = none) ∧
    (slice1 .frozen).flags.testBit 0 = true ∧ (slice1 .frozen).imported = false ∧
    (let body := (sliced .frozen (cmd 0x0106 [])).exportBody 1 (slice1 .frozen)
     (splitRecords (body.length / 8 + 1) body).map (fun l => recordsOk l && uAt ((recsOf l 1).headD []) 0 2 == 1 &&
       ready.importFits 1 (le 2 0 ++ le 2 0 ++ le 4 7 ++ le 8 65536 ++ le 8 65536 ++ le 2 1 ++ le 2 4 ++ le 4 9)
         ((recsOf l 1).headD []) (recsOf l 2).length) = some true) :=
  ⟨⟨⟨⟨rfl, rfl, rfl, by decide, rfl, rfl, by decide, by decide⟩, by decide⟩, by decide, rfl⟩, by decide, rfl, by decide +kernel⟩

/-! ## Witnesses: boundaries, rings, launches -/

theorem witness_TickBoundary :
    (let s := holding (bound 5000002000)
     s.start.vddGood = true ∧ s.unsettled = false ∧ s.start.grat = true ∧ s.datum.st = .trusted ∧ s.datum.tokens = [] ∧
     s.datum.refine = [] ∧ s.keys.bumps = [] ∧ (s.datum.since + 1) % 50 ≠ 0 ∧ s.blocked (bound 5000002000) = false ∧
     noDatumTest (bound 5000002000).opcode = false ∧ (bound 5000002000).timeBound = true) := by decide

theorem witness_Holdover : ({ ready with datum := { ready.datum with widenDue := true } } : State).datum.widenDue = true ∧
    (({ ready with datum := { ready.datum with chal := some ([], 0) }, now := 10000000 } : State).datum.chal = some ([], 0) ∧
     0 + 10000000 ≤ ({ ready with now := 10000000 } : State).now ∧ ({ ready with now := 9999999 } : State).now < 0 + 10000000) := by decide

theorem witness_PhaseRefinement :
    (let s := { ready with datum := { ready.datum with ppsEn := true, ptmEn := true, lastPps := some 0, lastPtmTry := some 0 } }
     s.start.grat = true ∧ s.datum.ppsEn = true ∧ s.datum.ptmEn = true ∧ s.datum.lastPps = some 0 ∧ s.datum.lastPtmTry = some 0) ∧
    (let r : Refine := { pps := true, target := 5000000400, sample8 := 40000000000, accepted := 999 }
     let s := { ready with datum := { ready.datum with refine := [r] } }
     s.datum.refine = r :: [] ∧ r.accepted < s.now ∧ s.datum.widenDue = false ∧ s.datum.tokens = [] ∧
     s.datum.st = .trusted ∧ r.sample8 < 8 * r.target ∧ r.target ≤ s.datum.hi) := by decide

/-- An authority is enrolled and a challenge is open. -/
def challenged : State :=
  { holding (cmd 0x6001 []) with datum := { ready.datum with chal := some (List.replicate 16 7, 900), authKeys := [[1]] } }

/-- A token for the open challenge: sequence 1, time 5 s, 100 ns wide. -/
def token : Bytes :=
  le 2 1 ++ le 2 0 ++ le 4 0 ++ le 8 1 ++ le 8 5000000000 ++ le 4 100 ++ le 4 0 ++ List.replicate 16 7 ++ List.replicate 3309 0

/-- The token is good where its signature is. -/
theorem witness_TokenGood (h : mldsaOk 0x00110002 (challenged.datum.authKeys.getD (uAt token 0x04 4) []) (ascii "MAELARN-DATUM")
    (bytesAt token 0 0x30) (token.drop 0x30) = true) : TokenGood challenged.datum token :=
  ⟨by decide +kernel, ⟨by decide +kernel, by decide +kernel⟩, by decide +kernel, by decide +kernel, by decide +kernel,
   ⟨900, by decide +kernel⟩, by decide +kernel, (fun k hk => by cases hk), ⟨by decide +kernel, by decide +kernel⟩, h⟩

theorem witness_ChallengesAndTokens : (seeded challenged).drawState 4 = .serves ∧
    MayRun challenged 7 0x6001 (cmd 0x6001 []) ∧ SmbDatum challenged ∧ token.length = 3357 ∧ challenged.datum.tokens = [] ∧
    MayRun (holding (cmd 0x6002 token)) 7 0x6002 (cmd 0x6002 token) ∧ ¬ TokenGood challenged.datum (List.replicate 3357 0) :=
  ⟨by decide, ⟨⟨rfl, rfl, rfl, by decide, rfl, rfl, by decide, by decide⟩, by decide⟩, ⟨rfl, rfl, Or.inr rfl, rfl⟩,
   by decide +kernel, rfl, may _ _, fun h => absurd h.version (by decide +kernel)⟩

theorem witness_TokenApplies :
    let k : Token := { seq := 1, time := 5000000000, unc := 100, keyId := 0, issued := 900, accepted := 999, ctx := some 7, chal := [] }
    let s := { ready with datum := { ready.datum with tokens := [k] } }
    s.datum.tokens = k :: [] ∧ k.accepted < s.now ∧ s.datum.widenDue = false := by decide

/-- A queue of 64 cells with one cell to consume and one completion written. -/
def busyQueue : Queue := { newQueue 0 0 true 0 6 6 0 0 0 with t := 1, p := 1 }
def ringing : State := { ready with queues := [(0, busyQueue)] }

/-- At the bound and past it, and a locked interface off its stream. -/
theorem witness_Doorbells : OnStream ringing 0 none ∧ SqTakes ringing busyQueue ∧ CqTakes ringing busyQueue ∧
    ((64#32 - busyQueue.t).toNat ≤ 2 ^ busyQueue.sqLog2 - (busyQueue.t - busyQueue.h).toNat) ∧
    (2 ^ busyQueue.sqLog2 - (busyQueue.t - busyQueue.h).toNat < (65#32 - busyQueue.t).toNat) ∧
    ((1#32 - busyQueue.c).toNat ≤ (busyQueue.p - busyQueue.c).toNat) ∧ ((busyQueue.p - busyQueue.c).toNat < (2#32 - busyQueue.c).toNat) ∧
    ¬ OnStream { ringing with slices := [(0, { slice1 .active with tdi := .run, ideStream := some 3 })] } 0 none :=
  ⟨(fun y h => by cases h), ⟨rfl, by decide, Or.inl ⟨rfl, rfl⟩⟩, ⟨rfl, Or.inl ⟨rfl, rfl⟩⟩, by decide, by decide, by decide, by decide,
   fun h => absurd (h _ rfl (Or.inr rfl)) (by decide)⟩

theorem witness_QueueWindow : State.reset.start.stage ≠ 0x0C ∧ ringing.start.stage = 0x0C ∧ ringing.windowSlice 4096 = none ∧
    ringing.windowQueue 0 = some (0, 0) ∧ ringing.windowQueue 4 = some (0, 4) ∧ ringing.windowQueue 8191 = some (0, 8191) ∧
    ringing.windowQueue 8192 = none := by decide

/-- The cell at the head of the queue holds zeros: its check does not match. -/
theorem witness_PacketConsumption : MayConsume ringing 0 0 busyQueue ∧
    ringing.integ.poison.find (busyQueue.cellAt busyQueue.h / 64) ≠ some 2 ∧
    crc32c ((ringing.ringRead busyQueue 1 busyQueue.h).take 0x3C) ≠ (ringing.hdrAt (ringing.ringRead busyQueue 1 busyQueue.h)).check :=
  ⟨⟨rfl, rfl, by decide, by decide, (fun y h => by cases h), by decide, by decide⟩, by decide, by decide +kernel⟩

/-- DATUM_READ at the head: one cell, with its check. -/
def readPacket : Bytes :=
  let b := le 2 0x6003 ++ le 2 0 ++ le 4 9 ++ le 4 0 ++ le 2 1 ++ le 2 0 ++ List.replicate 40 0 ++ le 4 40
  b ++ le 4 (crc32c b)

theorem witness_PacketAccepted :
    let s := { ringing with
      window := (List.range 64).foldl (fun w i => w.putD (4096 + i) (readPacket.getD i 0) 0) []
      start := { ready.start with image := { ImageInfo.reset with formats := [le 2 0x6003] } } }
    let head := s.ringRead busyQueue 1 busyQueue.h
    let h := s.hdrAt head
    h.opcode = 0x6003 ∧ h.stream = 0 ∧ (1 ≤ h.cells ∧ h.cells ≤ 1024 ∧ h.cells ≤ (busyQueue.t - busyQueue.h).toNat) ∧
    (s.steps123 busyQueue h head []) = (none, 1) ∧
    s.verdict80 0 busyQueue h [] (s.steps123 busyQueue h head []).1 = .accepted true 0 0 := by decide +kernel

/-- Command 7 has finished in region 0; a collector with an entry; an entry that fits and a ring that is full. -/
def finished : Ctx := { cmd 0x6003 [] with phase := .finished, finishedAt := 1000, result := some (Result.output []) }

theorem witness_CompletionPath :
    ((holding finished).unsettled = false ∧ (holding finished).admission 0 = [7]) ∧
    (let s := { holding { finished with phase := .collected } with collectors := [(1, [7])] }
     s.collector ((s.writerNext + 0) % 4) = [] ∧ s.collector ((s.writerNext + 1) % 4) = [7] ∧ s.integ.due.find 1 = none) ∧
    (∃ h, finished.entries 7 64 = [h] ∧ h.cells = 1) ∧
    (let x := { busyQueue with noticeCount := 1, noticeSince := 999 }
     x.noticeHeld = false ∧ x.held = [] ∧ (x.p - x.c).toNat < 2 ^ x.cqLog2 ∧ x.noticeSince < ready.now) :=
  ⟨by decide, by decide, ⟨_, rfl, by decide⟩, by decide⟩

/-- VERIFY of ML-DSA-65 with its key in the payload; units 3 and 4 have run that family's benchmark. -/
def verifyCtx : Ctx := { cmd 0x1103 [] with param := 0x00110002 }
def benched : UnitSt := { UnitSt.reset with fam := 0x00110002, lastBench := 990, benched := [(2, 990)] }
def launching (c : Ctx) : State := { seeded (holding c) with units := [(3, benched), (4, benched)] }
def verifyOne : Part := verifyPart 0 0x00110002 true

theorem witness_OperationLaunches : UnitTakes (launching verifyCtx) 3 verifyCtx verifyOne ∧
    MayRun (launching verifyCtx) 7 verifyCtx.opcode verifyCtx ∧ (launching verifyCtx).plan verifyCtx = [verifyOne] ∧
    (launching verifyCtx).slabsDone verifyCtx = true ∧ (launching verifyCtx).anchorWaits verifyCtx = false ∧
    (∃ t, (launching verifyCtx).gate 7 verifyCtx = .passed t) ∧ nextPart false (unitKind 3) [verifyOne] = some 0 ∧
    (launching verifyCtx).benchFirst 3 verifyOne.firstPiece verifyOne.fam = none ∧
    ((launching verifyCtx).benchFirst 5 verifyOne.firstPiece verifyOne.fam).isSome = true :=
  ⟨⟨by decide, by decide, by decide, by decide, by decide, by decide, by decide +kernel⟩,
   ⟨⟨rfl, rfl, rfl, by decide, rfl, rfl, by decide, by decide⟩, by decide⟩, by decide, by decide, by decide, ⟨_, rfl⟩, by decide, by decide, by decide⟩

/-- A command under way with one part in a phase. -/
def under (p : Part) : Ctx := { verifyCtx with phase := .running, parts := [p] }

theorem under_ok (p : Part) : Under (launching (under p)) 7 (under p) := ⟨rfl, rfl, rfl, rfl, rfl, rfl⟩
theorem first_ok (p : Part) (f : Part → Prop) (h : f p) : FirstPart (under p) f 0 p :=
  ⟨rfl, h, fun j _ hj => absurd hj (by omega)⟩

theorem witness_FurtherLaunch : Under (launching (under verifyOne)) 7 (under verifyOne) ∧
    nextPart false (unitKind 3) (under verifyOne).parts = some 0 := ⟨under_ok _, by decide⟩

theorem witness_RerunsAndLegs :
    (let p := { verifyOne with phase := .withheld, unit := some 4 }
     UnitTakes (launching (under p)) 3 (under p) p ∧ Under (launching (under p)) 7 (under p) ∧
     FirstPart (under p) (fun q => q.slab = false ∧ q.phase = .withheld) 0 p ∧ unitKind 3 = p.kind ∧ p.unit ≠ some 3) ∧
    (let p := { verifyOne with phase := .between, unit := some 3, left := [5] }
     Under (launching (under p)) 7 (under p) ∧ FirstPart (under p) (fun q => q.phase = .between) 0 p ∧
     (p.checkUnit = none ∧ p.unit = some 3) ∧ (launching (under p)).mayLaunch 3 = true ∧ (launching (under p)).jobFree 3 = true) :=
  ⟨⟨⟨by decide, by decide, by decide, by decide, by decide, by decide, by decide +kernel⟩, under_ok _, first_ok _ _ ⟨rfl, rfl⟩, by decide, by decide⟩,
   under_ok _, first_ok _ _ rfl, by decide, by decide, by decide⟩

theorem witness_OperationEnds :
    (let p := { verifyOne with phase := .running, unit := some 3, ends := 1000 }
     FirstPart (under p) (fun q => q.slab = false ∧ q.phase = .running ∧ q.ends ≤ (launching (under p)).now) 0 p ∧ p.unit = some 3 ∧
     p.left = [] ∧ (launching (under p)).capped (under p) p = false) ∧
    (let c := { cmd 0x5001 [] with phase := .running, bearingEnd := some 1000 }
     c.parts = [] ∧ c.bearingEnd = some 1000 ∧ 1000 ≤ (holding c).now) :=
  ⟨⟨first_ok _ _ ⟨rfl, rfl, by show 1000 ≤ 1000; decide⟩, rfl, rfl, by decide⟩, by decide⟩

theorem witness_Checks :
    (let p := { verifyOne with phase := .done, unit := some 3 }
     Under (launching (under p)) 7 (under p) ∧ FirstPart (under p) (fun q => q.slab = false ∧ q.phase = .done) 0 p ∧
     (launching (under p)).meetsR19 0 p.kind = true ∧ unitRegion 4 = unitRegion 3 ∧ unitKind 4 = p.kind ∧
     (launching (under p)).unitFree 4 = true ∧ (launching (under p)).passedOver 4 3 = false ∧ p.checkDraws = 0 ∧
     ∃ l left, defaultLegs p.check = l :: left) ∧
    (let p := { verifyOne with phase := .checking, unit := some 3, checkUnit := some 4, ends := 1000 }
     FirstPart (under p) (fun q => q.slab = false ∧ q.phase = .checking ∧ q.ends ≤ (launching (under p)).now) 0 p ∧ p.left = [] ∧
     p.retries < 2) :=
  ⟨⟨under_ok _, first_ok _ _ ⟨rfl, rfl⟩, by decide, by decide, by decide, by decide, by decide, by decide, ⟨_, _, rfl⟩⟩,
   first_ok _ _ ⟨rfl, rfl, by show 1000 ≤ 1000; decide⟩, rfl, by decide⟩

theorem witness_Benchmarks :
    (let s := { ready with units := [(3, { benched with job := .bench 0x00110002 true })] }
     (s.unitSt 3).job = .bench 0x00110002 true ∧ (s.unitSt 3).ends = 0 ∧ famOf 0x00110002 = 2 ∧ s.working 3 = true) ∧
    (let s := { ready with units := [(3, benched)] }
     s.mayLaunch 3 = true ∧ s.jobFree 3 = true ∧ unitKind 3 < 2 ∧ famOf ((s.unitSt 3).currentSet 3) = 2) ∧
    (let s := { ready with units := [(3, { benched with job := .bench 0x00110002 false, ends := 1000 })] }
     (s.unitSt 3).job = .bench 0x00110002 false ∧ (s.unitSt 3).ends ≠ 0 ∧ (s.unitSt 3).ends ≤ s.now) ∧
    (let s := { ready with units := [(3, benched)], datum := { ready.datum with flat := true } }
     s.datum.flat = true ∧ s.mayLaunch 3 = true ∧ (s.unitSt 3).needBench = false ∧ s.heldBetween 3 = false ∧ s.jobFree 3 = true) := by decide

/-! ## Witnesses: slabs, stateful keys, keys, bearings -/

/-- A digest of set SHA-256, and its two pipes past their benchmark. -/
def digestCtx : Ctx := { cmd 0x3001 (le 4 32 ++ List.replicate 28 0) with param := 0x00300001 }
def benchedPipe : UnitSt := { UnitSt.reset with fam := 0x00300001, lastBench := 990, benched := [(9, 990)] }
def piping (c : Ctx) : State := { seeded (holding c) with units := [(20, benchedPipe), (21, benchedPipe)] }

theorem lanes_digest : LanesTake (piping digestCtx) 7 20 0 21 4 digestCtx 2
    (slabTicks ((piping digestCtx).slabSteps digestCtx 0).1 ((piping digestCtx).slabSteps digestCtx 0).2)
    ((piping digestCtx).slabSteps digestCtx 0).2 (digestCtx.firstSlab && !(piping digestCtx).onKept digestCtx) none :=
  ⟨by decide, by decide, by decide, by decide, by decide, by decide, by decide, by decide +kernel, by decide +kernel, by decide +kernel⟩

theorem witness_SlabLaunches :
    MayRun (piping digestCtx) 7 digestCtx.opcode digestCtx ∧ (piping digestCtx).slabBehind digestCtx = false ∧
    slabCommand digestCtx.opcode = true ∧ (∃ t, (piping digestCtx).slabGate 7 digestCtx = .passed t) ∧
    (piping digestCtx).drawsIv digestCtx = false ∧ (piping digestCtx).meetsR19 0 (slabKind digestCtx.opcode) = true ∧
    (piping digestCtx).keysReady digestCtx 0 = true :=
  ⟨⟨⟨rfl, rfl, rfl, by decide, rfl, rfl, by decide, by decide⟩, by decide⟩, by decide, by decide, ⟨_, rfl⟩, by decide, by decide,
   by decide⟩

/-- The first pass of EDDSA_SIGN over its message, and a withheld slab. -/
def passCtx : Ctx := { cmd 0x2004 (List.replicate 32 0) with param := 0x00210001 }
def slabPart (ph : PartPhase) : Part := { mkPart 2 0 0x00300001 4 0 0 0 with phase := ph, slab := true }

theorem witness_SlabPasses : (piping passCtx).wantsSlab passCtx = true ∧ slabCommand passCtx.opcode = false ∧
    (piping passCtx).slabBehind passCtx = false ∧ MayRun (piping passCtx) 7 passCtx.opcode passCtx ∧
    (piping passCtx).meetsR19 0 2 = true ∧ passCtx.names = [] ∧
    (if passCtx.slabsPassed = 0 then ((piping passCtx).stream passCtx.q passCtx.stream).bind Stream.region else some passCtx.region) = none ∧
    LanesTake (piping passCtx) 7 20 0 21 4 passCtx 2
      (slabTicks ((piping passCtx).slabSteps passCtx 0).1 ((piping passCtx).slabSteps passCtx 0).2)
      ((piping passCtx).slabSteps passCtx 0).2 true none :=
  ⟨by decide, by decide, by decide, ⟨⟨rfl, rfl, rfl, by decide, rfl, rfl, by decide, by decide⟩, by decide⟩, by decide, by decide,
   by decide, ⟨by decide, by decide, by decide, by decide, by decide, by decide, by decide, by decide +kernel, by decide +kernel, by decide +kernel⟩⟩

theorem witness_SlabReruns :
    let p := { slabPart .withheld with unit := some 22 }
    let c := { digestCtx with phase := .running, parts := [p] }
    Under (piping c) 7 c ∧ slabDue c = some 0 ∧ c.parts[0]? = some p ∧ p.slab = true ∧ p.draws = 0 ∧
    (piping c).slabBehind c = false ∧ (p.phase = .withheld → p.unit ≠ some 20) ∧
    LanesTake (piping c) 7 20 0 21 4 c p.kind p.ticks p.fam true p.unit :=
  ⟨⟨rfl, rfl, rfl, rfl, rfl, rfl⟩, by decide, rfl, rfl, rfl, by decide, (fun _ => by decide),
   ⟨by decide, by decide, by decide, by decide, by decide, by decide, by decide, by decide +kernel, by decide +kernel, by decide +kernel⟩⟩

theorem witness_SlabComparisons :
    let p := { slabPart .running with unit := some 20, checkUnit := some 21, checkLane := 4, ends := 999 }
    let c := { digestCtx with phase := .running, parts := [p] }
    (piping c).ctxs.find 7 = some c ∧ c.phase = .running ∧
    FirstPart c (fun q => q.slab = true ∧ q.phase = .running ∧ q.ends + 1 ≤ (piping c).now) 0 p ∧ p.unit = some 20 ∧
    p.checkUnit = some 21 ∧ c.drop = false ∧ p.retries < 2 ∧ (piping c).compareBehind c = false :=
  ⟨rfl, rfl, ⟨rfl, ⟨rfl, rfl, by show 999 + 1 ≤ 1000; decide⟩, fun j _ hj => absurd hj (by omega)⟩, rfl, rfl, rfl, by decide, by decide +kernel⟩

/-- LMS_KEYGEN with one level in hand; key 1 of 32 leaves with its tree. -/
def lmsCtx : Ctx := { cmd 0x1301 (le 1 1 ++ le 3 0 ++ le 1 5 ++ le 1 4 ++ List.replicate 66 0) with param := 0x00130001, keyA := 2 ^ 48 }
def leaves1 : Leaves := { next := 8, reservedEnd := 8, total := 32, block := 8, heights := [5], handle := key5 }
def stateful (s : State) (k : Tree) (bs : List Build) : State :=
  { s with stateful := { s.stateful with keyIdCtr := 1, keys := [(1, leaves1)], trees := [k], builds := bs } }

theorem witness_StatefulKeys :
    (let c := { lmsCtx with phase := .running, leaf := some 1 }
     let s := stateful (holding c) { keyId := 1, level := 0, left := 0 } []
     s.ctxs.find 7 = some c ∧ c.opcode = 0x1301 ∧ c.leaf = some 1 ∧ s.stateful.keys.find 1 = some leaves1 ∧ c.drop = false ∧
     c.orphaned = false ∧ s.treesCached 1 = true ∧ s.journalRoom = true) ∧
    (let s := { stateful (seeded ready) { keyId := 1, level := 0, left := 2 } [{ id := 1, level := 0, unit := 3, check := none, ends := 1000, left := [] }] with
       units := [(4, { UnitSt.reset with fam := 0x00130001, lastBench := 990, benched := [(4, 990)] })] }
     s.tree 1 0 = some { keyId := 1, level := 0, left := 2 } ∧ unitKind 4 = 0 ∧ s.unitFree 4 = true ∧ s.meetsR19 0 0 = true ∧
     s.passedOver 4 3 = false ∧ s.drawState 0 = .serves) := by decide

theorem witness_StatefulTrees :
    (let s := { stateful ready { keyId := 9, level := 0, left := 0 } [] with
       ctxs := [(7, { cmd 0x1302 [] with keyA := key5 })] }
     s.tree 1 0 = none ∧ s.treeDue 1 0 leaves1 = true ∧ s.treeRoom.isSome = true) ∧
    (let b : Build := { id := 1, level := 0, unit := 3, check := some 4, ends := 1000, left := [] }
     let s := stateful ready { keyId := 1, level := 0, left := 2 } [b]
     (s.buildsOf 1 0).find? (fun b => b.check.isSome && decide (b.ends ≤ s.now)) = some b ∧ b.check = some 4) ∧
    (let k : JRec := { flags := 0, keyId := 1, nextUnreserved := 8, total := 32, seq := 1, block := 8, handle := key5, bad := false }
     let s := { ready with stateful := { ready.stateful with journal := [(0, k.bytes)] } }
     4 * (leaves1.reservedEnd - leaves1.next) ≤ leaves1.block ∧ leaves1.reservedEnd < leaves1.total ∧
     s.recOf 1 = some k ∧ k.exhausted = false ∧ s.journalRoom = true) := by decide +kernel

/-- A waiting command that names the live key: ML-KEM-768 in slot 5. -/
def waits (s : State) : State := { keyed s with ctxs := [(7, { cmd 0x1003 [] with keyA := key5, param := 0x00100002 })] }

def preparing : State :=
  { waits ready with
    keys := { (waits ready).keys with resident := [(0, [Residency.split key5 [7] [1]])] }
    units := [(3, { benched with fam := 0x00100002, benched := [(1, 990)] })] }

/-- The preparation launches without a benchmark where the expansion of the matrix leaves it within 1,990 ticks. -/
theorem witness_PreparationLaunches (l : Nat) (h : l ≤ 1990) : preparing.benchFirst 3 l 0x00100002 = none := by
  simp only [State.benchFirst]
  rw [if_neg (by decide), if_neg (by decide), if_neg (by
    have a : (preparing.unitSt 3).lastBench = 990 := rfl
    have b : preparing.now = 1000 := rfl
    omega)]

def namer : Ctx := { cmd 0x1003 [] with keyA := key5, param := 0x00100002 }

/-- What was sealed opens: the record of the key raises no alarm. -/
theorem kemKey_opens : (waits ready).vaultAlarm key5 = none := by
  have h : (waits ready).keys.slots.find (slotKey key5) = some kemKey := rfl
  have e : kemKey.extent = none := rfl
  have v : kemKey.sealed = sealVault [] 0 0 key5 false (({ policyOf [] with param := 0x00100002 } : Policy).bytes ++ [1]) := rfl
  have k : (waits ready).keys.vaultKey = [] := rfl
  simp [State.vaultAlarm, h, Slot.badVault, e, v, k, Vault.open_seal]

theorem witness_KeyResidency : ((waits ready).liveKey key5).isSome = true ∧ (waits ready).regionRetired 0 = false ∧
    (waits ready).residentIn 0 key5 = false ∧ (waits ready).awaited key5 = true ∧
    ((waits ready).keys.resident.getD 0 []).length < 4096 ∧ (seeded (waits ready)).drawState 0 = .serves ∧
    (waits ready).vaultAlarm key5 = none :=
  ⟨by decide, by decide, by decide, by decide, by decide, by decide, kemKey_opens⟩

theorem witness_KeyPreparation : preparing.ctxs.find 7 = some namer ∧ preparing.unsettled = false ∧ namer.phase.decided = false ∧
    key5 ∈ namer.names ∧ mceSet (preparing.policyOfKey key5).param = false ∧
    latticeSet (preparing.policyOfKey key5).param = true ∧ key5 ∉ preparing.keys.prepared ∧ unitKind 3 = 0 ∧
    preparing.unitFree 3 = true ∧ preparing.meetsR19 0 0 = true ∧ preparing.residentIn 0 key5 = true ∧
    (preparing.makeRoom id (32704 - preparing.keys.preps.length) preparing.keys.prepared).isSome = true ∧
    latticePart (preparing.policyOfKey key5).param = 0x00100002 :=
  ⟨rfl, by decide, rfl, by decide, by decide, by decide, by decide, by decide, by decide, by decide, by decide, by decide, by decide⟩

theorem witness_BumpsAndReclaim :
    (let s := { keyed ready with keys := { (keyed ready).keys with bumps := [(key5, 999)] } }
     s.dueBump = some (key5, 999) ∧ s.datumUnsettled = false ∧ s.liveKey key5 = some kemKey) ∧
    (let y := Slot.empty 3 .dead
     let s := { ready with keys := { ready.keys with slots := [(slotKey key5, y)] } }
     s.keys.slots.find (slotKey key5) = some y ∧ s.slotBusy key5 = false ∧ y.st = .dead) :=
  ⟨⟨by decide, by decide, rfl⟩, by decide⟩

/-- SIGN_BEARING whose join passed at boundary 900, forming until a boundary or not yet. -/
def joinedCtx (e : Option Nat) : Ctx :=
  { cmd 0x1A01 (List.replicate 16 0) with
    phase := .running, bearingEnd := e
    parts := [{ mkPart 0 1 0x00110002 10 0 0 0 with phase := .passed, stage := 1, ends := 900 }] }

theorem witness_BearingFormation :
    ((holding (joinedCtx (some 1000))).ctxs.find 7 = some (joinedCtx (some 1000)) ∧ (joinedCtx (some 1000)).joined = some 900 ∧
     1000 + 0 ≤ (holding (joinedCtx (some 1000))).now) ∧
    (holding (joinedCtx (some 1001))).now < 1001 + 0 ∧ (joinedCtx none).bearingEnd = none ∧
    (holding (joinedCtx none)).coreForms 7 900 (joinedCtx none) = false ∧ (joinedCtx none).bearingOk = false ∧
    (joinedCtx (some 1000)).bearingTries < 2 ∧ (joinedCtx none).drop = false ∧ (joinedCtx none).batch = false := by decide

/-! ## Witnesses: events, entropy, integrity -/

theorem witness_EventController :
    (let s := { ready with events := { ready.events with coal := [(0, { count := 2, timer := 1, seen := 1, started := 999 })] } }
     s.start.stage = 0x0C ∧ 0 < (s.coalOf 0).seen ∧ (s.coalOf 0).started + (s.coalOf 0).timer ≤ s.now ∧
     ((s.msixEntry 0).mask = true ∨ s.events.fnMask = true)) ∧
    (let s := { ready with events := { ready.events with msix := [(0, { addr := 0, data := 0, mask := false })], fnMask := false, pba := [(0, true)] } }
     (s.msixEntry 0).mask = false ∧ s.events.fnMask = false ∧ s.events.pba.find 0 = some true) ∧
    ((0x6FF#32).toNat % 2 ^ 11 < 0x700 ∧ ready.vectorSlice 0x6FF = none) ∧ 0x700 ≤ (0x700#32).toNat % 2 ^ 11 ∧
    ready.start.fuseRead = true := by decide

def evRec : EvRec :=
  { code := 0x40, origin := 0, severity := 2, opSeconds := 0, cycles := 0, repeats := 0, p0 := 0, p1 := 0, p2 := 0, p3 := 0 }

/-- A detected event that is new, that repeats the newest record, that has no room, and that finds an overflow to tell. -/
theorem witness_EventRecords :
    ready.log.total = 0 ∧
    (let l := { Recorder.reset with queue := [evRec], total := 1, circ := [(0, evRec)] }
     l.circ.find ((l.total - 1) % 4096) = some evRec) ∧
    256 ≤ ((List.replicate 256 900).filter fun b => decide (ready.now < b + 1000000)).length ∧ evRec.severity ≠ 4 ∧
    (let s := { ready with log := { ready.log with repeatFrom := some 0, opSeconds := 60, persisted := 0 }, now := 10000000 }
     s.log.repeatFrom = some 0 ∧ 0 + 10000000 ≤ s.now ∧ s.log.persisted + 60 ≤ s.log.opSeconds) ∧
    ready.start.perst = false ∧ ready.start.vddGood = true := by decide +kernel

theorem witness_EntropySource :
    (let s := seeded ready
     s.rng.stage ≠ .off ∧ s.rng.stage ≠ .halted ∧ s.rng.mode = false ∧
     ((s.rng.failures.filter fun b => decide (s.now ≤ b + 1000000)) ++ [s.now]).length < 3) ∧
    (3 ≤ (([900, 950].filter fun b => decide (ready.now ≤ b + 1000000)) ++ [ready.now]).length) ∧
    (let s := { ready with rng := { ready.rng with stage := .balancing, stageFrom := 0 }, now := 36000 }
     s.rng.stage = .balancing ∧ s.rng.stageFrom + 36000 ≤ s.now ∧ (s.rng.cells.getD 0 RngCell.reset).balanced = false ∧
     (s.rng.cells.getD 0 RngCell.reset).trim ≠ 0 ∧ (s.rng.cells.getD 0 RngCell.reset).trim ≠ 4095) ∧
    (let s := { ready with rng := { ready.rng with
       stage := .balancing, cells := (List.range 8).map fun k => (k, { RngCell.reset with balanced := true }) } }
     s.converged = true) := by decide

theorem witness_RandomInstances :
    (let s := { seeded ready with rng := { (seeded ready).rng with blockFrom := 904 } }
     s.rng.stage = .running ∧ s.rng.blockFrom + 96 ≤ s.now) ∧
    ((seeded ready).drbg 5).seeded = true ∧
    (let s := { seeded ready with now := 1000000 }
     (s.drbg 5).due = false ∧ (s.drbg 5).last + reseedPeriod 5 ≤ s.now ∧ (s.drbg 5).last + 1000000 ≤ s.now) ∧
    (let c := { cmd 0x5001 [] with waitFrom := some 0 }
     let s := { holding c with now := 2000000 }
     s.ctxs.find 7 = some c ∧ c.waitFrom = some 0 ∧ c.phase.decided = false ∧ s.unsettled = false ∧
     0 + 1000 * s.rng.waitMs ≤ s.now ∧ c.phase = .waiting ∧ s.deadlineTest c = none) := by decide

/-- READY, in the safe state, and before READY. -/
theorem witness_AlarmsEnterTheSafeState : ready.integ.safe = false ∧ (ready.alarm 3 0x40).integ.safe = true ∧
    (let s := { ready with start := { ready.start with stage := 0x06 } }
     s.start.perst = false ∧ s.start.vddGood = true ∧ s.start.stage ∉ [0x0C, 0x0E, 0x0F]) := by decide

theorem witness_SensorReports : ready.start.perst = false ∧ ready.start.vddGood = true ∧ 0x01 < ready.start.stage ∧
    0x06 < ready.start.stage ∧ ready.start.stage ≤ 0x0C ∧ ([25, 25, 25, 25, 25, 25, 25, 25, 25, 116] : List Int).length = 10 ∧
    ready.integ.thermtrip = false ∧ 0 < hbmLines := by decide

theorem witness_Retirement :
    (let x := { UnitSt.reset with mode := .reloading, reloadEnds := 1000 }
     let s := { ready with units := [(3, x)] }
     (s.unitSt 3).mode = .reloading ∧ (s.unitSt 3).reloadEnds ≤ s.now) ∧
    (let s := { ready with units := [(3, { UnitSt.reset with charges := [997, 998, 999] })] }
     s.start.stage = 0x0C ∧ s.integ.safe = false ∧ (s.unitSt 3).retired = false ∧ s.thirdTransient 3 = true) ∧
    (let s := { ready with units := [(3, { UnitSt.reset with job := .op 7, ends := 2000 })] }
     unitKind 3 < 2 ∧ s.jobFree 3 = false) ∧
    (let s := { ready with integ := { ready.integ with due := [(0, (2, 999))] } }
     s.regionRetired 0 = false ∧ s.integ.due.find 0 = some (2, 999) ∧ 999 < s.now ∧ s.regionRetired 1 = false) ∧
    ready.start.loadDone = true ∧ ready.integ.due.find 0 = none := by decide

/-! ## Witnesses: starts, resets, life cycle -/

/-- Rails down, and rails up with PERST_N asserted, a part in TEST with helper copy A and two bank records. -/
def board : StartEnv :=
  { clk25 := true, clk100 := true, puf := [], helperABad := false, helperBBad := true, fuseAgree := true, flashAnswers := true, program := none
    readErrA := false, readErrB := false, secondDiffA := false, secondDiffB := false, vddAonMv := 800, vppMv := 1800
    mapAOk := true, mapBOk := true, journalBad := [], curveMismatch := [], badStores := [], badUnits := [] }
def powered : State :=
  { State.reset with
    start := { StartUp.reset with vddGood := true }
    lcs := { State.reset.lcs with groups := [.burnt, .unburnt, .unburnt, .unburnt, .unburnt] }
    keys := { KeyStore.reset with helpA := helperCopy (List.replicate 12276 0) (pufRootOf (List.replicate 96 0)) } }

theorem boots : Boots powered board where
  power := ⟨rfl, rfl⟩
  clocks := ⟨rfl, rfl⟩
  state := by decide
  fuses := ⟨rfl, rfl, Or.inl ⟨rfl, by decide +kernel⟩⟩
  root := by
    have h : powered.keys.helpA ≠ [] := fun e => by
      have := (helperCopy_parts (List.replicate 12276 0) (pufRootOf (List.replicate 96 0)) List.length_replicate).1
      rw [show helperCopy _ _ = [] from e] at this
      exact absurd this (by decide)
    rw [if_neg fun e => h e.2.1]
    exact Or.inl ⟨rfl, regenerate_zeros⟩
  flash := ⟨rfl, rfl⟩

theorem witness_StartsAndBanks : State.reset.start.vddGood = false ∧ (powered.start.vddGood = true ∧ powered.start.perst = true) ∧
    Boots powered board ∧ headerAt powered board 0 ≠ 0 ∧ headerAt powered board 1 ≠ 0 :=
  ⟨rfl, ⟨rfl, rfl⟩, boots, by decide +kernel, by decide +kernel⟩

theorem witness_StartGoesOn :
    (let s := { ready with start := { ready.start with burning := [1, 2], burnFrom := 0, stage := 3 }, now := 12000 }
     s.start.burning = 1 :: [2] ∧ s.start.burnFrom + 12000 ≤ s.now) ∧
    (let s := { ready with start := { ready.start with stage := 6, hbmTrained := false } }
     s.start.hbmTrained = false ∧ 0 < s.start.stage ∧ s.start.stage ≤ 0x06) ∧
    (let s := { ready with start := { ready.start with stage := 0x0B, stageFrom := 0 }, now := 100000000 }
     s.start.stageFrom + 1000 * s.datum.acqMs ≤ s.now ∧ s.datum.tokens = []) := by decide

theorem witness_Resets : ready.start.perst = false ∧ ready.start.vddGood = true ∧ ready.start.stage = 0x0C ∧
    ({ ready with start := { ready.start with burning := [6] } } : State).start.burning = 6 :: [] := by decide

/-- A packet of a commit on stream 1 of queue 0, which is the stream's first or a later one, with or without a commit. -/
def commitCtx : Ctx := { cmd 0x0141 (List.replicate 4096 0) with stream := 1, declared := 4096 }
def commitStream (first : Nat) : Stream :=
  { st := .opened, opcode := 0x0141, keyA := 0, keyB := 0, param := 0, declared := 4096, undeclared := false, count := 0, head := []
    data := [], charged := false, finalCtx := none, pages := 0, keptHead := [], fromKept := false, leaf := none, startUnc := 0
    first := first, region := none, saved := none }
def committing (first tokens : Nat) (k : Option Commit) : State :=
  { holding commitCtx with
    queues := [(0, { busyQueue with streams := [(1, commitStream first)] })]
    start := { ready.start with tokens := tokens, commit := k } }

theorem may_commit (f t : Nat) (k : Option Commit) : MayRun (committing f t k) 7 0x0141 commitCtx :=
  ⟨⟨rfl, rfl, rfl, by show 999 < 1000; decide, rfl, rfl, rfl, rfl⟩, by
    have h : commitCtx.timeBound = false := by show Nat.testBit 0 4 = false; decide
    simp [State.deadlineTest, h]⟩

theorem witness_CommitsAndIdentity :
    (∃ e, (committing 0 16 none).stream 0 commitCtx.stream = some e ∧ e.first = commitCtx.seq) ∧
    (committing 0 16 none).earlierOpen commitCtx = false ∧ (committing 0 16 none).commitActive = false ∧
    (committing 0 0 none).start.tokens = 0 ∧ (committing 0 16 none).start.tokens ≠ 0 ∧ (committing 0 16 none).start.bank < 2 ∧
    (committing 0 16 none).commitHeaderOk commitCtx.payload 4096 = false ∧
    (∃ e, (committing 9 16 none).stream 0 commitCtx.stream = some e ∧ e.first ≠ commitCtx.seq) ∧
    (committing 9 16 (some { stream := 1, first := 9, target := 1 })).commitActive = true :=
  ⟨⟨_, rfl, rfl⟩, by decide, by decide, rfl, by decide, by decide, (by
    have h : (bn commitCtx.payload 0 4 == 0x314E5153) = false := by decide +kernel
    simp [State.commitHeaderOk, headerFieldsOk, h]), ⟨_, rfl, by decide⟩, by decide⟩

theorem witness_CommitTokens : ({ ready with start := { ready.start with tokenTicks := 60000000 } } : State).start.vddGood = true ∧
    60000000 ≤ ({ ready with start := { ready.start with tokenTicks := 60000000 } } : State).start.tokenTicks ∧
    0x01 < ready.start.stage := by decide

theorem witness_LifeCycle :
    MayRun (holding (cmd 0x0150 (List.replicate 7395 0))) 7 0x0150 (cmd 0x0150 (List.replicate 7395 0)) ∧
    MayRun (holding (cmd 0x0152 [])) 7 0x0152 (cmd 0x0152 []) ∧ MayRun (holding (cmd 0x0151 [])) 7 0x0151 (cmd 0x0151 []) ∧
    ready.rightOpen 6 = false ∧ ready.start.fuseRead = true ∧ ready.start.stage = 0x0C ∧ ready.integ.safe = false :=
  ⟨may _ _, may _ _, may _ _, by decide, rfl, rfl, rfl⟩

/-- A responder after NEGOTIATE_ALGORITHMS, with a chain, in an established session. -/
def responder (n : Nat) : State :=
  { seeded ready with
    keys := { ready.keys with chain := [1, 2, 3], identity := List.replicate 32 1 }
    bus := { ready.bus with spdm := { Spdm.reset with version := true, caps := true, algs := true, session := n, ideKeys := [(3, 1)] } } }

theorem witness_SpdmResponder : (responder 0).start.stage = 0x0C ∧ (responder 0).bus.spdm.version = true ∧
    (responder 0).bus.spdm.caps = true ∧ (responder 0).bus.spdm.algs = true ∧ (responder 0).keys.chain ≠ [] ∧
    2 < (responder 0).keys.chain.length ∧ Signs (responder 0) ∧ (List.replicate 32 (0 : Byte)).length = 32 ∧
    (List.replicate 96 (0 : Byte)).length = 96 ∧ (responder 1).bus.spdm.session = 1 ∧ (responder 2).bus.spdm.session = 2 :=
  ⟨rfl, rfl, rfl, rfl, by decide, by decide, ⟨rfl, rfl, by decide, by decide⟩, by decide, by decide, rfl, rfl⟩

theorem witness_InterfaceSecurity : (responder 2).bus.spdm.session = 2 ∧
    (let s := { responder 2 with slices := [(1, slice1 .active)] }
     s.slices.find 1 = some (slice1 .active) ∧ (slice1 .active).tdi = .configUnlocked ∧ s.bus.spdm.ideKeys.getD 3 0 ≠ 0) ∧
    ({ slice1 .active with tdi := .configLocked } : Slice).tdi = .configLocked ∧ Signs (responder 2) :=
  ⟨rfl, by decide, rfl, ⟨rfl, rfl, by decide, by decide⟩⟩

/-! ## Witnesses: registers and the machine -/

/-- DEV_STAGE is a 32-bit register, DTM_VALUE one of 64 bits, and what follows the device registers is reserved. -/
theorem witness_RegisterReads : (∃ v, ready.served 0x0010 = some (false, v)) ∧ (∃ v, ready.served 0x2008 = some (true, v)) ∧
    0x0C ≤ ready.start.stage ∧ ready.served 0x0FF8 = none ∧
    ({ ready with start := { ready.start with stage := 0x0B } } : State).start.stage < 0x0C := by
  exact ⟨⟨_, rfl⟩, ⟨_, rfl⟩, by decide, by decide, by decide⟩

theorem witness_RegisterWrites : ready.queues.find 0 = none ∧ (∃ w, ready.served 0x02800018 = some (true, w)) ∧
    (let x := { ready.enq0 with sqLog2 := 6, cqLog2 := 18, vector := 0x6FF, cqAddr := 4096, shadowAddr := 8 }
     6 ≤ x.sqLog2 ∧ x.sqLog2 ≤ 18 ∧ 6 ≤ x.cqLog2 ∧ x.cqLog2 ≤ 18 ∧ x.vector ≤ 0x6FF ∧ x.cqAddr % 4096 = 0 ∧ x.shadowAddr % 8 = 0) ∧
    (∃ r < 4, ready.regionRetired r = false) ∧ (1#32).getLsbD 0 = true := by
  exact ⟨rfl, ⟨_, rfl⟩, by decide, ⟨0, by decide, by decide⟩, by decide⟩

/-- One command waits and its step answers a next state. -/
theorem witness_StepRunsFront : ({ State.reset with pending := [.powerUp 1] } : State).pending = .powerUp 1 :: [] ∧
    State.reset.pending = [] := ⟨rfl, rfl⟩

theorem witness_Invariants : (∃ t, step { State.reset with pending := [.powerUp 1] } = .next t) ∧
    Bounds { State.reset with pending := [.powerUp 1] } ∧ MemoryForm { State.reset with pending := [.powerUp 1] } :=
  ⟨⟨_, rfl⟩, ⟨by decide, by decide, by decide, by decide⟩, ⟨by decide, by decide, by decide, by decide⟩⟩

theorem witness_SafeStateStays : (ready.alarm 3 0x40).integ.safe = true ∧
    exec .smbusTimeout (ready.alarm 3 0x40) = .next { ready.alarm 3 0x40 with bus := { (ready.alarm 3 0x40).bus with smbus := none } } :=
  ⟨rfl, rfl⟩

/-! ## Witnesses: turns, further legs, hatching, trees -/

theorem witness_WindowAndPacketsComplete :
    (ringing.start.stage = 0x0C ∧ ringing.windowSlice 8192 = none ∧ ringing.windowQueue 0 = some (0, 0) ∧
      ringing.windowQueue 4 = some (0, 4) ∧ ringing.windowQueue 8192 = none) ∧
    (let s := { ringing with
       window := (List.range 64).foldl (fun w i => w.putD (4096 + i) (readPacket.getD i 0) 0) []
       start := { ready.start with image := { ImageInfo.reset with formats := [le 2 0x6003] } } }
     s.queues.find 0 = some busyQueue ∧ s.start.stage = 0x0C ∧ busyQueue.t ≠ busyQueue.h ∧ s.packets.length < 65536 ∧
     s.slices.find busyQueue.slice = none ∧ s.unsettled = false ∧ s.ctxs.firstFree 0 65536 = some 0) := by decide

/-- VERIFY of SLH-DSA, whose ticks are fixed, beside that of another slice. -/
def slhCtx : Ctx := { cmd 0x1203 [] with param := 0x00120001 }
def twoSlices (l : List Turn) : State :=
  { seeded (holding slhCtx) with
    ctxs := [(7, slhCtx), (8, { slhCtx with slice := 1, q := 1 })]
    units := [(3, { UnitSt.reset with fam := 0x00120001, lastBench := 990, benched := [(3, 990)] })]
    turns := [(0, l)] }

/-- A launch that has the turn, and one behind another slice that is owed more. -/
theorem witness_LaunchesTakeTurns :
    (let s := twoSlices []
     s.launched (s.launchOn 7 3) 7 ≠ 0 ∧ s.myTurn 0 0 0 0 = true) ∧
    (let s := twoSlices [{ slice := 0, queue := 0, time := 5000 }, { slice := 1, queue := 1, time := 10 }]
     s.launched (s.launchOn 7 3) 7 ≠ 0 ∧ s.myTurn 0 0 0 0 = false) := by decide +kernel

/-- The next candidate of RSA_KEYGEN, on engine 16. -/
theorem witness_FurtherCandidate :
    let p := { mkPart 1 0 0x00220001 10 5 128 0 with phase := .between, unit := some 16, left := [5], iter := 5 }
    Under (launching (under p)) 7 (under p) ∧ FirstPart (under p) (fun q => q.phase = .between) 0 p ∧ p.rsaLoop = true ∧
    p.finishing = false ∧ (p.checkUnit = none ∧ p.unit = some 16) ∧ (launching (under p)).mayLaunch 16 = true ∧
    (launching (under p)).jobFree 16 = true ∧ (launching (under p)).drawState (unitRegion 16) = .serves :=
  ⟨under_ok _, first_ok _ _ rfl, rfl, rfl, ⟨rfl, rfl⟩, by decide, by decide, by decide⟩

theorem witness_CheckTurn : (launching (under { verifyOne with phase := .done, unit := some 3 })).myTurn 0 0 0 0 = true := by decide +kernel

theorem witness_Hatching :
    let s := { seeded ready with units := [(3, { benched with scrub := true })], datum := { ready.datum with flat := true } }
    s.datum.flat = true ∧ s.start.stage = 0x0C ∧ s.integ.safe = false ∧ s.unsettled = false ∧ s.unitFree 3 = true ∧
    s.hatchSeeded 3 = true ∧ (s.unitSt 3).needBench = false ∧ ((s.unitSt 3).scrub = true ∨ 2 ≤ unitKind 3) ∧
    s.now + 1 ≤ (s.unitSt 3).lastBench + 2000 ∧ s.workFor 3 = false ∧ unitKind 3 = 0 ∧
    s.loadedSets (famOf ((s.unitSt 3).currentSet 3)) = [] ∧
    ({ s with start := { s.start with image := { ImageInfo.reset with params := [le 4 0x00110001] } } } : State).loadedSets 2 = [0x00110001] := by
  decide +kernel

/-- The generation of a stateful key begins. -/
theorem witness_StatefulBegins :
    let c := { lmsCtx with slice := 1, keyA := 0 }
    let s := { holding c with slices := [(1, { slice1 .active with keySlots := 16 })] }
    MayRun s 7 0x1301 c ∧ s.keyTests c = .ok s ∧
    ∃ t h, s.reserveFor 7 c = some t ∧ t.ctxs.find 7 = some { c with reserved := some h } :=
  ⟨⟨⟨rfl, rfl, rfl, by decide, rfl, rfl, by decide, by decide⟩, by decide⟩, rfl, _, _, rfl, rfl⟩

/-- A batch between its legs; one that is to be checked; a tree with room for another, and with its join left. -/
theorem witness_TreeBatches :
    let b : Build := { id := 1, level := 0, unit := 3, check := none, ends := 1000, left := [5] }
    let done := { b with left := [] }
    let checked := { done with check := some 4 }
    let x := { UnitSt.reset with fam := 0x00130001, lastBench := 990, benched := [(4, 990)] }
    let k := (Slot.empty 2 .live).withKey [] key5 0 0 0 { policyOf [] with param := 0x00130001 } [1]
    let at_ := fun (l : Nat) (bs : List Build) =>
      { stateful (seeded ready) { keyId := 1, level := 0, left := l } bs with
        units := [(3, x), (4, x)], keys := { ready.keys with slots := [(slotKey key5, k)] } }
    ((at_ 3 [b]).mayLaunch b.sheet = true ∧ (at_ 3 [b]).jobFree b.sheet = true ∧
      (at_ 3 [b]).benchFirst b.sheet 5 ((at_ 3 [b]).buildSet leaves1) = none) ∧
    (at_ 3 [checked]).buildsOf 1 0 = [checked] ∧
    ((at_ 3 [done]).unitFree 4 = true ∧ (at_ 3 [done]).meetsR19 0 0 = true ∧ (at_ 3 [done]).passedOver 4 3 = false ∧
      (at_ 3 [done]).drawState 0 = .serves ∧ (at_ 3 [done]).myTurn (leaves1.handle / 2 ^ 48) 0 0 0 = true) ∧
    ((at_ 3 []).buildsOf 1 0 = [] ∧ (1 < 3 ∧ 0 + 1 < 3) ∧ (at_ 1 []).buildsOf 1 0 = [] ∧ (at_ 3 []).unitFree 4 = true) := by
  decide +kernel

theorem witness_PreparationSteps :
    let b : Build := { id := key5, level := 0, unit := 4, check := none, ends := 1000, left := [] }
    let s := { preparing with keys := { preparing.keys with preps := [b] } }
    s.keys.preps.find? (·.id == key5) = some b ∧ b.ends ≤ s.now ∧ b.check = none ∧ s.meetsR19 (unitRegion b.unit) 0 = true ∧
    unitRegion 3 = unitRegion b.unit ∧ unitKind 3 = 0 ∧ 3 ≠ b.unit ∧ s.unitFree 3 = true ∧ s.passedOver 3 b.unit = false ∧
    ({ b with check := some 3 } : Build).check = some 3 := by decide

/-- A key of Classic McEliece named by an encapsulation. -/
theorem witness_McelieceCache :
    let k := (Slot.empty 2 .live).withKey [] key5 0 0 0 { policyOf [] with param := 0x00150001 } [1]
    let s := { holding { cmd 0x1502 [] with keyA := key5 } with keys := { ready.keys with slots := [(slotKey key5, k)] } }
    s.unsettled = false ∧ (s.liveKey key5).isSome = true ∧ mceSet (s.policyOfKey key5).param = true ∧
    s.keyReady { cmd 0x1502 [] with keyA := key5 } key5 = false ∧
    s.mceRoom (mceEntries (s.policyOfKey key5).param) 1025 s.keys.mceCache = some [] := by decide +kernel

/-! ## Witnesses: commits, requests, certificates -/

/-- The header of an image of one page by signer 1, but for its CRC. -/
def header : Bytes :=
  le 4 0x314E5153 ++ le 2 1 ++ le 2 1 ++ le 8 1 ++ le 4 0 ++ le 4 0 ++ le 4 1 ++ le 2 0 ++ le 2 0x6424 ++ List.replicate 12252 0
def commitBytes : Bytes := header ++ le 4 (crc32c header)

theorem header_length : header.length = 12284 := by decide +kernel

theorem bk_commit (off n : Nat) (h : off + n ≤ 12284) : bk commitBytes off n = bk header off n := by
  have e : bytesAt commitBytes off n = bytesAt header off n := by
    have l := header_length
    rw [bytesAt, commitBytes, List.drop_append_of_le_length (by omega), List.take_append_of_le_length (by rw [List.length_drop]; omega)]
    rfl
  rw [bk, bk, e]

/-- The signer of slot 1 has enrolled a key of zeros. -/
def enrolled (s : State) : State := { s with lcs := { s.lcs with signers := [some (sha384 (List.replicate 2592 0)), none, none] } }

theorem enrolled_key (l : LifeCycle) (pk : Bytes) (h : l.signers.getD 0 none = some (sha384 pk))
    (r : l.revoked.getD 0 .unburnt = .unburnt) : l.signerKey 1 pk = true := by
  rw [LifeCycle.signerKey, if_neg (by decide), h, r, beq_self_eq_true]; rfl

theorem header_ok (s : State) (b : Bytes) (d : Nat) (h : headerFieldsOk b = true)
    (k : s.signerOk b = true) (l : s.start.svnFloor ≤ Bank.svnAt b)
    (m : Bank.minSvnAt b ≤ Bank.svnAt b) (p : Bank.pagesAt b * 4096 = d) (q : s.bootBank.seq < Bank.sequenceAt b) :
    s.commitHeaderOk b d = true := by
  simp [State.commitHeaderOk, h, k, l, m, p, q]

/-- A first packet whose header passes and whose signature a sheet has verified. -/
theorem witness_CommitVerified :
    let c := { commitCtx with payload := commitBytes, parts := [onUnit3 .passed] }
    let s := enrolled { committing 0 16 none with ctxs := [(7, c)] }
    MayRun s 7 0x0141 c ∧ (∃ e, s.stream c.q c.stream = some e ∧ e.first = c.seq ∧ s.commitHeaderOk c.payload e.declared = true) ∧
    c.parts ≠ [] ∧ s.commitActive = false ∧ s.start.tokens ≠ 0 := by
  have f : ∀ off n, off + n ≤ 12284 → bn commitBytes off n = bn header off n := fun off n h => by rw [bn, bn, bk_commit off n h]
  have k : bn commitBytes 0x2FFC 4 = crc32c (bk commitBytes 0 0x2FFC) := by
    have l : header.length = 0x2FFC := header_length
    have a : bytesAt commitBytes 0 0x2FFC = header := by
      rw [bytesAt, List.drop_zero, commitBytes, ← l]; exact List.take_left
    have b : bytesAt commitBytes 0x2FFC 4 = le 4 (crc32c header) := by
      rw [bytesAt, commitBytes, ← l, List.drop_left]; exact List.take_of_length_le (by simp)
    have z : ∀ x : Bytes, bk x 0x2FFC 4 = bytesAt x 0x2FFC 4 ++ List.replicate (4 - (bytesAt x 0x2FFC 4).length) 0xFF#8 := fun _ => rfl
    have y : bk commitBytes 0 0x2FFC = header := by
      rw [bk, a, l]; simp
    rw [bn, z, b, y, le_length, Nat.sub_self, List.replicate_zero, List.append_nil, leNat_le]
    exact Nat.mod_eq_of_lt (crc32c_lt _)
  have g : headerFieldsOk commitBytes = true := by
    rw [headerFieldsOk, k, f _ _ (by decide), f _ _ (by decide), f _ _ (by decide), f _ _ (by decide), Bank.sequenceAt,
      f _ _ (by decide), bk_commit _ _ (by decide), bk_commit _ _ (by decide), beq_self_eq_true, Bool.true_and]
    decide +kernel
  have w : ∀ o n v, o + n ≤ 12284 → bn header o n = v → bn commitBytes o n = v := fun o n v h e => (f o n h).trans e
  refine ⟨?_, ⟨_, rfl, rfl, header_ok _ _ _ g ?_ ?_ ?_ ?_ ?_⟩, List.cons_ne_nil _ _, rfl, ?_⟩
  · exact ⟨⟨rfl, rfl, rfl, by show 999 < 1000; decide, rfl, rfl, rfl, rfl⟩, rfl⟩
  · rw [State.signerOk, Bank.signerAt, w 6 2 1 (by decide) (by decide +kernel), bk_commit _ _ (by decide),
      show bk header 0x860 2592 = List.replicate 2592 0 from by decide +kernel, enrolled_key _ _ rfl rfl]
    decide +kernel
  · exact Nat.zero_le _
  · rw [Bank.minSvnAt, Bank.svnAt, w 0x14 4 0 (by decide) (by decide +kernel), w 0x10 4 0 (by decide) (by decide +kernel)]
  · rw [Bank.pagesAt, w 0x18 4 1 (by decide) (by decide +kernel)]
    rfl
  · rw [Bank.sequenceAt, w 0x08 8 1 (by decide) (by decide +kernel)]
    exact Nat.one_pos
  · show 16 ≠ 0
    decide

/-! ## Witnesses: the life cycle -/

/-- A request from DEPLOYED to ANALYSIS by the release key. -/
def requestHead (kind signer from_ to_ : Nat) : Bytes :=
  le 4 1 ++ le 2 kind ++ le 2 signer ++ le 8 0 ++ le 4 from_ ++ le 4 to_ ++ List.replicate 152 0

theorem octets_at (h m t : Bytes) : bytesAt (h ++ m ++ t) h.length m.length = m := by
  rw [bytesAt, List.append_assoc, List.drop_left, List.take_left]

theorem head_at (h t : Bytes) (o n : Nat) (l : o + n ≤ h.length) : bytesAt (h ++ t) o n = bytesAt h o n := by
  rw [bytesAt, bytesAt, List.drop_append_of_le_length (by omega), List.take_append_of_le_length (by rw [List.length_drop]; omega)]

/-- A deployed device. -/
def deployed (k : Nat) : LifeCycle := { ready.lcs with groups := [.burnt, .burnt, if k = 3 then .burnt else .unburnt, .unburnt, .unburnt]
                                                       signers := [some (sha384 (List.replicate 2592 0)), none, none] }

theorem signed_request (s : State) (signer from_ to_ : Nat) (pk sig : Bytes) (l : pk.length = 2592)
    (d : s.keys.serial = 0) (c : s.lcs.code = from_)
    (f : (let p := requestHead 1 signer from_ to_
      uAt p 0 4 = 1 ∧ zeroAt p 0xA8 8 = true ∧ uAt p 8 8 = 0 ∧ uAt p 0x10 4 = from_ ∧ uAt p 4 2 = 1 ∧ uAt p 6 2 = signer ∧
      uAt p 0x14 4 = to_ ∧ zeroAt p 0x18 144 = true ∧ p.length = 176)) (a : requestAllowed from_ 1 signer to_ = true)
    (k : s.lcs.signerKey signer pk = true) :
    s.requestFieldsOk (requestHead 1 signer from_ to_ ++ pk ++ sig) = true := by
  obtain ⟨f1, f2, f3, f4, f5, f6, f7, f8, f9⟩ := f
  have e : ∀ o n, o + n ≤ 176 → bytesAt (requestHead 1 signer from_ to_ ++ pk ++ sig) o n = bytesAt (requestHead 1 signer from_ to_) o n := by
    intro o n h
    rw [List.append_assoc]
    exact head_at _ _ _ _ (by omega)
  have g : bytesAt (requestHead 1 signer from_ to_ ++ pk ++ sig) 0xB0 2592 = pk := by
    have := octets_at (requestHead 1 signer from_ to_) pk sig
    rwa [f9, l] at this
  simp only [uAt, zeroAt] at f1 f2 f3 f4 f5 f6 f7 f8
  rw [State.requestFieldsOk]
  simp only [uAt, zeroAt]
  rw [e 0 4 (by decide), e 0xA8 8 (by decide), e 8 8 (by decide), e 0x10 4 (by decide), e 4 2 (by decide), e 6 2 (by decide),
    e 0x14 4 (by decide), e 0x18 144 (by decide), g, f1, f2, f3, f4, f5, f6, f7, f8, k, c, d, a]
  simp

/-- READY, deployed, with command 7 after its verification. -/
def asking (k : Nat) (c : Ctx) : State := { holding c with lcs := deployed k }

theorem may_at (o k : Nat) (p : Bytes) : MayRun (asking k (cmd o p)) 7 o (cmd o p) :=
  ⟨⟨rfl, rfl, rfl, by show 999 < 1000; decide, rfl, rfl, rfl, rfl⟩, by
    have h : (cmd o p).timeBound = false := by show Nat.testBit 0 4 = false; decide
    simp [State.deadlineTest, h]⟩

/-- A queue's request that the release key signs, and a request for DEPLOYED that signer 1 signs, over SMBus. -/
theorem witness_Requests (pk sig : Bytes) (l : pk.length = 2592) (g : sig.length = 4627) (r : sha384 pk = releaseDigest)
    (v : ∀ h z : Bytes, h.length = 176 → z.length = 2592 → requestSigned (h ++ z ++ sig) = true) :
    (let p := requestHead 1 0 3 4 ++ pk ++ sig
     let c := { cmd 0x0150 p with parts := [onUnit3 .passed] }
     AtTurn (asking 3 c) 7 0x0150 c ∧ c.parts ≠ [] ∧ uAt c.payload 0x14 4 = 4 ∧ (asking 3 c).lcs.code = 3 ∧
     (asking 3 c).requestFieldsOk c.payload = true ∧ requestSigned c.payload = true ∧
     MayRun (asking 3 (cmd 0x0150 p)) 7 0x0150 (cmd 0x0150 p)) ∧
    (let p := requestHead 1 1 2 3 ++ List.replicate 2592 0 ++ sig
     let s := { ready with lcs := deployed 2 }
     s.start.perst = false ∧ s.start.vddGood = true ∧ s.integ.safe = false ∧ p.length = 7395 ∧ s.requestFieldsOk p = true ∧
     requestSigned p = true) := by
  have h : ∀ a b c d, (requestHead a b c d).length = 176 := by
    intro a b c d
    simp [requestHead, le_length]
  refine ⟨⟨⟨rfl, rfl, rfl, by show 999 < 1000; decide, rfl, rfl, rfl, rfl⟩, List.cons_ne_nil _ _, rfl, rfl, ?_, ?_, ?_⟩,
    rfl, rfl, rfl, ?_, ?_, ?_⟩
  · refine signed_request _ 0 3 4 pk sig l rfl rfl (by decide +kernel) (by decide) ?_
    rw [LifeCycle.signerKey, if_pos rfl, r, beq_self_eq_true]
  · exact v _ _ (h _ _ _ _) l
  · exact may_at _ 3 _
  · rw [List.length_append, List.length_append, h, List.length_replicate, g]
  · exact signed_request _ 1 2 3 _ sig List.length_replicate rfl rfl (by decide +kernel) (by decide) (enrolled_key _ _ rfl rfl)
  · exact v _ _ (h _ _ _ _) List.length_replicate

/-- A certificate of signer 1 for a deployed device, in force until second 6, and one with the same right whose time is over. -/
def certHead (notAfter : Nat) : Bytes :=
  le 4 1 ++ le 4 3 ++ le 8 0 ++ le 8 notAfter ++ le 8 8 ++ le 2 1 ++ List.replicate 6 0

theorem cert_early (s : State) (n : Nat) (sig : Bytes) (d : s.keys.serial = 0) (c : s.lcs.code = 3)
    (f : (let p := certHead n
      uAt p 0 4 = 1 ∧ zeroAt p 0x22 6 = true ∧ uAt p 4 4 = 3 ∧ uAt p 8 8 = 0 ∧ uAt p 0x10 8 = n ∧ uAt p 0x18 8 = 8 ∧
      uAt p 0x20 2 = 1 ∧ p.length = 40)) (k : s.lcs.signerKey 1 (List.replicate 2592 0) = true) :
    let p := certHead n ++ List.replicate 2592 0 ++ sig
    s.certEarly p = true ∧ s.certBound (certOf p) = true ∧ (certOf p).notAfter = n := by
  obtain ⟨f1, f2, f3, f4, f5, f6, f7, f8⟩ := f
  have e : ∀ o m, o + m ≤ 40 → bytesAt (certHead n ++ List.replicate 2592 0 ++ sig) o m = bytesAt (certHead n) o m := by
    intro o m h
    rw [List.append_assoc]
    exact head_at _ _ _ _ (by omega)
  have g : bytesAt (certHead n ++ List.replicate 2592 0 ++ sig) 0x28 2592 = List.replicate 2592 0 := by
    have := octets_at (certHead n) (List.replicate 2592 0) sig
    rwa [f8, List.length_replicate] at this
  simp only [uAt, zeroAt] at f1 f2 f3 f4 f5 f6 f7
  have b : s.certBound (certOf (certHead n ++ List.replicate 2592 0 ++ sig)) = true := by
    simp only [State.certBound, certOf, uAt]
    rw [e 8 8 (by decide), e 4 4 (by decide), e 0x20 2 (by decide), g, f3, f4, f7, k, c, d]
    decide
  refine ⟨?_, b, ?_⟩
  · have r : (certOf (certHead n ++ List.replicate 2592 0 ++ sig)).rights = 8 := by
      simp only [certOf, uAt]
      rw [e 0x18 8 (by decide), f6]
    have i : (certOf (certHead n ++ List.replicate 2592 0 ++ sig)).signer = 1 := by
      simp only [certOf, uAt]
      rw [e 0x20 2 (by decide), f7]
    simp only [State.certEarly, uAt, zeroAt]
    rw [b, r, i, e 0 4 (by decide), e 0x22 6 (by decide), f1, f2]
    decide
  · simp only [certOf, uAt]
    rw [e 0x10 8 (by decide), f5]

theorem time_of_datum (c : Ctx) (n : Nat) {b : Bool} (h : decide (5000001000 < n) = b) : (asking 3 c).certTime n = b := by
  have a : ready.datum.v + ready.datum.unc = 5000001000 := by decide +kernel
  show (decide (ready.datum.st = .trusted) && decide (ready.datum.v + ready.datum.unc < n)) = b
  rw [a, h]
  rfl

theorem witness_Certificates (sig : Bytes) (g : sig.length = 4627)
    (v : ∀ h : Bytes, h.length = 40 → mldsaOk 0x00110003 (List.replicate 2592 0) (ascii "MAELARN-DEBUG") h sig = true) :
    let p := certHead 6000000000 ++ List.replicate 2592 0 ++ sig
    let q := certHead 5000001000 ++ List.replicate 2592 0 ++ sig
    let c := { cmd 0x0151 p with parts := [onUnit3 .passed] }
    let d := { cmd 0x0151 q with parts := [onUnit3 .passed] }
    AtTurn (asking 3 c) 7 0x0151 c ∧ c.parts ≠ [] ∧ (asking 3 c).certStatus c.payload = 0 ∧
    AtTurn (asking 3 d) 7 0x0151 d ∧ (asking 3 d).certStatus d.payload ≠ 0 ∧ (asking 3 c).certEarly p = true ∧
    p.length = 7259 ∧ MayRun (asking 3 (cmd 0x0151 p)) 7 0x0151 (cmd 0x0151 p) := by
  have h : ∀ n, (certHead n).length = 40 := by
    intro n
    simp [certHead, le_length]
  have m : ∀ n (s : State), s.lcs.signerKey 1 (List.replicate 2592 0) = true → s.keys.serial = 0 → s.lcs.code = 3 →
      (let p := certHead n
      uAt p 0 4 = 1 ∧ zeroAt p 0x22 6 = true ∧ uAt p 4 4 = 3 ∧ uAt p 8 8 = 0 ∧ uAt p 0x10 8 = n ∧ uAt p 0x18 8 = 8 ∧
      uAt p 0x20 2 = 1 ∧ p.length = 40) →
      s.certStatus (certHead n ++ List.replicate 2592 0 ++ sig) = if s.certTime n then St.ok else St.timeUntrusted := by
    intro n s k d c f
    obtain ⟨a, b, t⟩ := cert_early s n sig d c f k
    have w : bytesAt (certHead n ++ List.replicate 2592 0 ++ sig) 0x28 2592 = List.replicate 2592 0 := by
      have := octets_at (certHead n) (List.replicate 2592 0) sig
      rwa [h, List.length_replicate] at this
    have x : bytesAt (certHead n ++ List.replicate 2592 0 ++ sig) 0xA48 4627 = sig := by
      have := octets_at (certHead n ++ List.replicate 2592 0) sig []
      rwa [List.append_nil, List.length_append, h, List.length_replicate, g] at this
    have y : (certHead n ++ List.replicate 2592 0 ++ sig).take 0x28 = certHead n := by
      rw [List.append_assoc, ← h n, List.take_left]
    have z : s.certBinds (certOf (certHead n ++ List.replicate 2592 0 ++ sig)) = true := by
      rw [State.certBinds, b]
      simp only [certOf]
      rw [w, x, y, v _ (h n)]
      rfl
    rw [State.certStatus, t, a, z]
    rfl
  have y : ∀ c : Ctx, (asking 3 c).certTime 6000000000 = true := fun _ => time_of_datum _ _ (by decide)
  have z : ∀ c : Ctx, (asking 3 c).certTime 5000001000 = false := fun _ => time_of_datum _ _ (by decide)
  refine ⟨⟨rfl, rfl, rfl, by show 999 < 1000; decide, rfl, rfl, rfl, rfl⟩, List.cons_ne_nil _ _, ?_,
    ⟨rfl, rfl, rfl, by show 999 < 1000; decide, rfl, rfl, rfl, rfl⟩, ?_, ?_, ?_, may_at _ 3 _⟩
  · exact (m _ _ (enrolled_key _ _ rfl rfl) rfl rfl (by decide +kernel)).trans (by rw [y]; rfl)
  · refine ne_of_eq_of_ne (m _ _ (enrolled_key _ _ rfl rfl) rfl rfl (by decide +kernel)) ?_
    rw [z]
    decide
  · exact (cert_early _ _ _ rfl rfl (by decide +kernel) (enrolled_key _ _ rfl rfl)).1
  · rw [List.length_append, List.length_append, h, List.length_replicate, g]

/-! ## Witnesses: SPDM requests and records -/

/-- A responder that answers capabilities, and one that answers its algorithms. -/
def talking (caps : Bool) : State :=
  { responder 0 with bus := { (responder 0).bus with spdm := { (responder 0).bus.spdm with caps := caps, algs := false } } }

/-- A request with fields of zeros. -/
def request (code p1 p2 n : Nat) : Bytes := spdmMsg code p1 p2 (le n 0)

theorem plain (s : State) (c a b : Nat) (body : Bytes) (r : s.start.stage = 0x0C) (p : s.bus.spdm.path = .doe) (h : c < 256) :
    Plain s .doe (spdmMsg c a b body) c := by
  refine ⟨r, ?_, ?_, ?_, p⟩
  · simp [spdmMsg, le_length]
    omega
  · simp [spdmMsg, uAt, bytesAt, le, leNat]
  · simpa [spdmMsg, uAt, bytesAt, le, leNat] using h

/-- The offers of a requester: AEAD and key schedule of the device, or an AEAD that it lacks. -/
def offersOf (dhe : Nat) : Bytes :=
  spdmMsg 0xE3 2 0 (le 2 40 ++ le 2 0 ++ le 4 0x80 ++ le 4 2 ++ le 16 0 ++ le 1 2 ++ le 1 0x20 ++ le 2 dhe ++ le 1 3 ++ le 1 0x20 ++ le 2 2)

theorem witness_PlainRequests :
    (4 ≤ (octets [0x10, 0x84, 0, 0]).length ∧ uAt (octets [0x10, 0x84, 0, 0]) 0 1 = 0x10) ∧
    (talking false).bus.spdm.version = true ∧ (talking false).bus.spdm.caps = false ∧ (request 0xE1 0 0 16).length = 20 ∧
    (talking true).bus.spdm.caps = true ∧ (talking true).bus.spdm.algs = false ∧
    (∀ d ∈ [0x10, 1], uAt (offersOf d) 4 2 = (offersOf d).length ∧ uAt (offersOf d) 8 4 &&& 0x80 ≠ 0 ∧ uAt (offersOf d) 12 4 &&& 2 ≠ 0 ∧
      algTables (uAt (offersOf d) 2 1) ((offersOf d).drop (32 + 4 * (uAt (offersOf d) 28 1 + uAt (offersOf d) 29 1))) = some [(2, d), (3, 2)]) ∧
    offers [(2, 0x10), (3, 2)] 2 0x10 = true ∧ offers [(2, 1), (3, 2)] 2 0x10 = false ∧
    (request 0x82 0 0 4).length = 8 ∧ uAt (request 0x82 0 0 4) 4 2 < (responder 0).keys.chain.length ∧ uAt (request 0x82 1 0 4) 2 1 ≠ 0 ∧
    (request 0x83 0 0 40).length = 44 ∧ (request 0xE0 0 255 8).length = 12 ∧ bitOf (uAt (request 0xE0 1 7 41) 2 1) 0 = true ∧
    (request 0xE0 1 7 41).length = 45 ∧ uAt (request 0xE0 1 7 41) 36 1 = 0 := by
  refine ⟨by decide, rfl, rfl, by decide, rfl, rfl, by decide, by decide, by decide, by decide, by decide, by decide, by decide,
    by decide, by decide, by decide, by decide⟩

/-- A key exchange whose public key is the generator. -/
def exchange : Bytes := spdmMsg 0xE4 0 0 (le 36 0 ++ be 48 curveP384.gx ++ be 48 curveP384.gy ++ le 2 0)

theorem witness_KeyExchange : (responder 0).bus.spdm.session = 0 ∧ uAt exchange 3 1 = 0 ∧ exchange.length = 138 + uAt exchange 136 2 ∧
    curveP384.pointOk (4#8 :: bytesAt exchange 40 96) = true := by
  refine ⟨rfl, by decide +kernel, by decide +kernel, by decide +kernel⟩

/-- A record of any message that is sealed under the session's key opens to it. -/
theorem witness_InSession (n : Nat) (m : Bytes) (h : n ≠ 0) (l : m.length < 65000) (v : uAt m 0 1 = 0x13) (f : 4 ≤ m.length) :
    ∃ t, InSession (responder n) .doe ((responder n).bus.spdm.toDev.sealRecord .doe 0 m) n m t ∧
      t.bus.spdm.toDev.secret = (responder n).bus.spdm.toDev.secret ∧ t.bus.spdm.th = (responder n).bus.spdm.th ∧
      t.bus.spdm.ideKeys = (responder n).bus.spdm.ideKeys := by
  have o := SpdmKey.openRecord_seal (responder n).bus.spdm.toDev .doe 0 m l
  have e : (responder n).openRecord ((responder n).bus.spdm.toDev.sealRecord .doe 0 m) =
      some (m, (responder n).setSpdm fun p => { p with toDev := { p.toDev with seq := p.toDev.seq + 1 } }) := by
    rw [State.openRecord]
    show (match SpdmKey.openRecord (responder n).bus.spdm.toDev .doe 0 _ with | some m => _ | none => _) = _
    rw [o]
  exact ⟨_, ⟨rfl, rfl, h, rfl, e, v, f⟩, rfl, rfl, rfl⟩

/-- A vendor message of a protocol. -/
def vendor (protocol : Nat) (body : Bytes) : Bytes :=
  spdmMsg 0xFE 0 0 (le 2 3 ++ le 1 2 ++ le 2 1 ++ le 2 (body.length + 1) ++ le 1 protocol ++ body)

/-- A TDISP message to the interface of slice 1. -/
def tdispTo (type : Nat) (body : Bytes) : Bytes := vendor 1 (le 1 0x10 ++ le 1 type ++ le 2 0 ++ le 12 (1 * 2 ^ 32) ++ body)

/-- The messages of the rows within a session. -/
theorem witness_SessionMessages :
    (let m := spdmMsg 0xE5 0 0 []
     let f := m ++ verifyData [] m
     uAt f 1 1 = 0xE5 ∧ bitOf (uAt f 2 1) 0 = false ∧ f.length = 52 ∧ f.take 4 = m ∧ f.drop 4 = verifyData [] m) ∧
    (∀ c ∈ [0xEC, 0xE8], uAt (spdmMsg c 0 0 []) 1 1 = c) ∧
    (∀ p ∈ [1, 2, 3], uAt (spdmMsg 0xE9 p 0 []) 1 1 = 0xE9 ∧ uAt (spdmMsg 0xE9 p 0 []) 2 1 = p) ∧
    (∀ b ∈ [octets [0, 0, 0, 3, 0, 0, 0], octets [2, 0, 0, 3, 0, 0, 0] ++ le 40 0, octets [5, 0, 0, 3, 0, 0, 0], octets [4, 0, 0, 3, 0, 0, 0]],
      vendorOf 0 (vendor 0 b) = true ∧ (vendor 0 b).drop 12 = b ∧ uAt b 3 1 = 3) ∧
    (∀ p ∈ [(0x81, 0), (0x82, 4), (0x83, 20), (0x84, 4), (0x85, 0), (0x86, 32), (0x87, 0)],
      let m := tdispTo p.1 (le p.2 0)
      vendorOf 1 m = true ∧ uAt m 12 1 = 0x10 ∧ zeroAt m 22 6 = true ∧ 28 ≤ m.length ∧ uAt m 20 2 = 1 ∧ uAt m 13 1 = p.1 ∧
      (m.drop 28).length = p.2) := by
  refine ⟨by decide +kernel, by decide, by decide, by decide, by decide⟩

/-! ## Witnesses: migration under way -/

/-- Command 7 runs and holds its result. -/
def resulted (o : Nat) (p : Bytes) : Ctx := { cmd o p with phase := .running, result := some { Result.bare 0 with out := le 2 1 } }

/-- An export's payload. -/
def exportOf (w : Bytes) : Bytes := le 2 1 ++ le 6 0 ++ w

theorem export_slice (w : Bytes) : uAt (exportOf w) 0 2 = 1 := rfl

theorem witness_MigrationRuns (w : Bytes)
    (h : prepareOk "MAELARN-MIGRATE" (bytesAt (exportOf w) 8 6307) ((exportOf w).drop 0x18AB) = true) :
    (let c := cmd 0x0106 (exportOf w)
     let s := sliced .frozen c
     SliceTurn s 7 0x0106 1 c ∧ zeroAt c.payload 2 2 = true ∧
     prepareOk "MAELARN-MIGRATE" (bytesAt c.payload 8 6307) (c.payload.drop 0x18AB) = true) ∧
    0x664 + ((sliced .frozen (cmd 0x0106 [])).exportBody 1 (slice1 .frozen)).length + 4723 ≤ 65536 := by
  exact ⟨⟨turn _ _ _ (export_slice w), rfl, h⟩, by decide +kernel⟩

theorem witness_MigrationEnds :
    (let c := resulted 0x0106 (exportOf [])
     let s := seeded (sliced .exported c)
     s.ctxs.find 7 = some c ∧ s.serving = true ∧ s.unsettled = false ∧ s.sliceOwes 1 = false ∧ s.drawState 4 = .serves) ∧
    (sliced .exported (resulted 0x0106 (exportOf []))).drawState 4 = .waits ∧
    (let s := sliced .exported (resulted 0x0106 (exportOf []))
     { s with rng := { s.rng with stage := .halted } }.drawState 4 = .failed) ∧
    { seeded (sliced .exported (resulted 0x0106 (exportOf []))) with
      stateful := { Stateful.reset with owed := [{ flags := 0, keyId := 1, nextUnreserved := 0, total := 1, seq := 1, block := 0, handle := 2 ^ 48, bad := false }] } }.sliceOwes 1 = true ∧
    (let c := resulted 0x0107 []
     let s := sliced .frozen c
     s.ctxs.find 7 = some c ∧ s.serving = true ∧ s.unsettled = false ∧ s.queues.find (uAt (le 2 1) 0 2) = some queue1) := by
  refine ⟨⟨rfl, by decide, by decide, by decide, by decide⟩, by decide, by decide, by decide, rfl, by decide, by decide, by decide⟩

/-! ## Witnesses: fuses and training -/

/-- A burn of the pending transition under way. -/
def burning (l : List Nat) : State :=
  { ready with
    start := { ready.start with burning := l, burnFrom := 0, stage := 3, env := some board }, now := 12000
    lcs := { ready.lcs with pending := some { kind := 1, from_ := 0, to_ := 1, digests := [] } } }

/-- The device waits for its memory at SEED. -/
def training (b : Bytes) (d : Bool) : State :=
  { ready with start := { ready.start with stage := 6, hbmTrained := false, flashA := b, bank := 0, env := some { board with secondDiffA := d } } }

theorem witness_BurnAndTraining (b : Bytes) (d : Bool) (h : ∀ n, loadReason n b d = 0) :
    (∀ l ∈ [[2], []], (burning (1 :: l)).start.burnFrom + 12000 ≤ (burning (1 :: l)).now ∧ (burning (1 :: l)).start.env = some board ∧
      (burning (1 :: l)).lcs.pending ≠ none ∧ (burning (1 :: l)).start.perst = false ∧ (burning (1 :: l)).start.stage = 3 ∧
      (burning (1 :: l)).integ.safe = false) ∧
    780 ≤ board.vddAonMv ∧ 1750 ≤ board.vppMv ∧ board.vppMv ≤ 1890 ∧
    (let s := seeded (training b d)
     s.start.perst = false ∧ s.start.vddGood = true ∧ s.start.hbmTrained = false ∧ s.start.stage = 6 ∧ s.atlasSeeded = true ∧
     ∃ e, s.start.env = some e ∧
      loadReason (s.free + 3) (s.flash s.start.bank) (if s.start.bank = 0 then e.secondDiffA else e.secondDiffB) = 0) ∧
    (training b d).atlasSeeded = false := by
  exact ⟨by decide, by decide, by decide, by decide, ⟨rfl, rfl, rfl, rfl, rfl, _, rfl, h _⟩, rfl⟩

/-! ## Witnesses: the source's tests and the instances -/

/-- The source in a stage, its cells with a trim and a last window at 0. -/
def sourcing (st : RngStage) (trim now : Nat) (ok : Bool) : State :=
  { ready with
    now := now
    rng := { ready.rng with stage := st, stageFrom := 0, cells := (List.range 8).map fun k => (k, { RngCell.reset with trim := trim, balanced := ok, since := 0 }) } }

/-- Where each test fails, a window ends, and balancing passes or is too late. -/
theorem witness_SourceTests :
    (∀ v ∈ [61, 62], 61 ≤ v) ∧ (∀ v ∈ [811, 1024], 811 ≤ v ∧ v ≤ 1024) ∧
    (∀ trim ∈ [0, 4095], ((sourcing .balancing trim 2000 false).rng.cells.getD 7 RngCell.reset).trim = trim) ∧
    { ready with rng := { ready.rng with mode := true, stage := .running } }.rng.mode = true ∧
    (∀ trim ∈ [0, 1, 4094, 4095], ((sourcing .running trim 1024 false).rng.cells.getD 0 RngCell.reset).since + 1024 ≤ 1024 ∧
      ((sourcing .running trim 1024 false).rng.cells.getD 0 RngCell.reset).trim = trim) ∧
    (sourcing .balancing 1 35999 false).now < (sourcing .balancing 1 35999 false).rng.stageFrom + 36000 ∧
    (sourcing .balancing 1 36000 false).rng.stageFrom + 36000 ≤ (sourcing .balancing 1 36000 false).now ∧
    ((sourcing .balancing 1 36001 true).rng.stageFrom + 36000 < (sourcing .balancing 1 36001 true).now) ∧
    (sourcing .balancing 1 36000 true).converged = true ∧
    ((sourcing .startupTest 1 1024 true).rng.stage = .startupTest ∧
      (sourcing .startupTest 1 1024 true).rng.stageFrom + 1024 ≤ (sourcing .startupTest 1 1024 true).now) := by
  decide

/-- The atlas instance before its first block and before its second, at SEED and at RUN. -/
theorem witness_Instances :
    (∀ g ∈ [0, 256], let s := { ready with rng := { ready.rng with stage := .running, blockFrom := 904, drbgs := [(4, { Drbg.reset with got := g })] }
                                           start := { ready.start with stage := 0x0A } }
      s.rng.blockFrom + 96 ≤ s.now ∧ (s.drbg 4).seeded = false ∧ (s.drbg 4).got = g ∧ s.start.stage ≠ 0x06) ∧
    (let s := { seeded ready with now := 60000000 }
     (s.drbg 3).seeded = true ∧ (s.drbg 3).kat + 60000000 ≤ s.now) ∧
    (let s := { ready with rng := { ready.rng with stage := .running } }
     (s.drbg 3).seeded = false ∧ s.rng.stage = .running) ∧
    (let s := { seeded ready with rng := { (seeded ready).rng with drbgs := [(5, { Drbg.reset with seeded := true, stopped := true, requests := 2 ^ 24 })] } }
     (s.drbg 5).stopped = true ∧ 2 ^ 24 ≤ (s.drbg 5).requests) := by
  decide

theorem witness_RngWaits :
    (∀ p ∈ [Phase.waiting, .running],
      let c := { cmd 0x5001 [16, 0, 0, 0, 0, 0, 0, 0] with waitFrom := some 0, phase := p }
      let s := { holding c with now := 2000000 }
      s.drawReady 7 c = false ∧ c.phase.decided = false ∧ s.unsettled = false ∧ 0 + 1000 * s.rng.waitMs ≤ s.now) ∧
    (let c := { cmd 0x5001 [16, 0, 0, 0, 0, 0, 0, 0] with waitFrom := some 0, flags := 16, deadline := 1 }
     let s := { holding c with now := 2000000 }
     s.drawReady 7 c = false ∧ s.deadlineTest c = some 0x0402) := by
  decide

/-- Contexts in the order of their numbers, as a step keeps them. -/
theorem witness_RisingContexts : (holding (cmd 0x5001 [])).ctxs.rising = true ∧
    (before (onSheet (based 0x23FFF8)) 5 0 [1, 2] []).ctxs.rising = true := by decide

end Sys2Proof.Tests
end

section
/-! # Loads and stores without an exception, and the chief core's control window (R11, R299, R308) -/

namespace Sys2Proof.Proofs

open Sys2Proof Sys2Proof.Machine Sys2Proof.Claims

/-! ## The frame of an instruction -/

/-- Only a waiting core wakes. -/
theorem wake_of_not_waiting {s : State} {c : Nat} (h : (s.core c).waiting = false) : s.wake c = s := by
  simp [State.wake, h]

/-- A core that issues an instruction which is neither illegal nor beyond its mode runs the instruction's body on the state
in which its guard has been read. -/
theorem insn_of_runs {s : State} {c : Nat} {g : BitVec 4} (h : Runs s c g) (w : BitVec 32) {priv : Bool}
    (hp : priv = true → Super s c g) (body : State → State) :
    s.insn c g w false priv body = .next (body (s.atGuard c g)) := by
  obtain ⟨hcore, hheld, hhalted, hwaiting, hfetch, hguard⟩ := h
  have hmode : (priv && !((s.atGuard c g).core c).priv) = false := by
    cases priv
    · rfl
    · have hs : ((s.atGuard c g).core c).priv = true := hp rfl
      simp [hs]
  simp [State.insn, Nat.not_le.2 hcore, wake_of_not_waiting hwaiting, hheld, hhalted, hwaiting, hfetch, hguard, hmode]

/-- The next instruction: only the core's PC and its cycle change. -/
theorem core_advance (s : State) (c : Nat) :
    (s.advance c).core c = { s.core c with pc := (s.core c).pc + 4, cycle := (s.core c).cycle + 1 } := by
  simp [State.advance]

/-- An update of a core and the next instruction are one change of that core alone. -/
theorem coreOnly_advance_onCore (b : State) (c : Nat) (f : Core → Core) :
    CoreOnly ((b.onCore c f).advance c) b c
      { f (b.core c) with pc := (f (b.core c)).pc + 4, cycle := (f (b.core c)).cycle + 1 } := by
  refine ⟨by rw [core_advance, State.core_onCore], fun d h => ?_, rfl⟩
  rw [State.advance, State.core_onCore_ne _ _ h, State.core_onCore_ne _ _ h]

/-! ## Loads and stores without an exception -/

section
variable {s : State} {c : Nat} {g : BitVec 4} {rs1 : BitVec 5} {p : Place}

/-- A load that meets no exception: rd takes the octets, then the next instruction. -/
theorem gives_ld {sz : BitVec 3} {rd : BitVec 5} {imm : BitVec 9} (h : Runs s c g) (hsz : sz ≠ 7) {b : State}
    (hb : before s c g [rs1] [rd] = b) {a : BitVec 64} (ha : loadAddr (b.core c) sz rs1 imm = a)
    (hal : a.toNat % loadSize sz = 0) (hp : placeOf c a.toNat (loadSize sz) = some p) {r : Nat × State}
    (hr : b.loadAt c p a.toNat (loadSize sz) = r) :
    Gives (.ld c g sz rd rs1 imm) s ((r.2.loaded c rd p (loadExtend sz r.1)).advance c) := by
  have hill : (sz == 7) = false := by simpa using hsz
  have hrun : (s.atGuard c g).runLd c sz rd rs1 imm = (r.2.loaded c rd p (loadExtend sz r.1)).advance c := by
    subst hb ha hr
    have hal' : ¬ (((before s c g [rs1] [rd]).core c).ldAddr sz rs1 imm).toNat % ldSize sz ≠ 0 := fun hn => hn hal
    have hp' : placeOf c (((before s c g [rs1] [rd]).core c).ldAddr sz rs1 imm).toNat (ldSize sz) = some p := hp
    show (if _ then _ else _) = _
    rw [before] at hal' hp'
    rw [if_neg hal', hp']
    rfl
  show execLd c g sz rd rs1 imm s = _
  rw [execLd, hill, insn_of_runs h _ (priv := false) (Bool.noConfusion ·), hrun]

/-- A store that meets no exception: the place takes the octets, then the next instruction. -/
theorem gives_st {sz : BitVec 2} {rs2 : BitVec 5} {imm : BitVec 10} (h : Runs s c g) {b : State}
    (hb : before s c g [rs1, rs2] [] = b) {a : BitVec 64} (ha : storeAddr (b.core c) sz rs1 imm = a)
    (hal : a.toNat % 2 ^ sz.toNat = 0) (hp : placeOf c a.toNat (2 ^ sz.toNat) = some p) (hw : p.writable = true) :
    Gives (.st c g sz rs2 rs1 imm) s
      ((b.storeAt c p a.toNat (2 ^ sz.toNat) ((b.core c).gx rs2).toNat).advance c) := by
  have hrun : (s.atGuard c g).runSt c sz rs2 rs1 imm =
      (b.storeAt c p a.toNat (2 ^ sz.toNat) ((b.core c).gx rs2).toNat).advance c := by
    subst hb ha
    have hal' : ¬ (((before s c g [rs1, rs2] []).core c).stAddr sz rs1 imm).toNat % 2 ^ sz.toNat ≠ 0 := fun hn => hn hal
    have hp' : placeOf c (((before s c g [rs1, rs2] []).core c).stAddr sz rs1 imm).toNat (2 ^ sz.toNat) = some p := hp
    show (if _ then _ else _) = _
    rw [before] at hal' hp'
    rw [if_neg hal', hp']
    show (if p.writable = true then _ else _) = _
    rw [if_pos hw]
    rfl
  show execSt c g sz rs2 rs1 imm s = _
  rw [execSt, insn_of_runs h _ (priv := false) (Bool.noConfusion ·), hrun]

end

/-- A load from a place that holds octets changes nothing by itself. -/
theorem loadAt_memory (b : State) (c : Nat) {p : Place} (a n : Nat) (h : p ≠ .window) :
    b.loadAt c p a n = (octets b c p a n, b) := by
  cases p
  case window => exact absurd rfl h
  all_goals rfl

/-- A load of the control window is a register read of 4 or 8 octets, and 0 otherwise (R11). -/
theorem loadAt_window (b : State) (c a n : Nat) :
    b.loadAt c .window a n = if n = 4 ∨ n = 8 then b.readReg (a - 0x100000000) (decide (n = 8)) else (0, b) := rfl

/-- A store of the chief core to the control window is a register write of 4 or 8 octets, and nothing otherwise (R11). -/
theorem storeAt_window_chief (b : State) (a n v : Nat) :
    b.storeAt 0 .window a n v = if n = 4 ∨ n = 8 then b.writeReg true (a - 0x100000000) (decide (n = 8)) v else b := rfl

/-! ## When the loaded value is there (R308, log 80) -/

/-- What a load from SRAM or ROM makes of the core: rd takes the value, which is there two cycles later. -/
def interlocked (rd : BitVec 5) (v : BitVec 64) (k : Core) : Core :=
  { k.setX rd v with loadRd := rd.toNat, loadAt := k.cycle + 2 }

/-- What any other load makes of the core: it stalls for `n + 1` cycles, what is due then happens, and rd takes the value. -/
def stalled (n : Nat) (rd : BitVec 5) (v : BitVec 64) (k : Core) : Core :=
  ((k.stallTo (k.cycle + n + 1)).settleTo (k.cycle + n + 1)).setX rd v

theorem loaded_fast (b : State) (c : Nat) (rd : BitVec 5) {p : Place} (v : BitVec 64) (h : p.fast = true) :
    b.loaded c rd p v = b.onCore c (interlocked rd v) := by
  rw [State.loaded, if_pos h]
  rfl

theorem loaded_slow (b : State) (c : Nat) (rd : BitVec 5) {p : Place} (v : BitVec 64) (h : p.fast = false) :
    b.loaded c rd p v = { b with free := b.free + 1 }.onCore c (stalled (Config.freeWord b.free).toNat rd v) := by
  have hmax : ∀ k : Core, (k.stallTo (k.cycle + b.arrival)).cycle = k.cycle + b.arrival := fun k =>
    Nat.max_eq_right (Nat.le_add_right _ _)
  rw [State.loaded, if_neg (by simp [h])]
  simp only [hmax]
  rfl

/-- An interlocked load changes rd, the load's record, PC and the cycle. -/
theorem loaded_fast_advance (b : State) (c : Nat) (rd : BitVec 5) {p : Place} (v : BitVec 64) (h : p.fast = true) :
    let k := b.core c
    let t := (b.loaded c rd p v).advance c
    (∀ r, (t.core c).gx r = if r = rd ∧ r ≠ 0 then v else k.gx r) ∧
      CoreOnly t b c
        { k with x := (t.core c).x, loadRd := rd.toNat, loadAt := k.cycle + 2, pc := k.pc + 4, cycle := k.cycle + 1 } := by
  intro k t
  have ht := coreOnly_advance_onCore b c (interlocked rd v)
  rw [← loaded_fast b c rd v h] at ht
  have hk : t.core c = _ := ht.1
  have hx : (t.core c).x = (k.setX rd v).x := by rw [hk]; rfl
  refine ⟨fun r => ?_, ?_⟩
  · rw [← Core.gx_setX k rd r v, hk]; rfl
  · rw [hx]
    convert ht using 1
    rw [interlocked, Core.setX_eq]

/-- A stalling load changes, after what was due by its end, rd, PC and the cycle. -/
theorem loaded_slow_advance (b : State) (c : Nat) (rd : BitVec 5) {p : Place} (v : BitVec 64) (h : p.fast = false) :
    let k := b.core c
    let n := k.cycle + (Config.freeWord b.free).toNat + 1
    let w := (k.stallTo n).settleTo n
    let t := (b.loaded c rd p v).advance c
    (∀ r, (t.core c).gx r = if r = rd ∧ r ≠ 0 then v else w.gx r) ∧
      CoreOnly t { b with free := b.free + 1 } c { w with x := (t.core c).x, pc := w.pc + 4, cycle := w.cycle + 1 } := by
  intro k n w t
  have ht := coreOnly_advance_onCore { b with free := b.free + 1 } c (stalled (Config.freeWord b.free).toNat rd v)
  rw [← loaded_slow b c rd v h] at ht
  have hk : t.core c = _ := ht.1
  have hx : (t.core c).x = (w.setX rd v).x := by rw [hk]; rfl
  refine ⟨fun r => ?_, ?_⟩
  · rw [← Core.gx_setX w rd r v, hk]; rfl
  · rw [hx]
    convert ht using 1
    show _ = { w.setX rd v with pc := (w.setX rd v).pc + 4, cycle := (w.setX rd v).cycle + 1 }
    rw [Core.setX_eq]

/-! ## The loads of the obligation -/

theorem loadResults : Claims.LoadResults := by
  intro c g sz rd rs1 imm s p h hsz b k a hal hp hpw v
  exact ⟨_, gives_ld h hsz rfl rfl hal hp (loadAt_memory b c a.toNat (loadSize sz) hpw),
    loaded_fast_advance b c rd v, loaded_slow_advance b c rd v⟩

theorem controlWindowAccess : Claims.ControlWindowAccess :=
  ⟨fun _ _ _ _ _ _ h hsz hal hp => gives_ld h hsz rfl rfl hal hp (loadAt_window _ 0 _ _),
    fun _ _ _ _ _ _ h hal hp => by
      rw [← storeAt_window_chief]
      exact gives_st h rfl rfl hal hp rfl⟩

/-- Settles O36: each load and store is first reduced to its place, then rd and the core to what the place's kind does. -/
theorem loads : Obligations.Loads := ⟨loadResults, controlWindowAccess⟩

end Sys2Proof.Proofs
end

section
/-! # The control window: what stands at an offset, and what the host's reads and writes do (R11 to R13, R60, R96, R376, R393,
R396) -/

namespace Sys2Proof.Proofs

open Sys2Proof Sys2Proof.Machine Sys2Proof.Claims

/-- An answer follows from the state it answers. -/
theorem next_congr {t u : State} (h : t = u) : (Host.Outcome.next t : Out) = .next u := congrArg _ h

/-! ## The registers do not depend on the bus -/

/-- The state with another bus. -/
def withBus (b : Bus) (s : State) : State := { s with bus := b }

section
variable (b : Bus) (s : State)

theorem lowReg_withBus (o : Nat) : (withBus b s).lowReg o = s.lowReg o := rfl
theorem regionReg_withBus (r o : Nat) : (withBus b s).regionReg r o = s.regionReg r o := rfl
theorem evcReg_withBus (o : Nat) : (withBus b s).evcReg o = s.evcReg o := rfl
theorem sliceReg_withBus (n o : Nat) : (withBus b s).sliceReg n o = s.sliceReg n o := rfl
theorem queueReg_withBus (q o : Nat) : (withBus b s).queueReg q o = s.queueReg q o := rfl

theorem regAt_withBus (o : Nat) : (withBus b s).regAt o = s.regAt o := by
  rw [State.regAt, State.regAt, lowReg_withBus, regionReg_withBus, evcReg_withBus, sliceReg_withBus, queueReg_withBus]

/-- What the window serves does not depend on what the bus holds. -/
theorem served_withBus (o : Nat) : (withBus b s).served o = s.served o := by
  show (if s.stopped && !servedStopped o then none else (withBus b s).regAt o) = _
  rw [regAt_withBus]
  rfl

/-- A read's clearing neither uses nor changes the bus. -/
theorem clearRc_withBus (o : Nat) : (withBus b s).clearRc o = withBus b (s.clearRc o) := by
  simp only [State.clearRc, apply_ite (withBus b)]
  rfl

end

/-! ## Where a register stands -/

section
variable {s : State} {o : Nat}

/-- At READY the window serves every register. -/
theorem served_of_ready (h : s.start.stage = 0x0C) : s.served o = s.regAt o := by
  simp [State.served, State.stopped, h]

theorem regAt_low (h : o < 0x00100000) : s.regAt o = s.lowReg o := if_pos h

theorem regAt_event (h : 0x01000000 ≤ o) (h' : o < 0x02000000) : s.regAt o = s.evcReg (o - 0x01000000) := by
  rw [State.regAt, if_neg (by omega), if_neg (by omega), if_neg (by omega), if_pos h']

theorem regAt_queue (h : 0x02800000 ≤ o) (h' : o < 0x03000000) :
    s.regAt o = s.queueReg ((o - 0x02800000) / 0x800) (o % 0x800) := by
  rw [State.regAt, if_neg (by omega), if_neg (by omega), if_neg (by omega), if_neg (by omega), if_neg (by omega),
    if_neg (by omega), if_pos h']

end

/-! ## Reads of the host -/

/-- The state after a read that gives the host `v`. -/
def answered (t : State) (v : Nat) : State := withBus { t.bus with ur := false, data := BitVec.ofNat 64 v } t

/-- The bus carries 64 bits. -/
theorem answered_mod (t : State) (v : Nat) : answered t (v % 2 ^ 64) = answered t v := by
  have h : BitVec.ofNat 64 (v % 2 ^ 64) = BitVec.ofNat 64 v := BitVec.eq_of_toNat_eq (by simp)
  rw [answered, answered, h]

section
variable {s : State} {off : Nat}

theorem readReg_misaligned (h : off % 4 ≠ 0) (wide : Bool) : s.readReg off wide = (0, s) := if_pos (Or.inl h)

theorem readReg_narrow (h : off % 4 = 0) : s.readReg off false = s.read32 off := by
  simp [State.readReg, h]

/-- A 64-bit read of a 64-bit register. -/
theorem readReg_wide (h : off % 8 = 0) (hd : off ≠ 0x2000) {v : Nat} (hv : s.served off = some (true, v)) :
    s.readReg off true = (v, s.clearRc off) := by
  have h4 : off % 4 = 0 := by omega
  simp [State.readReg, h, h4, hd, hv]

theorem read32_narrow (hd : off ≠ 0x2000) {v : Nat} (hv : s.served off = some (false, v)) :
    s.read32 off = (v, s.clearRc off) := by
  simp [State.read32, hd, hv]

/-- A 32-bit read of a low word latches the high word (R12). -/
theorem read32_latches (hd : off ≠ 0x2000) (hs : snapReg off = false) {v : Nat} (hv : s.served off = some (true, v)) :
    s.read32 off = (v % 2 ^ 32,
      withBus { s.bus with latch := s.bus.latch.putD off (BitVec.ofNat 32 (v / 2 ^ 32)) 0 } (s.clearRc off)) := by
  rw [← clearRc_withBus]
  simp [State.read32, hd, hs, hv, withBus]

theorem read32_reserved (hv : s.served off = none) (h : off % 8 = 0) (hd : off ≠ 0x2000) : s.read32 off = (0, s) := by
  simp [State.read32, hd, hv, h]

/-- A read of a high word gives what its low word latched (R12). -/
theorem read32_high (hv : s.served off = none) (h : off % 8 = 4) {v : Nat} (hl : s.served (off - 4) = some (true, v))
    (hs : snapReg (off - 4) = false) : s.read32 off = ((s.bus.latch.getD (off - 4) 0).toNat, s) := by
  have hd : off ≠ 0x2000 := by omega
  simp [State.read32, hd, hv, h, hl, hs]

end

section
variable {s : State} (hp : s.start.perst = false) (hv : s.start.vddGood = true)
include hp hv

theorem started_of_powered : s.started = true := by simp [State.started, hp, hv]

/-- Before READY a read completes with Unsupported Request (R396). -/
theorem hostRead_early (h : s.start.stage < 0x0C) (off w : Nat) :
    s.hostRead off w = { s with bus := { s.bus with ur := true, data := 0 } } := by
  have hn : ¬ 0x0C ≤ s.start.stage := by omega
  simp [State.hostRead, State.windowOpen, started_of_powered hp hv, hn]

section
variable (h : 0x0C ≤ s.start.stage) (off : Nat)
include h

theorem windowOpen_of_stage : s.windowOpen = true := by
  simp [State.windowOpen, started_of_powered hp hv, h]

theorem hostRead_32 : s.hostRead off 32 = answered (s.readReg off false).2 (s.readReg off false).1 := by
  simp [State.hostRead, started_of_powered hp hv, windowOpen_of_stage hp hv h, answered, withBus]

theorem hostRead_64 : s.hostRead off 64 = answered (s.readReg off true).2 (s.readReg off true).1 := by
  simp [State.hostRead, started_of_powered hp hv, windowOpen_of_stage hp hv h, answered, withBus]

/-- A read of another width reads as zero (R11). -/
theorem hostRead_other {n : Nat} (h32 : n ≠ 32) (h64 : n ≠ 64) : s.hostRead off n = answered s 0 := by
  simp [State.hostRead, started_of_powered hp hv, windowOpen_of_stage hp hv h, answered, withBus, h32, h64]

end
end

/-! ## The datum's snapshot (R60) -/

/-- A reference time of the last 1.1 s, as DTM_STATUS shows it. -/
theorem b2n_lately (s : State) (t : Option Nat) [Decidable (∃ b, t = some b ∧ s.now * 1000 < b + 1100000000)] :
    b2n (s.lately t) = if ∃ b, t = some b ∧ s.now * 1000 < b + 1100000000 then 1 else 0 := by
  cases t <;> simp [State.lately, b2n]

theorem b2n_isSome {α : Type} (t : Option α) [Decidable (t = none)] : b2n t.isSome = if t = none then 0 else 1 := by
  cases t <;> simp [b2n]

section
variable {s : State} (h : s.start.stage = 0x0C)
include h

theorem stopped_of_ready : s.stopped = false := by simp [State.stopped, h]

/-- The snapshot's low word of DTM_VALUE, in full. -/
theorem served_value_takeSnap : s.takeSnap.served 0x2000 = some (true, s.datum.v % 2 ^ 64) := by
  have hr : s.takeSnap.start.stage = 0x0C := h
  rw [served_of_ready hr, regAt_low (by decide)]
  rfl

theorem readReg_value : s.readReg 0x2000 true = (s.datum.v % 2 ^ 64, s.takeSnap) := by
  simp [State.readReg, stopped_of_ready h, served_value_takeSnap h, State.clearRc]

theorem read32_value : s.read32 0x2000 = (s.datum.v % 2 ^ 64 % 2 ^ 32, s.takeSnap) := by
  simp [State.read32, stopped_of_ready h, served_value_takeSnap h, State.clearRc, snapReg]

/-- A read of DTM_VALUE's low word takes the snapshot. -/
theorem hostRead_value (hp : s.start.perst = false) (hv : s.start.vddGood = true) :
    s.hostRead 0x2000 64 = answered s.takeSnap s.datum.v ∧
    s.hostRead 0x2000 32 = answered s.takeSnap (s.datum.v % 2 ^ 32) := by
  have hopen : 0x0C ≤ s.start.stage := by omega
  constructor
  · rw [hostRead_64 hp hv hopen, readReg_value h, answered_mod]
  · rw [hostRead_32 hp hv hopen, readReg_narrow (by decide), read32_value h, Nat.mod_mod_of_dvd _ (by decide)]

/-- The other datum registers read from the snapshot. -/
theorem served_snapshot {e : DatumSnap} (he : s.datum.snap = some e) :
    s.served 0x2008 = some (true, e.lo % 2 ^ 64) ∧ s.served 0x2010 = some (true, e.hi % 2 ^ 64) ∧
    s.served 0x2018 = some (true, e.u % 2 ^ 64) ∧ s.served 0x2020 = some (false, e.status % 2 ^ 32) := by
  have hs : s.datumShown = e := by simp [State.datumShown, he]
  simp only [served_of_ready h, ← hs]
  exact ⟨regAt_low (by decide), regAt_low (by decide), regAt_low (by decide), regAt_low (by decide)⟩

end

/-! ## The reads of the obligation -/

/-- The registers apart from DTM_VALUE, in the window's open stages. -/
theorem reads_open (s : State) (hp : s.start.perst = false) (hv : s.start.vddGood = true) (hr : 0x0C ≤ s.start.stage)
    (off : Nat) (h4 : off % 4 = 0) (hd : off ≠ 0x2000) :
    (∀ n, n ≠ 32 → n ≠ 64 → s.hostRead off n = answered s 0) ∧
    (∀ k, k % 4 ≠ 0 → s.hostRead k 32 = answered s 0) ∧
    (∀ v, s.served off = some (false, v) → s.hostRead off 32 = answered (s.clearRc off) v) ∧
    (∀ v, s.served off = some (true, v) → off % 8 = 0 → s.hostRead off 64 = answered (s.clearRc off) v) ∧
    (s.served off = none → off % 8 = 0 → s.hostRead off 32 = answered s 0) ∧
    (∀ v, s.served off = none → off % 8 = 4 → s.served (off - 4) = some (true, v) → snapReg (off - 4) = false →
      s.hostRead off 32 = answered s (s.bus.latch.getD (off - 4) 0).toNat) := by
  have h32 := fun k => hostRead_32 hp hv hr k
  refine ⟨fun n => hostRead_other hp hv hr off, fun k hk => ?_, fun v hs => ?_, fun v hs h8 => ?_, fun hs h8 => ?_,
    fun v hs h8 hl hn => ?_⟩
  · rw [h32, readReg_misaligned hk]
  · rw [h32, readReg_narrow h4, read32_narrow hd hs]
  · rw [hostRead_64 hp hv hr, readReg_wide h8 hd hs]
  · rw [h32, readReg_narrow h4, read32_reserved hs h8 hd]
  · rw [h32, readReg_narrow h4, read32_high hs h8 hl hn]

/-- A 32-bit read of a low word: its data, the latch it fills, and nothing else but the clearing of its fields. -/
theorem read_latches (s : State) (hp : s.start.perst = false) (hv : s.start.vddGood = true) (hr : 0x0C ≤ s.start.stage)
    (off : Nat) (h4 : off % 4 = 0) (hd : off ≠ 0x2000) (v : Nat) (hs : s.served off = some (true, v))
    (hn : snapReg off = false) : ∃ t, s.hostRead off 32 = t ∧
      t.bus.data = BitVec.ofNat 64 (v % 2 ^ 32) ∧ t.bus.latch.getD off 0 = BitVec.ofNat 32 (v / 2 ^ 32) ∧
      (∀ o, o ≠ off → t.bus.latch.getD o 0 = s.bus.latch.getD o 0) ∧ { t with bus := s.bus } = s.clearRc off := by
  refine ⟨_, rfl, ?_⟩
  rw [hostRead_32 hp hv hr, readReg_narrow h4, read32_latches hd hn hs]
  refine ⟨rfl, Tab.getD_putD_same .., fun o ho => Tab.getD_putD_ne _ _ _ ho, ?_⟩
  exact (clearRc_withBus s.bus s off).symm

theorem registerReads : Claims.RegisterReads := by
  refine ⟨fun s hp hv hr off h4 hd => ?_, fun s hp hv hr => ?_, fun s => ⟨rfl, rfl, rfl, rfl, rfl, rfl, rfl⟩,
    fun s hp hv hr off w => ?_⟩
  · obtain ⟨hwidth, hmis, hnarrow, hwide, hres, hhigh⟩ := reads_open s hp hv hr off h4 hd
    refine ⟨fun n a b => ⟨next_congr (hwidth n a b), next_congr (hwidth n a b)⟩, fun k hk => next_congr (hmis k hk),
      fun v hs => ⟨next_congr (hnarrow v hs), next_congr (hnarrow v hs)⟩, fun v hs h8 => next_congr (hwide v hs h8),
      fun v hs hn => ?_, fun hs h8 => next_congr (hres hs h8), fun v hs h8 hl hn => next_congr (hhigh v hs h8 hl hn)⟩
    obtain ⟨t, ht, hrest⟩ := read_latches s hp hv hr off h4 hd v hs hn
    exact ⟨t, next_congr ht, hrest⟩
  · intro status d t
    have hd : s.datumNow = d := by
      rw [State.datumNow, State.dtmStatus, b2n_lately, b2n_lately, b2n_isSome]
    have ht : s.takeSnap = t := by rw [State.takeSnap, hd]
    obtain ⟨h64, h32⟩ := hostRead_value hr hp hv
    rw [ht] at h64 h32
    exact ⟨next_congr h64, next_congr h32, fun e => served_snapshot hr⟩
  · have he := next_congr (hostRead_early hp hv hr off w)
    exact ⟨he, he, next_congr (hostRead_early hp hv hr 0x2000 w)⟩

/-! ## Writes of the host -/

/-- The state after a write that the bus has taken. -/
def taken (s : State) : State := withBus { s.bus with ur := false } s

theorem served_taken (s : State) (o : Nat) : (taken s).served o = s.served o := served_withBus _ s o

section
variable {s : State} (hp : s.start.perst = false) (hv : s.start.vddGood = true)
include hp hv

/-- Before READY a write completes with Unsupported Request (R396). -/
theorem hostWriteReg_early (h : s.start.stage < 0x0C) (off w v : Nat) :
    s.hostWriteReg off w v = { s with bus := { s.bus with ur := true } } := by
  have hn : ¬ 0x0C ≤ s.start.stage := by omega
  simp [State.hostWriteReg, State.windowOpen, started_of_powered hp hv, hn]

section
variable (h : 0x0C ≤ s.start.stage) (off v : Nat)
include h

theorem hostWriteReg_32 : s.hostWriteReg off 32 v = (taken s).writeReg false off false (v % 2 ^ 32) := by
  simp [State.hostWriteReg, started_of_powered hp hv, windowOpen_of_stage hp hv h, taken, withBus]

theorem hostWriteReg_64 : s.hostWriteReg off 64 v = (taken s).writeReg false off true v := by
  simp [State.hostWriteReg, started_of_powered hp hv, windowOpen_of_stage hp hv h, taken, withBus]

/-- A write of another width has no effect (R11). -/
theorem hostWriteReg_other {n : Nat} (h32 : n ≠ 32) (h64 : n ≠ 64) : s.hostWriteReg off n v = taken s := by
  simp [State.hostWriteReg, started_of_powered hp hv, windowOpen_of_stage hp hv h, taken, withBus, h32, h64]

end
end

section
variable {s : State} {o w : Nat} {chief : Bool}

theorem writeReg_narrow (h : o % 4 = 0) : s.writeReg chief o false w = s.write32 chief o (w % 2 ^ 32) := by
  simp [State.writeReg, h]

/-- A 64-bit write of a 64-bit register. -/
theorem writeReg_wide (h : o % 8 = 0) {v : Nat} (hv : s.served o = some (true, v)) :
    s.writeReg chief o true w = s.writeWide chief o (w % 2 ^ 64) := by
  have h4 : o % 4 = 0 := by omega
  simp [State.writeReg, h, h4, hv]

/-- A 64-bit write over two 32-bit registers is two of 32 bits (log 110). -/
theorem writeReg_pair (h : o % 8 = 0) {v : Nat} (hv : s.served o = some (false, v)) :
    s.writeReg chief o true w =
      (s.write32 chief o (w % 2 ^ 32)).write32 chief (o + 4) (w / 2 ^ 32 % 2 ^ 32) := by
  have h4 : o % 4 = 0 := by omega
  simp [State.writeReg, h, h4, hv]

/-- A low word is held (R12). -/
theorem write32_holds {v : Nat} (hv : s.served o = some (true, v)) :
    s.write32 chief o w = withBus { s.bus with heldLow := s.bus.heldLow.put o (BitVec.ofNat 32 w) } s := by
  simp [State.write32, hv, withBus]

theorem write32_narrow {v : Nat} (hv : s.served o = some (false, v)) : s.write32 chief o w = s.writeAt chief o w := by
  simp [State.write32, hv]

/-- The word that a high word's write commits below it: the low word held, or the register's own (R12). -/
def lowWord (s : State) (o v : Nat) : Nat :=
  match s.bus.heldLow.find o with
  | some x => x.toNat
  | none => v % 2 ^ 32

/-- A low word has 32 bits. -/
theorem lowWord_mod (s : State) (o v : Nat) : lowWord s o (v % 2 ^ 64) = lowWord s o v := by
  simp only [lowWord, Nat.mod_mod_of_dvd v (show 2 ^ 32 ∣ 2 ^ 64 by decide)]

theorem write32_commits (h : o % 8 = 0) (hv : s.served (o + 4) = none) {v : Nat} (hl : s.served o = some (true, v)) :
    s.write32 chief (o + 4) w = s.writeWide chief o (lowWord s o v + 2 ^ 32 * w) := by
  have h4 : (o + 4) % 8 = 4 := by omega
  simp only [State.write32, hv, h4, Nat.add_sub_cancel, hl, lowWord]
  rfl

theorem write32_reserved (hv : s.served (o + 4) = none) {v : Nat} (hl : s.served o = some (false, v)) :
    s.write32 chief (o + 4) w = s := by
  simp [State.write32, hv, hl]

/-! ## What a register takes at READY -/

/-- Below the event controller the host changes no register. -/
theorem writeAt_low (ho : o < 0x01000000) : s.writeAt false o w = s := by
  have h1 : ¬ 0x01000000 ≤ o := by omega
  have h2 : ¬ 0x01010000 ≤ o := by omega
  have h3 : ¬ 0x01020000 ≤ o := by omega
  have h4 : ¬ 0x02800000 ≤ o := by omega
  simp [State.writeAt, h1, h2, h3, h4]

section
variable (h : s.start.stage = 0x0C)
include h

theorem writeAt_msix (h1 : 0x01000000 ≤ o) (h2 : o < 0x01008000) :
    s.writeAt false o w = s.writeMsix ((o - 0x01000000) / 16) (o % 16 / 4) w := by
  simp [State.writeAt, State.ready, h, h1, h2]

theorem writeAt_coal (h1 : 0x01010000 ≤ o) (h2 : o < 0x01010000 + 4 * 1792) :
    s.writeAt false o w = s.writeCoal ((o - 0x01010000) / 4) w := by
  have h3 : ¬ o < 0x01008000 := by omega
  have h4 : o < 0x01011C00 := h2
  simp [State.writeAt, State.ready, h, h1, h3, h4]

theorem writeAt_queue0 (h1 : 0x02800000 ≤ o) (h2 : o < 0x02800800) :
    s.writeAt false o w = s.writeQueue0 (o - 0x02800000) w := by
  have h3 : ¬ o < 0x01008000 := by omega
  have h4 : ¬ o < 0x01011C00 := by omega
  have h5 : ¬ o < 0x01020400 := by omega
  simp [State.writeAt, State.ready, h, h1, h2, h3, h4, h5]

end
end

/-! ## The fields of the disabled queue 0 (R96, R124, log 64) -/

/-- A field of octets past a first part stands in the rest. -/
theorem uAt_append_right (a b : Bytes) (off n : Nat) (h : a.length ≤ off) :
    uAt (a ++ b) off n = uAt b (off - a.length) n := by
  simp [uAt, bytesAt, List.drop_append, List.drop_eq_nil_of_le h]

/-- A first field of octets is the number it was made of. -/
theorem uAt_le_append (n v : Nat) (b : Bytes) : uAt (le n v ++ b) 0 n = v % 256 ^ n := by
  rw [uAt, bytesAt, List.drop_zero, List.take_left' (le_length n v), leNat_le]

section
variable (s : State) (q : Nat) (x : Queue)

theorem queueBlock_cqAddr : uAt (s.queueBlock q x) 0x18 8 = x.cqAddr % 2 ^ 64 := by
  simp only [State.queueBlock, List.append_assoc]
  iterate 4 rw [uAt_append_right _ _ _ _ (by simp)]
  simp only [le_length]
  exact uAt_le_append 8 x.cqAddr _

theorem queueBlock_shadowAddr : uAt (s.queueBlock q x) 0x20 8 = x.shadowAddr % 2 ^ 64 := by
  simp only [State.queueBlock, List.append_assoc]
  iterate 5 rw [uAt_append_right _ _ _ _ (by simp)]
  simp only [le_length]
  exact uAt_le_append 8 x.shadowAddr _

end

section
variable {s : State} (h : s.start.stage = 0x0C) (hq : s.queues.find 0 = none)
include h

theorem served_queue0 {o : Nat} (ho : o < 0x800) : s.served (0x02800000 + o) = s.queueReg 0 o := by
  have hdiv : (0x02800000 + o - 0x02800000) / 0x800 = 0 := by omega
  have hmod : (0x02800000 + o) % 0x800 = o := by omega
  rw [served_of_ready h, regAt_queue (by omega) (by omega), hdiv, hmod]

include hq

theorem served_cqAddr : s.served 0x02800018 = some (true, s.enq0.cqAddr % 2 ^ 64) := by
  rw [show 0x02800018 = 0x02800000 + 0x18 from rfl, served_queue0 h (by decide), ← queueBlock_cqAddr s 0]
  simp [State.queueReg, hq, r64, queueBlock_cqAddr]

theorem served_shadowAddr : s.served 0x02800020 = some (true, s.enq0.shadowAddr % 2 ^ 64) := by
  rw [show 0x02800020 = 0x02800000 + 0x20 from rfl, served_queue0 h (by decide), ← queueBlock_shadowAddr s 0]
  simp [State.queueReg, hq, r64, queueBlock_shadowAddr]

omit hq in
theorem served_sizes : ∃ v, s.served 0x02800010 = some (false, v) := by
  rw [show 0x02800010 = 0x02800000 + 0x10 from rfl, served_queue0 h (by decide)]
  exact ⟨_, rfl⟩

omit hq in
/-- The words beside the sizes and above the addresses are no registers of their own. -/
theorem served_queue0_none : s.served 0x02800014 = none ∧ s.served 0x0280001C = none ∧ s.served 0x02800024 = none := by
  rw [show 0x02800014 = 0x02800000 + 0x14 from rfl, show 0x0280001C = 0x02800000 + 0x1C from rfl,
    show 0x02800024 = 0x02800000 + 0x24 from rfl, served_queue0 h (by decide), served_queue0 h (by decide),
    served_queue0 h (by decide)]
  exact ⟨rfl, rfl, rfl⟩

theorem writeAt_cqAddr (w : Nat) : s.writeAt false 0x02800018 w = { s with enq0 := { s.enq0 with cqAddr := w } } := by
  rw [writeAt_queue0 h (by decide) (by decide)]
  simp [State.writeQueue0, hq]

theorem writeAt_shadowAddr (w : Nat) :
    s.writeAt false 0x02800020 w = { s with enq0 := { s.enq0 with shadowAddr := w } } := by
  rw [writeAt_queue0 h (by decide) (by decide)]
  simp [State.writeQueue0, hq]

theorem writeWide_cqAddr (w : Nat) : s.writeWide false 0x02800018 w =
    { s with bus := { s.bus with heldLow := s.bus.heldLow.drop 0x02800018 }, enq0 := { s.enq0 with cqAddr := w } } :=
  writeAt_cqAddr (s := withBus { s.bus with heldLow := s.bus.heldLow.drop 0x02800018 } s) h hq w

theorem writeWide_shadowAddr (w : Nat) : s.writeWide false 0x02800020 w =
    { s with bus := { s.bus with heldLow := s.bus.heldLow.drop 0x02800020 }, enq0 := { s.enq0 with shadowAddr := w } } :=
  writeAt_shadowAddr (s := withBus { s.bus with heldLow := s.bus.heldLow.drop 0x02800020 } s) h hq w

theorem writeAt_sizes (w : Nat) : s.writeAt false 0x02800010 w =
    { s with enq0 := { s.enq0 with sqLog2 := w % 32, cqLog2 := w / 256 % 32, vector := w / 65536 % 2048 } } := by
  rw [writeAt_queue0 h (by decide) (by decide)]
  simp [State.writeQueue0, hq, fieldOf]

omit hq in
/-- Nothing stands beside the sizes. -/
theorem write32_beside_sizes (w : Nat) : s.write32 false 0x02800014 w = s := by
  obtain ⟨v, hv⟩ := served_sizes h
  exact write32_reserved (served_queue0_none h).1 hv

end

/-! ## The event controller's tables (R376, R393) -/

/-- An MSI-X entry with one of its words written. -/
def msixWritten (e : MsixEntry) (i w : Nat) : MsixEntry :=
  match i with
  | 0 => { e with addr := e.addr / 2 ^ 32 * 2 ^ 32 + w / 4 * 4 }
  | 1 => { e with addr := e.addr % 2 ^ 32 + 2 ^ 32 * w }
  | 2 => { e with data := w }
  | _ => { e with mask := bitOf w 0 }

section
variable (s : State)

theorem releasePending_msix (v : Nat) : (s.releasePending v).events.msix = s.events.msix := by
  unfold State.releasePending
  dsimp only
  repeat' split
  all_goals rfl

theorem maskVector_msix (v : Nat) (m : Bool) :
    (s.maskVector v m).events.msix = s.events.msix.putD v { s.msixEntry v with mask := m } MsixEntry.reset := by
  unfold State.maskVector
  dsimp only
  split
  · rfl
  · exact releasePending_msix _ v

theorem writeMsix_msix (k i w : Nat) :
    (s.writeMsix k i w).events.msix = s.events.msix.putD k (msixWritten (s.msixEntry k) i w) MsixEntry.reset := by
  match i with
  | 0 | 1 | 2 => rfl
  | n + 3 => exact maskVector_msix s k (bitOf w 0)

/-- A write of a word changes its entry alone. -/
theorem msixEntry_writeMsix (k i w : Nat) :
    (s.writeMsix k i w).msixEntry k = msixWritten (s.msixEntry k) i w ∧
    ∀ j, j ≠ k → (s.writeMsix k i w).msixEntry j = s.msixEntry j := by
  simp only [State.msixEntry, writeMsix_msix]
  exact ⟨Tab.getD_putD_same .., fun j hj => Tab.getD_putD_ne _ _ _ hj⟩

theorem coalOf_writeCoal (k w : Nat) : (s.writeCoal k w).coalOf k =
    { s.coalOf k with count := max 1 (w % 256), timer := min 1000 (max 1 (w / 256 % 1024)) } :=
  Tab.getD_putD_same ..

end

section
variable {s : State} (h : s.start.stage = 0x0C)
include h

theorem served_msix {k i : Nat} (hk : k < 2048) (hi : i < 4) :
    ∃ v, s.served (0x01000000 + 16 * k + 4 * i) = some (false, v) := by
  have ho : 0x01000000 + 16 * k + 4 * i - 0x01000000 = 16 * k + 4 * i := by omega
  rw [served_of_ready h, regAt_event (by omega) (by omega), ho, State.evcReg, if_pos (by omega), if_pos (by omega)]
  exact ⟨_, rfl⟩

theorem served_coal {k : Nat} (hk : k < 1792) : ∃ v, s.served (0x01010000 + 4 * k) = some (false, v) := by
  have ho : 0x01010000 + 4 * k - 0x01000000 = 0x10000 + 4 * k := by omega
  rw [served_of_ready h, regAt_event (by omega) (by omega), ho, State.evcReg, if_neg (by omega), if_neg (by omega),
    if_neg (by omega), if_neg (by omega), if_neg (by omega), if_neg (by omega), if_neg (by omega), if_pos (by omega),
    if_pos (by omega)]
  exact ⟨_, rfl⟩

end

/-! ## ENABLE of queue 0 (R96) -/

section
variable (s : State)

/-- The home region that the chief core assigns works, where one does. -/
theorem assignHome_works (h : ∃ r < 4, s.regionRetired r = false) :
    s.assignHome.1 < 4 ∧ s.regionRetired s.assignHome.1 = false := by
  obtain ⟨r, hr, hw⟩ := h
  have hmem : r ∈ (List.range 4).filter fun r => !s.regionRetired r := by simp [hr, hw]
  have hpos := List.length_pos_of_mem hmem
  have hlt := Nat.mod_lt (Config.freeWord s.free).toNat hpos
  have hin : s.assignHome.1 ∈ (List.range 4).filter fun r => !s.regionRetired r := by
    rw [State.assignHome, Nat.max_eq_right hpos]
    dsimp only
    rw [List.getD_eq_getElem _ _ hlt]
    exact List.getElem_mem hlt
  simpa using hin

/-- The fields with which ENABLE brings queue 0 up. -/
def legalFields (x : Queue) : Prop :=
  6 ≤ x.sqLog2 ∧ x.sqLog2 ≤ 18 ∧ 6 ≤ x.cqLog2 ∧ x.cqLog2 ≤ 18 ∧ x.vector ≤ 0x6FF ∧ x.cqAddr % 4096 = 0 ∧
    x.shadowAddr % 8 = 0

variable {s} (h : s.start.stage = 0x0C) (hq : s.queues.find 0 = none)
include h hq

theorem enableQueue0_legal {on : Bool} (hon : on = true) (hl : legalFields s.enq0) : s.enableQueue0 on =
    { s with free := s.free + 1,
             queues := s.queues.put 0 { s.enq0 with home := s.assignHome.1, st := .active, admin := true } } := by
  obtain ⟨h1, h2, h3, h4, h5, h6, h7⟩ := hl
  have hstart : (!s.ready || !on || (s.queues.find 0).isSome) = false := by simp [State.ready, h, hon, hq]
  unfold State.enableQueue0
  dsimp only
  rw [hstart, if_neg Bool.false_ne_true, if_pos (by simp [ringLog, h1, h2, h3, h4, h5, h6, h7])]
  rfl

omit h hq in
theorem enableQueue0_idle {on : Bool} (hl : ¬ legalFields s.enq0 ∨ on = false) : s.enableQueue0 on = s := by
  unfold State.enableQueue0
  dsimp only
  split
  · rfl
  · rename_i hon
    have hn : ¬ legalFields s.enq0 := hl.resolve_right fun e => hon (by simp [e])
    refine if_neg fun hc => hn ?_
    simpa [ringLog, legalFields, and_assoc] using hc

end

/-! ## The writes of the obligation -/

section
variable {s : State} (hp : s.start.perst = false) (hv : s.start.vddGood = true) (h : s.start.stage = 0x0C)
include hp hv h

/-- A 32-bit write of a 32-bit register. -/
theorem hostWriteReg_narrow {off v w : Nat} (h4 : off % 4 = 0) (hs : s.served off = some (false, w)) :
    s.hostWriteReg off 32 v = (taken s).writeAt false off (v % 2 ^ 32) := by
  rw [hostWriteReg_32 hp hv (by omega), writeReg_narrow h4, write32_narrow (by rw [served_taken, hs]), Nat.mod_mod]

/-- A 32-bit write of a low word. -/
theorem hostWriteReg_holds {off w : Nat} (v : BitVec 32) (h4 : off % 4 = 0) (hs : s.served off = some (true, w)) :
    s.hostWriteReg off 32 v.toNat = withBus { s.bus with ur := false, heldLow := s.bus.heldLow.put off v } s := by
  rw [hostWriteReg_32 hp hv (by omega), writeReg_narrow h4, write32_holds (by rw [served_taken, hs]),
    Nat.mod_mod, Nat.mod_eq_of_lt v.isLt, BitVec.ofNat_toNat, BitVec.setWidth_eq]
  rfl

/-- A 32-bit write of a high word. -/
theorem hostWriteReg_commits {off w : Nat} (v : BitVec 32) (h8 : off % 8 = 0) (hs : s.served (off + 4) = none)
    (hl : s.served off = some (true, w)) : s.hostWriteReg (off + 4) 32 v.toNat =
      (taken s).writeWide false off (lowWord s off w + 2 ^ 32 * v.toNat) := by
  rw [hostWriteReg_32 hp hv (by omega), writeReg_narrow (by omega), Nat.mod_mod, Nat.mod_eq_of_lt v.isLt,
    write32_commits h8 (by rw [served_taken, hs]) (v := w) (by rw [served_taken, hl])]
  rfl

theorem hostWriteReg_wide {off w : Nat} (v : BitVec 64) (h8 : off % 8 = 0) (hs : s.served off = some (true, w)) :
    s.hostWriteReg off 64 v.toNat = (taken s).writeWide false off v.toNat := by
  rw [hostWriteReg_64 hp hv (by omega), writeReg_wide h8 (by rw [served_taken, hs]), Nat.mod_eq_of_lt v.isLt]

theorem hostWriteReg_msix {k i : Nat} (v : Nat) (hk : k < 2048) (hi : i < 4) :
    s.hostWriteReg (0x01000000 + 16 * k + 4 * i) 32 v = (taken s).writeMsix k i (v % 2 ^ 32) := by
  obtain ⟨w, hs⟩ := served_msix h hk hi
  have hidx : (0x01000000 + 16 * k + 4 * i - 0x01000000) / 16 = k := by omega
  have hword : (0x01000000 + 16 * k + 4 * i) % 16 / 4 = i := by omega
  have ht : (taken s).start.stage = 0x0C := h
  rw [hostWriteReg_narrow hp hv h (by omega) hs, writeAt_msix ht (by omega) (by omega), hidx, hword]

theorem hostWriteReg_coal {k : Nat} (v : Nat) (hk : k < 1792) :
    s.hostWriteReg (0x01010000 + 4 * k) 32 v = (taken s).writeCoal k (v % 2 ^ 32) := by
  obtain ⟨w, hs⟩ := served_coal h hk
  have hidx : (0x01010000 + 4 * k - 0x01010000) / 4 = k := by omega
  have ht : (taken s).start.stage = 0x0C := h
  rw [hostWriteReg_narrow hp hv h (by omega) hs, writeAt_coal ht (by omega) (by omega), hidx]

section
variable (hq : s.queues.find 0 = none)
include hq

/-- A high word's write commits the completion queue's address, and a held low word is used up. -/
theorem hostWriteReg_cqAddr_high (v : BitVec 32) : s.hostWriteReg 0x0280001C 32 v.toNat =
    { taken s with
      bus := { (taken s).bus with heldLow := s.bus.heldLow.drop 0x02800018 }
      enq0 := { s.enq0 with cqAddr := lowWord s 0x02800018 s.enq0.cqAddr + 2 ^ 32 * v.toNat } } := by
  obtain ⟨-, hnone, -⟩ := served_queue0_none h
  refine (hostWriteReg_commits hp hv h v (by decide) hnone (served_cqAddr h hq)).trans ?_
  rw [lowWord_mod, writeWide_cqAddr (s := taken s) h hq]
  rfl

/-- So does that of the shadow's address. -/
theorem hostWriteReg_shadowAddr_high (v : BitVec 32) : s.hostWriteReg 0x02800024 32 v.toNat =
    { taken s with
      bus := { (taken s).bus with heldLow := s.bus.heldLow.drop 0x02800020 }
      enq0 := { s.enq0 with shadowAddr := lowWord s 0x02800020 s.enq0.shadowAddr + 2 ^ 32 * v.toNat } } := by
  obtain ⟨-, -, hnone⟩ := served_queue0_none h
  refine (hostWriteReg_commits hp hv h v (by decide) hnone (served_shadowAddr h hq)).trans ?_
  rw [lowWord_mod, writeWide_shadowAddr (s := taken s) h hq]
  rfl

/-- A 64-bit write of the completion queue's address. -/
theorem hostWriteReg_cqAddr_wide (v : BitVec 64) : s.hostWriteReg 0x02800018 64 v.toNat =
    { taken s with
      bus := { (taken s).bus with heldLow := s.bus.heldLow.drop 0x02800018 }
      enq0 := { s.enq0 with cqAddr := v.toNat } } := by
  rw [hostWriteReg_wide hp hv h v (by decide) (served_cqAddr h hq), writeWide_cqAddr (s := taken s) h hq]
  rfl

/-- A 64-bit write over the sizes writes their 32 bits; nothing stands beside them (log 110). -/
theorem hostWriteReg_sizes (v : BitVec 64) : s.hostWriteReg 0x02800010 64 v.toNat =
    { taken s with
      enq0 := { s.enq0 with sqLog2 := v.toNat % 32, cqLog2 := v.toNat / 256 % 32, vector := v.toNat / 65536 % 2048 } } := by
  have hsq : v.toNat % 2 ^ 32 % 32 = v.toNat % 32 := by omega
  have hcq : v.toNat % 2 ^ 32 / 256 % 32 = v.toNat / 256 % 32 := by omega
  have hvec : v.toNat % 2 ^ 32 / 65536 % 2048 = v.toNat / 65536 % 2048 := by omega
  have ht : (taken s).start.stage = 0x0C := h
  obtain ⟨w, hw⟩ := served_sizes ht
  rw [hostWriteReg_64 hp hv (by omega), writeReg_pair (by decide) hw, write32_narrow hw, writeAt_sizes ht hq, hsq, hcq, hvec]
  exact write32_beside_sizes (s := { taken s with enq0 := _ }) h _

end
end

/-- The words of an MSI-X entry. -/
theorem gives_msix (s : State) (hp : s.start.perst = false) (hv : s.start.vddGood = true) (h : s.start.stage = 0x0C)
    (k : Nat) (v : BitVec 64) (hk : k < 2048) (i : Nat) (hi : i < 4) :
    ∃ t, Gives (.registerWrite (0x01000000 + 16 * k + 4 * i) 32 v) s t ∧
      t.msixEntry k = msixWritten (s.msixEntry k) i (v.toNat % 2 ^ 32) ∧ (∀ j, j ≠ k → t.msixEntry j = s.msixEntry j) :=
  ⟨_, next_congr (hostWriteReg_msix hp hv h v.toNat hk hi), msixEntry_writeMsix (taken s) k i _⟩

theorem registerWrites : Claims.RegisterWrites := by
  refine ⟨fun s hp hv h => ?_, fun s off v w hp hv h => ?_, fun s v h hq => ⟨fun hl hon hr => ?_, fun hn => ?_⟩⟩
  · intro b
    have hopen : 0x0C ≤ s.start.stage := by omega
    refine ⟨fun off v w h4 hs => next_congr (hostWriteReg_holds hp hv h v h4 hs), fun v hq => ?_, fun v hq => ?_,
      fun off n v h32 h64 => next_congr (hostWriteReg_other hp hv hopen off v.toNat h32 h64), fun off v w h4 ho hs => ?_,
      fun k v hk => ?_, fun k v hk => ?_⟩
    · exact ⟨⟨_, next_congr (hostWriteReg_cqAddr_high hp hv h hq v), rfl, Tab.find_drop_same .., rfl⟩,
        ⟨_, next_congr (hostWriteReg_shadowAddr_high hp hv h hq v), rfl, rfl⟩⟩
    · exact ⟨⟨_, next_congr (hostWriteReg_cqAddr_wide hp hv h hq v), rfl, rfl⟩,
        ⟨_, next_congr (hostWriteReg_sizes hp hv h hq v), rfl⟩⟩
    · exact next_congr ((hostWriteReg_narrow hp hv h h4 hs).trans (writeAt_low ho))
    · have hword := gives_msix s hp hv h k v hk
      have hmask : bitOf (v.toNat % 2 ^ 32) 0 = v.getLsbD 0 := by simp [bitOf, BitVec.getLsbD]
      refine ⟨hword 0 (by decide), hword 1 (by decide), hword 2 (by decide), ?_⟩
      rw [← hmask]
      exact hword 3 (by decide)
    · have hcount : v.toNat % 2 ^ 32 % 256 = v.toNat % 256 := by omega
      have htimer : v.toNat % 2 ^ 32 / 256 % 1024 = v.toNat / 256 % 1024 := by omega
      refine ⟨_, next_congr (hostWriteReg_coal hp hv h v.toNat hk), ?_⟩
      rw [coalOf_writeCoal, hcount, htimer]
      rfl
  · have hearly := fun off v => next_congr (hostWriteReg_early hp hv h off 32 v)
    exact ⟨hearly off v.toNat, hearly off v.toNat, hearly off w.toNat⟩
  · obtain ⟨hlt, hwork⟩ := assignHome_works s hr
    exact ⟨_, _, next_congr (enableQueue0_legal h hq hon hl), hlt, hwork, Tab.find_put_same ..,
      fun q hq0 => Tab.find_put_ne _ _ hq0, rfl⟩
  · exact next_congr (enableQueue0_idle hn)

/-- Settles O60: what the window serves at an offset decides each read and write; the bus does not. -/
theorem registerAccess : Obligations.RegisterAccess := ⟨registerReads, registerWrites⟩

end Sys2Proof.Proofs
end

section
/-! # Resets, and the bus before READY (R29, R88, R384, R394, R396, R398, R418) -/

namespace Sys2Proof.Proofs

open Sys2Proof Sys2Proof.Machine Sys2Proof.Claims

/-! ## What a loss of the command model keeps -/

/-- The blowing of one fuse group, or of none, keeps everything of the life cycle but that group's reading (R418). -/
structure BurnsOnly (b : List Nat) (l m : LifeCycle) : Prop where
  signers : m.signers = l.signers
  revokedLength : m.revoked.length = l.revoked.length
  pending : m.pending = l.pending
  cert : m.cert = l.cert
  unburned : b = [] → m.groups = l.groups ∧ m.revoked = l.revoked
  others : ∀ g r, b = g :: r → 1 ≤ g → ∀ k, (k + 1 ≠ g → m.groups[k]? = l.groups[k]?) ∧
    (k + 6 ≠ g → m.revoked[k]? = l.revoked[k]?)

theorem burnsOnly_refl (b : List Nat) (l : LifeCycle) : BurnsOnly b l l :=
  ⟨rfl, rfl, rfl, rfl, fun _ => ⟨rfl, rfl⟩, fun _ _ _ _ _ => ⟨fun _ => rfl, fun _ => rfl⟩⟩

theorem burnsOnly_burn (g : Nat) (r : List Nat) (l : LifeCycle) (n : Nat) : BurnsOnly (g :: r) l (l.burn g n) := by
  unfold LifeCycle.burn
  split
  · refine ⟨rfl, rfl, rfl, rfl, fun h => (List.cons_ne_nil _ _ h).elim, fun g' r' h hg k => ?_⟩
    obtain ⟨rfl, -⟩ := List.cons.inj h
    exact ⟨fun hk => List.getElem?_set_ne (by omega), fun _ => rfl⟩
  · refine ⟨rfl, List.length_set, rfl, rfl, fun h => (List.cons_ne_nil _ _ h).elim, fun g' r' h hg k => ?_⟩
    obtain ⟨rfl, -⟩ := List.cons.inj h
    exact ⟨fun _ => rfl, fun hk => List.getElem?_set_ne (by omega)⟩

/-- What is left after a loss survives it, whatever becomes of the fuse group under way. -/
theorem survives_lose {s : State} {m : LifeCycle} {b : List Nat} (n : Nat) (h : BurnsOnly b s.lcs m) :
    Survives s { s with lcs := m, free := n }.lose where
  tokens := ⟨rfl, rfl⟩
  keys := ⟨rfl, rfl, rfl, rfl, rfl, rfl, rfl⟩
  journal := ⟨rfl, rfl, rfl, rfl⟩
  log := ⟨rfl, rfl, rfl, rfl⟩
  map := ⟨rfl, rfl⟩
  flash := ⟨rfl, rfl, rfl, rfl, rfl⟩
  life := ⟨h.signers, h.revokedLength, h.pending, h.cert⟩
  emram := rfl
  host := rfl
  gone := ⟨rfl, rfl, rfl, rfl, rfl, rfl, rfl, rfl, rfl, rfl, rfl, rfl, rfl, rfl, rfl, rfl⟩
  safe := ⟨rfl, rfl⟩

/-! ## What the function's resets leave -/

theorem functionReset_msix {s : State} {v : Nat} {x : MsixEntry} (h : s.events.msix.find v = some x) :
    s.functionReset.events.msix.find v = some { x with mask := true } := by
  show Tab.find (s.events.msix.mapVals fun _ e => { e with mask := true }) v = _
  rw [Tab.find_mapVals, h, Option.map_some]

/-- A table whose values are all changed reads so at each key, where the change keeps what an unlisted key reads as. -/
theorem getD_mapVals {α β : Type} (t : Tab α) (f : Nat → α → α) (a : Nat) (d : α) (p : α → β) (b : β)
    (hf : ∀ x, p (f a x) = b) (hd : p d = b) : p ((t.mapVals f).getD a d) = b := by
  rw [Tab.getD, Tab.find_mapVals]
  cases t.find a with
  | none => exact hd
  | some x => exact hf x

theorem functionReset_hostEn (s : State) (c : Nat) : (s.functionReset.evClass c).hostEn = false :=
  getD_mapVals s.events.classes (fun _ k => { k with hostEn := false }) c EvClass.reset EvClass.hostEn false (fun _ => rfl) rfl

theorem functionReset_idle (s : State) (u : Nat) :
    (s.functionReset.unitSt u).job = .idle ∧ (s.functionReset.unitSt u).lanes = [] :=
  have h : (s.functionReset.unitSt u) =
      (s.units.mapVals fun _ x => { x with job := .idle, lanes := [], scrub := true }).getD u UnitSt.reset := rfl
  ⟨h ▸ getD_mapVals s.units _ u UnitSt.reset UnitSt.job .idle (fun _ => rfl) rfl,
   h ▸ getD_mapVals s.units _ u UnitSt.reset UnitSt.lanes [] (fun _ => rfl) rfl⟩

/-! ## The resets and the bus -/

theorem gives_perstNAssert {s : State} (hp : s.start.perst = false) (hv : s.start.vddGood = true) :
    Gives .perstNAssert s s.loseKeepingBurn := by
  show execPerstNAssert s = _
  simp [execPerstNAssert, State.started, hp, hv]

/-- What a loss of power leaves, with the fuse group under way in reading `m` (R418). -/
def powerLost (s : State) (m : LifeCycle) (n : Nat) : State :=
  let t := { s with lcs := m, free := n }.lose
  { t with start := { t.start with vddGood := false }, integ := { t.integ with thermtrip := false }
           rng := { t.rng with stage := .off } }

theorem gives_powerLoss {s : State} (hv : s.start.vddGood = true) :
    ∃ m n, BurnsOnly s.start.burning s.lcs m ∧ Gives .powerLoss s (powerLost s m n) := by
  have he : exec .powerLoss s = execPowerLoss s := rfl
  rw [execPowerLoss, if_neg (by simp [hv])] at he
  cases hb : s.start.burning with
  | nil =>
    refine ⟨s.lcs, s.free, burnsOnly_refl [] s.lcs, ?_⟩
    rw [hb] at he
    exact he
  | cons g r =>
    refine ⟨s.lcs.burn g ((Config.freeWord s.free).toNat % 9), s.free + 1, burnsOnly_burn g r s.lcs _, ?_⟩
    rw [hb] at he
    exact he

theorem gives_functionReset {s : State} (h : s.start.stage = 0x0C) :
    Gives .flr s s.functionReset ∧ Gives .hotReset s s.functionReset := by
  have hr : s.ready = true := by simp [State.ready, h]
  exact ⟨if_pos hr, if_pos hr⟩

/-- A configuration request tells whether the device is past READY; a memory request before READY is unsupported (R396). -/
theorem gives_busBeforeReady {s : State} (hp : s.start.perst = false) (hv : s.start.vddGood = true) (w : Bool) :
    Gives (.configRequest w) s { s with bus := { s.bus with rrs := decide (s.start.stage < 0x0C) } } ∧
    (s.start.stage < 0x0C → Gives .memoryRequestBeforeReady s { s with bus := { s.bus with ur := true } }) := by
  have hs : s.started = true := by simp [State.started, hp, hv]
  refine ⟨?_, fun h => if_pos ⟨hs, h⟩⟩
  show execConfigRequest w s = _
  simp [execConfigRequest, hs]

/-- Settles O22: each reset answers one state, whose fields the rules name. -/
theorem resets : Obligations.Resets := by
  refine ⟨fun s hp hv => ?_, fun s hv => ?_, fun s h => ?_, fun w s hp hv => gives_busBeforeReady hp hv w⟩
  · have hl := survives_lose s.free (burnsOnly_refl [] s.lcs)
    exact ⟨_, gives_perstNAssert hp hv, { hl with }, hv, rfl, rfl, rfl, rfl⟩
  · obtain ⟨m, n, hm, hg⟩ := gives_powerLoss hv
    exact ⟨_, hg, { survives_lose n hm with }, rfl, rfl, rfl, rfl, hm.unburned, hm.others⟩
  · obtain ⟨hf, hh⟩ := gives_functionReset h
    exact ⟨_, hf, hh, rfl, rfl, rfl, rfl, rfl, rfl, rfl, rfl, rfl, rfl, fun _ _ hx => functionReset_msix hx, fun _ => rfl,
      functionReset_hostEn s, functionReset_idle s, rfl, rfl, rfl, rfl, rfl, rfl, rfl, rfl, h, rfl, rfl⟩

end Sys2Proof.Proofs
end

section
/-! # What the operations that commands share leave: contexts, outcomes, charges, turns (R51, R69, R101, R143, R358, R360) -/

namespace Sys2Proof.Proofs

open Sys2Proof Sys2Proof.Machine Sys2Proof.Claims

/-! ## Entries of a table -/

/-- An entry that is kept is read as before. -/
theorem find_keep {α : Type} {t : Tab α} {a : Nat} {v : α} (p : Nat → α → Bool) (h : t.find a = some v) (hp : p a v = true) :
    (t.keep p).find a = some v := by
  induction t with
  | nil => cases h
  | cons e t ih =>
    obtain ⟨k, w⟩ := e
    by_cases hk : k = a
    · subst hk
      obtain rfl : w = v := by simpa [Tab.find] using h
      simp [Tab.keep, hp, Tab.find]
    · have ht : Tab.find t a = some v := by simpa [Tab.find, hk] using h
      have := ih ht
      simp only [Tab.keep, List.filter_cons] at this ⊢
      split
      · simpa [Tab.find, hk] using this
      · exact this

theorem mem_of_find {α : Type} {t : Tab α} {a : Nat} {v : α} (h : t.find a = some v) : (a, v) ∈ t := by
  induction t with
  | nil => cases h
  | cons e t ih =>
    obtain ⟨k, w⟩ := e
    by_cases hk : k = a
    · subst hk
      obtain rfl : w = v := by simpa [Tab.find] using h
      exact List.mem_cons_self ..
    · exact List.mem_cons_of_mem _ (ih (by simpa [Tab.find, hk] using h))

section
variable {s : State} {i : Nat} {c : Ctx}

/-- The context that an update makes. -/
theorem find_setCtx_some {f : Ctx → Ctx} (h : s.ctxs.find i = some c) : (s.setCtx i f).ctxs.find i = some (f c) := by
  rw [State.find_setCtx, h, Option.map_some]

/-- Two updates of a context are one where they agree on it. -/
theorem setCtx_congr {f g : Ctx → Ctx} (h : s.ctxs.find i = some c) (e : f c = g c) : s.setCtx i f = s.setCtx i g := by
  simp only [State.setCtx, Tab.modify, h, e]

/-- In READY, outside the safe state, commands are served. -/
theorem serving_of_stage (hst : s.start.stage = 0x0C) (hsafe : s.integ.safe = false) : s.serving = true := by
  simp [State.serving, State.ready, Stage.ready, hst, hsafe]

/-! ## Outcomes -/

/-- The result that a command's outcome carries: a dropped command ends ST_ABORTED (R107, R109). -/
def outcomeOf (c : Ctx) (r : Result) : Result := if c.drop then Result.bare St.aborted else r

/-- A decided command as its context shows it. -/
def concluded (s : State) (c : Ctx) (r : Result) : Ctx :=
  { c with phase := .finished, result := some (outcomeOf c r), finishedAt := s.now, progress := s.now, reserved := none }

theorem freeStream_frame (s : State) (q id : Nat) : ∃ y, s.freeStream q id = { s with slices := y } := by
  unfold State.freeStream
  split
  · exact ⟨_, rfl⟩
  · split <;> exact ⟨_, rfl⟩

theorem dropStream_frame (s : State) (q id : Nat) : ∃ x y, s.dropStream q id = { s with queues := x, slices := y } := by
  obtain ⟨y, hy⟩ := freeStream_frame s q id
  rw [State.dropStream, hy]
  exact ⟨_, _, rfl⟩

theorem abortStream_frame (s : State) (q id : Nat) : ∃ x y, s.abortStream q id = { s with queues := x, slices := y } := by
  obtain ⟨y, hy⟩ := freeStream_frame s q id
  rw [State.abortStream, hy]
  exact ⟨_, _, rfl⟩

/-- The contexts after the end of a stream by an error: its later packets are aborted and its finished batch goes (R69, R192). -/
def abortedAfter (s : State) (c : Ctx) : Tab Ctx :=
  Tab.keep (fun _ d => !(d.batch && (d.q == c.q && d.stream == c.stream && d.phase.decided)))
    (s.ctxs.mapVals fun _ d => afterAbort s.now s.datum.v c d)

theorem streamError_ctxs (s : State) (c : Ctx) :
    (s.streamError c).ctxs = s.ctxs ∨ (s.streamError c).ctxs = abortedAfter s c := by
  unfold State.streamError
  split
  · exact .inl rfl
  · split
    · exact .inl rfl
    · split
      · exact .inl rfl
      · right
        dsimp only
        split
        · rfl
        · split
          · obtain ⟨x, y, h⟩ := dropStream_frame (State.dropBatches { s with ctxs := _ } _) c.q c.stream
            rw [h]
            rfl
          · obtain ⟨x, y, h⟩ := abortStream_frame (State.dropBatches { s with ctxs := _ } _) c.q c.stream
            rw [h]
            rfl

/-- A context that the abort of a stream leaves as it is, and that is no batch, is read as before. -/
theorem find_streamError {j : Nat} {d : Ctx} (h : s.ctxs.find j = some d) (ha : afterAbort s.now s.datum.v c d = d)
    (hb : d.batch = false) : (s.streamError c).ctxs.find j = some d := by
  rcases streamError_ctxs s c with he | he <;> rw [he]
  · exact h
  · exact find_keep _ (by rw [Tab.find_mapVals, h, Option.map_some, ha]) (by simp [hb])

theorem afterAbort_decided {d : Ctx} (now v : Nat) (c : Ctx) (h : d.phase.decided = true) : afterAbort now v c d = d := by
  simp [afterAbort, h]

/-- A malformed packet is counted and raises its event (R80). -/
def counted (s : State) (c : Ctx) (r : Result) : State :=
  if r.status = St.malformed || r.status = St.hdrCheck then
    (s.setQueue c.q fun x => { x with malformed := satAdd 16 x.malformed 1 }).raise Ev.queMalformed (Origin.queue c.q) c.slice r.status
  else s

/-- What an outcome does beside its own context: an error ends the stream (R69), and a malformed packet is counted. -/
def reported (s : State) (c : Ctx) (r : Result) : State := counted (if r.status = St.ok then s else s.streamError c) c r

theorem counted_frame (s : State) (c : Ctx) (r : Result) : ∃ q e h l, counted s c r =
    { s with queues := q, events := e, host := h, log := l } := by
  unfold counted
  split
  · obtain ⟨e, h, l, -, -, -, hr⟩ := State.raise_frame (s.setQueue c.q fun x => { x with malformed := satAdd 16 x.malformed 1 })
      Ev.queMalformed (Origin.queue c.q) c.slice r.status 0 0
    exact ⟨_, _, _, _, hr⟩
  · exact ⟨_, _, _, _, rfl⟩

/-- Gives back the slot that a command reserved and does not fill (R143). -/
def unreserved (s : State) (c : Ctx) : State := match c.reserved with | some h => s.unreserve h | none => s

/-- The outcome of an undecided packet. -/
theorem conclude_packet {r : Result} (h : s.ctxs.find i = some c) (hd : c.phase.decided = false) (hb : c.batch = false) :
    s.conclude i r = reported ((unreserved s c).setCtx i fun _ => concluded s c r) c (outcomeOf c r) := by
  have hf : (unreserved s c).ctxs.find i = some c := by
    unfold unreserved
    split <;> exact h
  have hn : (unreserved s c).now = s.now := by
    unfold unreserved
    split <;> rfl
  rw [State.conclude, h]
  simp only [hd, hb, Bool.false_eq_true, if_false]
  have he : ((unreserved s c).setCtx i fun d => { d with
      phase := .finished, result := some (outcomeOf c r), finishedAt := (unreserved s c).now
      progress := (unreserved s c).now, reserved := none }) =
      (unreserved s c).setCtx i fun _ => concluded s c r := setCtx_congr hf (by rw [hn]; rfl)
  rw [← he]
  rfl

theorem unreserved_frame (s : State) (c : Ctx) : ∃ k, unreserved s c = { s with keys := { s.keys with slots := k } } := by
  unfold unreserved
  split <;> exact ⟨_, rfl⟩

theorem reported_frame (s : State) (c : Ctx) (r : Result) : ∃ x q y e h l, reported s c r =
    { s with ctxs := x, queues := q, slices := y, events := e, host := h, log := l } := by
  obtain ⟨x, q, y, hs⟩ := s.streamError_frame c
  obtain ⟨q', e, h, l, ht⟩ := counted_frame (if r.status = St.ok then s else s.streamError c) c r
  rw [reported, ht]
  split
  · exact ⟨_, _, _, _, _, _, rfl⟩
  · rw [hs]
    exact ⟨_, _, _, _, _, _, rfl⟩

/-- What an outcome leaves alone: it changes slots, contexts, queues, slices and what an event changes. -/
theorem conclude_frame (s : State) (i : Nat) (r : Result) : ∃ k x q y e h l, s.conclude i r =
    { s with keys := { s.keys with slots := k }, ctxs := x, queues := q, slices := y, events := e, host := h, log := l } := by
  cases h : s.ctxs.find i with
  | none => exact ⟨_, _, _, _, _, _, _, s.conclude_none r h⟩
  | some c =>
    cases hd : c.phase.decided with
    | true => exact ⟨_, _, _, _, _, _, _, s.conclude_decided r h hd⟩
    | false =>
      cases hb : c.batch with
      | false =>
        obtain ⟨k, hk⟩ := unreserved_frame s c
        obtain ⟨x, q, y, e, g, l, hr⟩ := reported_frame ((unreserved s c).setCtx i fun _ => concluded s c r) c (outcomeOf c r)
        rw [conclude_packet h hd hb, hr, hk]
        exact ⟨_, _, _, _, _, _, _, rfl⟩
      | true =>
        simp only [State.conclude, h, hd, hb, Bool.false_eq_true, if_false, if_true]
        split <;> exact ⟨_, _, _, _, _, _, _, rfl⟩

/-- Queues and events of a report leave a context that no abort changes. -/
theorem find_reported {j : Nat} {d : Ctx} (h : s.ctxs.find j = some d) (ha : afterAbort s.now s.datum.v c d = d)
    (hb : d.batch = false) (r : Result) : (reported s c r).ctxs.find j = some d := by
  obtain ⟨q, e, g, l, ht⟩ := counted_frame (if r.status = St.ok then s else s.streamError c) c r
  rw [reported, ht]
  split
  · exact h
  · exact find_streamError h ha hb

/-- The context of an undecided packet after its outcome. -/
theorem find_conclude (h : s.ctxs.find i = some c) (hd : c.phase.decided = false) (hb : c.batch = false) (r : Result) :
    (s.conclude i r).ctxs.find i = some (concluded s c r) := by
  rw [conclude_packet h hd hb]
  refine find_reported (d := concluded s c r) ?_ (afterAbort_decided _ _ _ rfl) hb _
  obtain ⟨k, hk⟩ := unreserved_frame s c
  rw [hk, State.find_setCtx]
  show (s.ctxs.find i).map _ = _
  rw [h, Option.map_some]

/-! ## A withheld part (R224, R360) -/

theorem withhold_frame (s : State) (i k : Nat) : ∃ g x q y e h l, s.withhold i k =
    { s with keys := { s.keys with slots := g }, ctxs := x, queues := q, slices := y, events := e, host := h, log := l } := by
  unfold State.withhold
  split
  · exact ⟨_, _, _, _, _, _, _, rfl⟩
  · split
    · exact ⟨_, _, _, _, _, _, _, rfl⟩
    · split
      · exact conclude_frame ..
      · split
        · exact conclude_frame ..
        · exact ⟨_, _, _, _, _, _, _, rfl⟩

theorem withhold_integ (s : State) (i k : Nat) : (s.withhold i k).integ = s.integ := by
  obtain ⟨g, x, q, y, e, h, l, hw⟩ := withhold_frame s i k
  rw [hw]

/-- A withheld part is to run again, a third time ends the command, and a dropped command ends. -/
theorem find_withhold {k : Nat} {p : Part} (h : s.ctxs.find i = some c) (hr : c.phase = .running) (hb : c.batch = false)
    (hk : c.parts[k]? = some p) : ∃ d, (s.withhold i k).ctxs.find i = some d ∧
      (c.drop = false → p.retries < 2 → d.parts = c.parts.set k { p with phase := .withheld, left := [] } ∧ d.result = none) ∧
      (c.drop = false → 2 ≤ p.retries → d.phase = .finished ∧ d.result = some (Result.bare 0x0501)) ∧
      (c.drop = true → d.phase = .finished ∧ d.result = some (Result.bare 0x0403)) := by
  have hd : c.phase.decided = false := by rw [hr]; rfl
  have hf := fun st => find_conclude h hd hb (Result.bare st)
  simp only [State.withhold, h, hk]
  cases hdrop : c.drop with
  | true =>
    exact ⟨_, hf St.aborted, Bool.noConfusion, Bool.noConfusion, fun _ => ⟨rfl, by simp [concluded, outcomeOf, hdrop]⟩⟩
  | false =>
    by_cases h2 : 2 ≤ p.retries
    · rw [if_neg Bool.false_ne_true, if_pos h2]
      exact ⟨_, hf St.unitFault, fun _ _ => by omega, fun _ _ => ⟨rfl, by simp [concluded, outcomeOf, hdrop]⟩, Bool.noConfusion⟩
    · rw [if_neg Bool.false_ne_true, if_neg h2]
      exact ⟨_, by rw [State.find_setCtx, h, Option.map_some], fun _ _ => ⟨rfl, rfl⟩, fun _ _ => by omega, Bool.noConfusion⟩

/-! ## Transients (R358) -/

/-- A charge marks the unit, counts one transient and raises an event. -/
theorem charge_frame (s : State) (u row : Nat) : ∃ x e h l, s.charge u row =
    { s with units := x, events := e, host := h, log := l
             integ := { s.integ with transients := min (s.integ.transients + 1) (2 ^ 32 - 1) } } := by
  obtain ⟨e, h, r, -, -, -, hr⟩ := State.raise_frame
    { s.setUnit u fun x => { x with
      charges := (s.unitSt u).inWindow s.now ++ [s.now], mode := if x.mode = .inService then .suspect else x.mode
      needBench := true } with
      integ := { s.integ with transients := satAdd 32 s.integ.transients 1 } }
    Ev.intTransient (Origin.unit u) row ((s.unitSt u).inWindow s.now ++ [s.now]).length 0 0
  exact ⟨_, _, _, _, hr⟩

/-- Both units of a mismatch are charged, so two transients are counted. -/
theorem charge_both_frame (s : State) (u v row : Nat) : ∃ x e h l, (s.charge u row).charge v row =
    { s with units := x, events := e, host := h, log := l
             integ := { s.integ with transients := min (min (s.integ.transients + 1) (2 ^ 32 - 1) + 1) (2 ^ 32 - 1) } } := by
  obtain ⟨x, e, h, l, hu⟩ := charge_frame s u row
  obtain ⟨y, e', h', l', hv⟩ := charge_frame (s.charge u row) v row
  rw [hv, hu]
  exact ⟨_, _, _, _, rfl⟩

/-! ## Work on a unit (R54, R152) -/

theorem unitSt_setCtx (s : State) (i u : Nat) (f : Ctx → Ctx) : (s.setCtx i f).unitSt u = s.unitSt u := rfl

/-- Randomness is there for work that draws, or the work draws nothing. -/
theorem draws_serve {n r : Nat} (h : n = 0 ∨ s.drawState r = .serves) :
    (if (n != 0) = true then s.drawState r else DrawState.serves) = .serves := by
  rcases h with h | h <;> simp [h]

/-- Where a draw is needed and served, random service has not failed. -/
theorem not_draw_failed {n r : Nat} (h : n = 0 ∨ s.drawState r = .serves) : ¬ (n ≠ 0 ∧ s.drawState r = .failed) := by
  rintro ⟨hn, hf⟩
  rcases h with h | h
  · exact hn h
  · exact DrawState.noConfusion (h.symm.trans hf)

/-- A benchmark that is due on the unit goes first. -/
theorem onUnit_bench {u n piece set b : Nat} {go : State → State} (h : n = 0 ∨ s.drawState (unitRegion u) = .serves)
    (hb : s.benchFirst u piece set = some b) : s.onUnit i u (n != 0) true piece set go = s.startBench u b false := by
  simp only [State.onUnit, draws_serve h, hb]
  rfl

theorem onUnit_go {u n piece set : Nat} {go : State → State} (h : n = 0 ∨ s.drawState (unitRegion u) = .serves)
    (hb : s.benchFirst u piece set = none) : s.onUnit i u (n != 0) true piece set go = go s := by
  simp only [State.onUnit, draws_serve h, hb]
  rfl

/-- A benchmark changes no context. -/
theorem startBench_ctxs (s : State) (u p : Nat) (b : Bool) :
    (s.startBench u p b).ctxs = s.ctxs ∧ (s.startBench u p b).now = s.now := by
  unfold State.startBench
  split
  · exact ⟨rfl, rfl⟩
  · obtain ⟨f, g, k, h⟩ := s.drawFor_frame (9 + unitRegion u) u 32
    rw [h]
    exact ⟨rfl, rfl⟩

/-- The end of a unit's operation clears its sheet or its engine and changes no context. -/
theorem clearedUnit_frame (s : State) (u : Nat) : ∃ x e k, (s.endUnit u).clearEngine u =
    { s with units := x, engines := e, cores := k } := by
  obtain ⟨e, he⟩ := (s.endUnit u).clearEngine_frame u
  rw [he]
  unfold State.endUnit State.clearSheet
  split <;> exact ⟨_, _, _, rfl⟩

/-! ## Parts of a command -/

/-- The place of the first part that meets a test. -/
theorem firstIdx_of_firstPart {f : Part → Prop} {g : Part → Bool} {k : Nat} {p : Part} (hg : ∀ q, g q = true ↔ f q)
    (h : FirstPart c f k p) : firstIdx g c.parts = some k := by
  obtain ⟨hk, hp, hfirst⟩ := h
  obtain ⟨hlt, -⟩ := List.getElem?_eq_some_iff.mp hk
  refine List.find?_range_eq_some.mpr ⟨by simp [hk, (hg p).mpr hp], List.mem_range.mpr hlt, fun j hj => ?_⟩
  cases hq : c.parts[j]? with
  | none => rfl
  | some q =>
    have hn : ¬ g q = true := fun hq' => hfirst j q hj hq ((hg q).mp hq')
    simpa using hn

/-- The update of a part, as the commands write it. -/
theorem setCtx_partSet {k : Nat} {p : Part} (h : s.ctxs.find i = some c) :
    (s.setCtx i fun d => { d with parts := d.parts.set k p, progress := s.now }) = PartSet s i k c p :=
  setCtx_congr h rfl

/-! ## Turns (R101) -/

/-- A launch attempt with the turn is served: beside its own effect it moves the turns alone. -/
theorem cmdTurn_served {u : Nat} (h : s.ctxs.find i = some c)
    (hm : s.myTurn c.slice c.q (unitRegion u) (unitKind u) = true) (t : State) : ∃ l, s.cmdTurn i u t = { t with turns := l } := by
  simp only [State.cmdTurn, h, State.inTurn, hm, if_true]
  split <;> exact ⟨_, rfl⟩

/-- What launches nothing of the command needs no turn. -/
theorem cmdTurn_idle {u : Nat} {t : State} (h : s.ctxs.find i = some c) (hl : t.ctxs = s.ctxs) (hn : t.now = s.now) :
    s.cmdTurn i u t = t := by
  have h0 : s.launched t i = 0 := by simp [State.launched, State.loadOf, hl, hn]
  simp only [State.cmdTurn, h, State.inTurn, h0, if_true]

end
end Sys2Proof.Proofs
end

section
/-! # The check of a part: its launch on a partner unit, and its end (R18, R51, R358 to R360) -/

namespace Sys2Proof.Proofs

open Sys2Proof Sys2Proof.Machine Sys2Proof.Claims

section
variable {x u v k : Nat} {s : State} {c : Ctx} {p : Part}

/-! ## The launch of a check -/

theorem serving_of_under (h : Under s x c) : s.serving = true := serving_of_stage h.ready h.safe

/-- A draw for a unit takes the next number. -/
theorem drawFor_free (s : State) (d u n : Nat) : (s.drawFor d u n).free = s.free + (if n = 0 then 0 else 1) := by
  by_cases hn : n = 0
  · subst hn
    rfl
  · rw [if_neg hn, State.drawFor, if_neg hn]
    show (if unitKind u = 0 then _ else _ : State).free = _
    split <;> rfl

/-- What CHECK_LAUNCH does with the first part that awaits its check. -/
theorem checkOn_eq (h : Under s x c) (hk : FirstPart c (fun q => q.slab = false ∧ q.phase = .done) k p)
    (hv : p.unit = some v) : s.checkOn x u = s.tryCheck x k u v c p := by
  have hi : firstIdx (fun p => !p.slab && decide (p.phase = .done)) c.parts = some k :=
    firstIdx_of_firstPart (fun q => by simp) hk
  simp only [State.checkOn, h.found, h.running, serving_of_under h, h.settled, hi, hk.1, hv]
  rfl

/-- A free partner of the part's unit takes the check, once randomness and a due benchmark allow it. -/
theorem tryCheck_eq {l : Nat} {left : List Nat} (hm : s.meetsR19 (unitRegion v) p.kind = true)
    (hr : unitRegion u = unitRegion v) (hkind : unitKind u = p.kind) (huv : u ≠ v) (hfree : s.unitFree u = true)
    (hover : s.passedOver u v = false) (hd : p.checkDraws = 0 ∨ s.drawState (unitRegion v) = .serves)
    (hlegs : defaultLegs p.check = l :: left) :
    s.tryCheck x k u v c p = s.onUnit x u (p.checkDraws != 0) true l p.fam fun s => s.startCheck x k u c p := by
  simp [State.tryCheck, hm, hr, hkind, huv, hfree, hover, not_draw_failed hd, hlegs]

/-- The check runs on its unit: the part and the unit say so, and a draw is taken where the check needs one. -/
theorem startCheck_runs {l : Nat} {left : List Nat} (h : s.ctxs.find x = some c) (hlegs : defaultLegs p.check = l :: left) :
    ((s.startCheck x k u c p).unitSt u).job = .check x ∧ ((s.startCheck x k u c p).unitSt u).ends = s.now + l ∧
    (s.startCheck x k u c p).ctxs.find x = some { c with
      parts := c.parts.set k { p with phase := .checking, checkUnit := some u, ends := s.now + l, left := left }
      progress := s.now, waitFrom := none } ∧
    (s.startCheck x k u c p).free = s.free + (if p.checkDraws = 0 then 0 else 1) := by
  have hfree := drawFor_free s (unitRegion u) u p.checkDraws
  obtain ⟨f, g, cores, hd⟩ := s.drawFor_frame (unitRegion u) u p.checkDraws
  obtain ⟨e, hl⟩ := (s.drawFor (unitRegion u) u p.checkDraws).loadEngine_frame c u p.fam
    (drawBytes s.free p.checkDraws) (p.checkDraws != 0)
  rw [hd] at hl hfree
  have hs : s.startCheck x k u c p = (State.setUnit { s with free := f, rng := g, cores := cores, engines := e } u
      fun y => y.takes (.check x) (s.now + l) p.fam).setCtx x fun c => { c with
        parts := c.parts.set k { p with phase := .checking, checkUnit := some u, ends := s.now + l, left := left }
        progress := s.now, waitFrom := none } := by
    unfold State.startCheck
    rw [hd, hlegs]
    dsimp only
    rw [hl]
    rfl
  rw [hs]
  refine ⟨?_, ?_, ?_, hfree⟩
  · rw [unitSt_setCtx, State.unitSt_setUnit]
    rfl
  · rw [unitSt_setCtx, State.unitSt_setUnit]
    rfl
  · rw [State.find_setCtx]
    show (s.ctxs.find x).map _ = _
    rw [h, Option.map_some]

theorem gives_checkLaunch (h : Under s x c) (hu : u < 104)
    (hturn : s.myTurn c.slice c.q (unitRegion u) (unitKind u) = true) :
    ∃ l, Gives (.checkLaunch x u) s { s.checkOn x u with turns := l } := by
  obtain ⟨l, hl⟩ := cmdTurn_served h.found hturn (s.checkOn x u)
  refine ⟨l, ?_⟩
  show execCheckLaunch x u s = _
  rw [execCheckLaunch, if_neg (by omega), hl]

/-! ## The end of a check -/

/-- What CHECK_COMPLETE does with the first part whose check ends. -/
theorem checkComplete_eq (h : s.ctxs.find x = some c) (hrun : c.phase = .running)
    (hk : FirstPart c (fun q => q.slab = false ∧ q.phase = .checking ∧ q.ends ≤ s.now) k p) (hv : p.unit = some v)
    (hu : p.checkUnit = some u) (ok : Bool) : exec (.checkComplete x ok) s = .next (s.endCheck x k u v p ok) := by
  have hi : firstIdx (Part.checkEnds s.now) c.parts = some k :=
    firstIdx_of_firstPart (fun q => by simp [Part.checkEnds, and_assoc]) hk
  show execCheckComplete x ok s = _
  rw [execCheckComplete, h]
  simp [hrun, hi, hk.1, hv, hu]

/-- A mismatch charges both units with a transient and withholds the part (R51, R358, R360). -/
theorem endCheck_mismatch (h : s.ctxs.find x = some c) (hrun : c.phase = .running) (hb : c.batch = false)
    (hk : c.parts[k]? = some p) (hleft : p.left = []) : ∃ d, (s.endCheck x k u v p false).ctxs.find x = some d ∧
      (s.endCheck x k u v p false).integ.transients = min (min (s.integ.transients + 1) (2 ^ 32 - 1) + 1) (2 ^ 32 - 1) ∧
      (c.drop = false → p.retries < 2 → d.parts = c.parts.set k { p with phase := .withheld, left := [] } ∧ d.result = none) ∧
      (c.drop = false → 2 ≤ p.retries → d.phase = .finished ∧ d.result = some (Result.bare 0x0501)) ∧
      (c.drop = true → d.phase = .finished ∧ d.result = some (Result.bare 0x0403)) := by
  have he : s.endCheck x k u v p false = (((((s.freeUnit u).endUnit u).clearEngine u).charge v 1).charge u 1).withhold x k := by
    simp [State.endCheck, hleft]
  obtain ⟨y, e, n, hclear⟩ := clearedUnit_frame (s.freeUnit u) u
  obtain ⟨z, ev, ho, lo, hcharge⟩ := charge_both_frame (((s.freeUnit u).endUnit u).clearEngine u) v u 1
  rw [hclear] at he hcharge
  have hctx := congrArg (fun t : State => t.ctxs.find x) hcharge
  obtain ⟨d, hd, hcases⟩ := find_withhold (hctx.trans h) hrun hb hk
  rw [he, withhold_integ]
  exact ⟨d, hd, congrArg (fun t : State => t.integ.transients) hcharge, hcases⟩

end

/-- Settles O15: the launch takes the partner that the tests allow; the end passes, goes on, or charges and withholds. -/
theorem checks : Obligations.Checks := by
  refine ⟨?_, ?_⟩
  · intro x u v k l left s c p h hk hv hu hm hr hkind huv hfree hover hd hlegs hturn
    obtain ⟨turns, hgives⟩ := gives_checkLaunch h hu hturn
    have hcheck := checkOn_eq (u := u) h hk hv
    rw [tryCheck_eq hm hr hkind huv hfree hover hd hlegs] at hcheck
    rw [← hr] at hd
    refine ⟨fun b hb => ?_, fun hb => ?_⟩
    · rw [onUnit_bench hd hb] at hcheck
      obtain ⟨hctxs, hnow⟩ := startBench_ctxs s u b false
      show execCheckLaunch x u s = _
      rw [execCheckLaunch, if_neg (by omega), hcheck, cmdTurn_idle h.found hctxs hnow]
    · rw [onUnit_go hd hb] at hcheck
      rw [hcheck] at hgives
      obtain ⟨hjob, hends, hctx, hfreed⟩ := startCheck_runs (k := k) (u := u) h.found hlegs
      exact ⟨_, _, hgives, hjob, hends, hctx, rfl, rfl, hfreed⟩
  · intro x u v k s c p h hrun hk hv hu
    refine ⟨fun hleft ok => ?_, fun hleft => ⟨?_, fun hb => ?_⟩⟩
    · rw [Gives, checkComplete_eq h hrun hk hv hu]
      have he : s.endCheck x k u v p ok = PartSet (s.freeUnit u) x k c { p with phase := .between } := by
        rw [State.endCheck, if_pos (by simpa using hleft)]
        exact setCtx_partSet h
      rw [he]
      rfl
    · rw [Gives, checkComplete_eq h hrun hk hv hu]
      have hf : (((s.freeUnit u).endUnit u).clearEngine u).ctxs.find x = some c := by
        obtain ⟨y, e, n, hclear⟩ := clearedUnit_frame (s.freeUnit u) u
        rw [hclear]
        exact h
      rw [State.endCheck, if_neg (by simp [hleft])]
      exact congrArg (fun t : State => Host.Outcome.next (t.settle x)) (setCtx_partSet hf)
    · obtain ⟨d, hd, htrans, hcases⟩ := endCheck_mismatch (u := u) (v := v) h hrun hb hk.1 hleft
      exact ⟨_, d, checkComplete_eq h hrun hk hv hu false, hd, htrans, hcases⟩

end Sys2Proof.Proofs
end

section
/-! # QP_DESTROY over a context table with a key listed twice (R107) -/

namespace Sys2Proof.Proofs

open Sys2Proof Sys2Proof.Machine Sys2Proof.Claims

/-! ## The state that refutes the statement on queue pairs

The statement speaks of every state, and so of tables that list a key twice, which no run of the device makes: a read gives
the first entry alone. The squash of QP_DESTROY then meets the second entry of context 5, a waiting command of queue 2, but
refuses what a read of context 5 gives: a survey batch. The abort of its stream by command 6 takes the batch away, and the
waiting command comes to light after its turn has passed. -/

/-- The stream of queue 2 on which the batch and command 6 stand. -/
def shadowStream : Stream := { Tests.commitStream 0 with opcode := 0 }

/-- The command that destroys queue 2. -/
def destroyCmd : Ctx := Tests.ofSlice1 0x0202 (le 8 2)

/-- Queue 2, a pair of slice 1. -/
def shadowQueue : Queue := { Tests.queue1 with admin := false, streams := [(1, shadowStream)] }

/-- Command 7 destroys queue 2, of which context 5 is listed twice: as a survey batch of stream 1, and as a waiting
command. -/
def shadowed : State :=
  { Tests.sliced .active destroyCmd with
    ctxs := [(5, { Tests.cmd 0 [] with q := 2, stream := 1, phase := .running, batch := true }),
             (5, { Tests.cmd 0 [] with q := 2 }),
             (6, { Tests.cmd 0 [] with q := 2, stream := 1 }),
             (7, destroyCmd)]
    queues := [(1, Tests.queue1), (2, shadowQueue)] }

theorem shadowed_mayRun : MayRun shadowed 7 0x0202 destroyCmd :=
  ⟨⟨rfl, rfl, rfl, by decide, rfl, rfl, by decide, by decide⟩, by decide⟩

/-- An answer in which context 5 is a command of queue 2 that still waits. -/
def leavesWaiting : Out → Bool
  | .next t => match t.ctxs.find 5 with
    | some d => decide (d.q = 2) && decide (d.phase = .waiting)
    | none => false
  | _ => false

theorem qpDestroy_leavesWaiting : leavesWaiting (exec (.qpDestroy 7) shadowed) = true := by decide +kernel

theorem not_queuePairs : ¬ Claims.QueuePairs := by
  intro h
  obtain ⟨-, hdestroy, -⟩ := h 7 shadowed destroyCmd
  obtain ⟨t, hgives, -, -, hended⟩ :=
    hdestroy shadowQueue shadowed_mayRun (by decide) (by decide) rfl rfl rfl (by decide)
  have hwaits := qpDestroy_leavesWaiting
  rw [hgives, leavesWaiting] at hwaits
  cases hd : t.ctxs.find 5 with
  | none => simp [hd] at hwaits
  | some d =>
    obtain ⟨hq, hphase⟩ : d.q = 2 ∧ d.phase = .waiting := by simpa [hd] using hwaits
    have hover := hended 5 d hd hq
    simp [hphase, Phase.decided] at hover

/-- Refutes O50: where a context is listed twice, QP_DESTROY can leave a command of the destroyed pair waiting. -/
theorem not_slicesAndQueues : ¬ Obligations.SlicesAndQueues := fun h => not_queuePairs h.2

end Sys2Proof.Proofs
end

section
/-! # Commands that end: what the end of one leaves of slots, bumps and the other commands (R69, R143, R144, R259) -/

namespace Sys2Proof.Proofs

open Sys2Proof Sys2Proof.Machine Sys2Proof.Claims

/-- What becomes of a packet's context when commands end: it ends too, or keeps its phase and what it names. -/
def CtxEnds (c d : Ctx) : Prop :=
  c.batch = false → d.batch = false ∧
    (d.phase = .finished ∨ (d.phase = c.phase ∧ d.names = c.names ∧ (c.parts = [] → d.parts = [])))

theorem CtxEnds.refl (c : Ctx) : CtxEnds c c := fun h => ⟨h, .inr ⟨rfl, rfl, id⟩⟩

theorem CtxEnds.trans {c d e : Ctx} (h : CtxEnds c d) (k : CtxEnds d e) : CtxEnds c e := by
  intro hc
  obtain ⟨hd, hcd⟩ := h hc
  obtain ⟨he, hde⟩ := k hd
  refine ⟨he, ?_⟩
  rcases hde with hfin | ⟨hphase, hnames, hparts⟩
  · exact .inl hfin
  · rcases hcd with hfin | ⟨hphase', hnames', hparts'⟩
    · exact .inl (hphase.trans hfin)
    · exact .inr ⟨hphase.trans hphase', hnames.trans hnames', fun hp => hparts (hparts' hp)⟩

theorem ctxEnds_afterAbort (now v : Nat) (c d : Ctx) : CtxEnds d (afterAbort now v c d) := by
  intro hb
  unfold afterAbort
  split
  · dsimp only
    split
    · exact ⟨hb, .inl rfl⟩
    · split
      · exact ⟨hb, .inl rfl⟩
      · exact ⟨hb, .inr ⟨rfl, rfl, id⟩⟩
  · exact ⟨hb, .inr ⟨rfl, rfl, id⟩⟩

/-- From `s` to `t` commands have ended: no bump is lost, a slot changes only from reserved to free, and packets end or stay. -/
structure Ends (s t : State) : Prop where
  bumps : t.keys.bumps = s.keys.bumps
  slotsFrom : ∀ k y, t.keys.slots.find k = some y → y.st = .free ∨ s.keys.slots.find k = some y
  slotsKept : ∀ k y, s.keys.slots.find k = some y → y.st ≠ .reserved → t.keys.slots.find k = some y
  ctxs : ∀ i c, s.ctxs.find i = some c → c.batch = false → ∃ d, t.ctxs.find i = some d ∧ CtxEnds c d

section
variable {s t u : State} {i : Nat} {c : Ctx}

theorem Ends.of_ctxs (hk : t.keys = s.keys)
    (hc : ∀ i c, s.ctxs.find i = some c → c.batch = false → ∃ d, t.ctxs.find i = some d ∧ CtxEnds c d) : Ends s t :=
  ⟨by rw [hk], fun _ _ h => .inr (by rwa [hk] at h), fun _ _ h _ => by rwa [hk], hc⟩

theorem Ends.of_same (hk : t.keys = s.keys) (hc : t.ctxs = s.ctxs) : Ends s t :=
  .of_ctxs hk fun _ c h _ => ⟨c, by rwa [hc], .refl c⟩

theorem Ends.refl (s : State) : Ends s s := .of_same rfl rfl

theorem Ends.trans (h : Ends s t) (k : Ends t u) : Ends s u where
  bumps := k.bumps.trans h.bumps
  slotsFrom n y hy := (k.slotsFrom n y hy).elim .inl (h.slotsFrom n y)
  slotsKept n y hy hr := k.slotsKept n y (h.slotsKept n y hy hr) hr
  ctxs i c hi hb := by
    obtain ⟨d, hd, hcd⟩ := h.ctxs i c hi hb
    obtain ⟨e, he, hde⟩ := k.ctxs i d hd (hcd hb).1
    exact ⟨e, he, hcd.trans hde⟩

theorem ends_foldl {α : Type} (f : State → α → State) (l : List α) (hf : ∀ t a, Ends t (f t a)) (s : State) :
    Ends s (l.foldl f s) := by
  induction l generalizing s with
  | nil => exact .refl s
  | cons a l ih => exact (hf s a).trans (ih _)

theorem ends_setCtx (f : Ctx → Ctx) (hf : ∀ c, s.ctxs.find i = some c → CtxEnds c (f c)) : Ends s (s.setCtx i f) := by
  refine .of_ctxs rfl fun j c hj hb => ?_
  by_cases h : j = i
  · subst h
    exact ⟨f c, by rw [State.find_setCtx, hj, Option.map_some], hf c hj⟩
  · exact ⟨c, by rwa [State.find_setCtx_ne s f h], .refl c⟩

theorem ends_unreserve (s : State) (h : Nat) : Ends s (s.unreserve h) := by
  refine ⟨rfl, fun k y hy => ?_, fun k y hy hr => ?_, fun i c hi _ => ⟨c, hi, .refl c⟩⟩
  · by_cases hk : k = h / 2 ^ 24
    · subst hk
      rw [State.unreserve, Tab.find_modify_same] at hy
      obtain ⟨x, hx, rfl⟩ := Option.map_eq_some_iff.mp hy
      split
      · exact .inl rfl
      · exact .inr hx
    · exact .inr (by rwa [State.unreserve, Tab.find_modify_ne _ _ hk] at hy)
  · by_cases hk : k = h / 2 ^ 24
    · subst hk
      rw [State.unreserve, Tab.find_modify_same, hy, Option.map_some, if_neg hr]
    · rwa [State.unreserve, Tab.find_modify_ne _ _ hk]

theorem ends_streamError (s : State) (c : Ctx) : Ends s (s.streamError c) := by
  obtain ⟨x, q, y, h⟩ := s.streamError_frame c
  refine .of_ctxs (by rw [h]) fun j d hj hb => ?_
  rcases streamError_ctxs s c with he | he <;> rw [he]
  · exact ⟨d, hj, .refl d⟩
  · have hd := ctxEnds_afterAbort s.now s.datum.v c d
    exact ⟨_, find_keep _ (by rw [Tab.find_mapVals, hj, Option.map_some]) (by simp [(hd hb).1]), hd⟩

theorem ends_reported (s : State) (c : Ctx) (r : Result) : Ends s (reported s c r) := by
  obtain ⟨q, e, g, l, ht⟩ := counted_frame (if r.status = St.ok then s else s.streamError c) c r
  have hc : Ends (if r.status = St.ok then s else s.streamError c) (reported s c r) := by
    rw [reported, ht]
    exact .of_same rfl rfl
  refine .trans ?_ hc
  split
  · exact .refl s
  · exact ends_streamError s c

theorem ends_unreserved (s : State) (c : Ctx) : Ends s (unreserved s c) := by
  unfold unreserved
  split
  · exact ends_unreserve s _
  · exact .refl s

theorem ends_conclude (s : State) (i : Nat) (r : Result) : Ends s (s.conclude i r) := by
  cases h : s.ctxs.find i with
  | none =>
    rw [s.conclude_none r h]
    exact .refl s
  | some c =>
    cases hd : c.phase.decided with
    | true =>
      rw [s.conclude_decided r h hd]
      exact .refl s
    | false =>
      cases hb : c.batch with
      | false =>
        rw [conclude_packet h hd hb]
        refine (ends_unreserved s c).trans (.trans ?_ (ends_reported ..))
        exact ends_setCtx _ fun _ _ _ => ⟨hb, .inl rfl⟩
      | true =>
        simp only [State.conclude, h, hd, hb, Bool.false_eq_true, if_false, if_true]
        split
        · refine .of_ctxs rfl fun j d hj hdb => ?_
          have hji : j ≠ i := by
            rintro rfl
            rw [Option.some.inj (hj.symm.trans h), hb] at hdb
            cases hdb
          exact ⟨d, by rwa [Tab.find_drop_ne _ hji], .refl d⟩
        · exact ends_setCtx _ fun d hj hdb => by
            rw [Option.some.inj (hj.symm.trans h), hb] at hdb
            cases hdb

theorem ends_refuse (s : State) (i st : Nat) : Ends s (s.refuse i st) := by
  unfold State.refuse
  split
  · exact .refl s
  · split
    · exact .refl s
    · refine .trans ?_ (ends_conclude ..)
      exact ends_setCtx _ fun _ _ hb => ⟨hb, .inr ⟨rfl, rfl, fun _ => rfl⟩⟩

/-- A refused packet is finished. -/
theorem find_refuse (h : s.ctxs.find i = some c) (hd : c.phase.decided = false) (hb : c.batch = false) (st : Nat) :
    ∃ d, (s.refuse i st).ctxs.find i = some d ∧ d.phase = .finished := by
  simp only [State.refuse, h, hd, Bool.false_eq_true, if_false]
  have hf : (s.setCtx i fun c => { c with parts := [], launchV := s.datum.v, launchTick := s.now }).ctxs.find i =
      some { c with parts := [], launchV := s.datum.v, launchTick := s.now } := by
    rw [State.find_setCtx, h, Option.map_some]
  exact ⟨_, find_conclude hf hd hb _, rfl⟩

theorem ends_freeLanes (s : State) (i : Nat) (p : Part) : Ends s (s.freeLanes i p) := by
  unfold State.freeLanes
  split
  · exact .of_same rfl rfl
  · exact .refl s

/-- The last work of a boundary ends commands. -/
theorem ends_boundaryEnd (s : State) : Ends s s.boundaryEnd := by
  have hr : ∀ s : State, Ends s s.debugRights := fun s => by
    unfold State.debugRights
    repeat' split
    all_goals exact .of_same rfl rfl
  have hs : Ends s s.deadlineSweep := ends_foldl _ _ (fun t p => by
    split
    · exact ends_refuse ..
    · exact .refl t) s
  unfold State.boundaryEnd
  split
  · exact .refl s
  · split
    · exact hs.trans (hr _)
    · exact hr s

end

end Sys2Proof.Proofs
end

section
/-! # The bump of a key and the reclaim of its slot (R144, R242, R254, R259, R260) -/

namespace Sys2Proof.Proofs

open Sys2Proof Sys2Proof.Machine Sys2Proof.Claims

section
variable {s t : State} {h : Nat} {lost : List Nat}

/-! ## Slots that hold no live key -/

/-- No live key lies in a slot. -/
def NotLive (s : State) (k : Nat) : Prop := ∀ y, s.keys.slots.find k = some y → y.st ≠ .live

theorem liveKey_of_notLive (hn : NotLive s (slotKey h)) : s.liveKey h = none := by
  unfold State.liveKey State.findKey
  rw [if_neg (by simp)]
  cases hy : s.keys.slots.find (slotKey h) with
  | none => rfl
  | some y =>
    have := hn y hy
    dsimp only
    split <;> rename_i he
    · split at he
      · cases he
      · split at he
        · exact absurd ‹_› this
        · cases he
        · cases he
    · rfl

/-- A live key stands in its slot. -/
theorem slot_of_liveKey {y : Slot} (hl : s.liveKey h = some y) : s.keys.slots.find (slotKey h) = some y ∧ y.st = .live := by
  unfold State.liveKey State.findKey at hl
  rw [if_neg (by simp)] at hl
  cases hf : s.keys.slots.find (slotKey h) with
  | none => simp [hf] at hl
  | some x =>
    simp only [hf] at hl
    split at hl <;> rename_i he
    · split at he
      · cases he
      · split at he
        · obtain rfl := Found.live.inj he
          obtain rfl := Option.some.inj hl
          exact ⟨rfl, ‹_›⟩
        · cases he
        · cases he
    · cases hl

theorem notLive_setSlot (d : Nat) {f : Slot → Slot} (hf : ∀ y, (f y).st ≠ .live) : NotLive (s.setSlot d f) (slotKey d) := by
  intro y hy
  rw [State.setSlot, Tab.find_modify_same] at hy
  obtain ⟨x, -, rfl⟩ := Option.map_eq_some_iff.mp hy
  exact hf x

theorem NotLive.setSlot {k : Nat} (hn : NotLive s k) (d : Nat) {f : Slot → Slot} (hf : ∀ y, (f y).st ≠ .live) :
    NotLive (s.setSlot d f) k := by
  by_cases hk : k = slotKey d
  · subst hk
    exact notLive_setSlot d hf
  · intro y hy
    rw [State.setSlot, Tab.find_modify_ne _ _ hk] at hy
    exact hn y hy

theorem NotLive.ends {k : Nat} (hn : NotLive s k) (he : Ends s t) : NotLive t k := fun y hy =>
  (he.slotsFrom k y hy).elim (fun hfree hlive => SlotSt.noConfusion (hfree.symm.trans hlive)) (hn y)

/-! ## The slots of a bump -/

/-- The orphaning of keys. -/
def orphanSlots (s : State) (l : List Nat) : State := l.foldl (fun t d => t.setSlot d fun y => { y with st := .orphaned }) s

theorem orphanSlots_frame (s : State) (l : List Nat) : ∃ x, orphanSlots s l = { s with keys := { s.keys with slots := x } } := by
  induction l generalizing s with
  | nil => exact ⟨_, rfl⟩
  | cons d l ih =>
    obtain ⟨x, hx⟩ := ih (s.setSlot d fun y => { y with st := .orphaned })
    exact ⟨x, hx⟩

theorem NotLive.orphanSlots {k : Nat} (hn : NotLive s k) (l : List Nat) : NotLive (orphanSlots s l) k := by
  induction l generalizing s with
  | nil => exact hn
  | cons d l ih => exact ih (hn.setSlot d fun _ => SlotSt.noConfusion)

theorem notLive_orphanSlots {l : List Nat} {d : Nat} (hd : d ∈ l) : NotLive (orphanSlots s l) (slotKey d) := by
  induction l generalizing s with
  | nil => cases hd
  | cons e l ih =>
    rcases List.mem_cons.mp hd with rfl | hd
    · exact (notLive_setSlot d fun _ => SlotSt.noConfusion).orphanSlots l
    · exact ih hd

/-- A slot that none of the orphans lies in stays as it is. -/
theorem find_orphanSlots {k : Nat} {l : List Nat} (hl : ∀ d ∈ l, slotKey d ≠ k) :
    (orphanSlots s l).keys.slots.find k = s.keys.slots.find k := by
  induction l generalizing s with
  | nil => rfl
  | cons d l ih =>
    have hd : k ≠ slotKey d := (hl d (List.mem_cons_self ..)).symm
    exact (ih fun e he => hl e (List.mem_cons_of_mem _ he)).trans (Tab.find_modify_ne s.keys.slots _ hd)

/-- Descendants depend on the slots alone. -/
theorem descendants_congr (hs : t.keys.slots = s.keys.slots) (f : Nat) (l : List Nat) : t.descendants f l = s.descendants f l := by
  induction f generalizing l with
  | zero => rfl
  | succ f ih =>
    have hc : t.childrenOf l = s.childrenOf l := by rw [State.childrenOf, hs, State.childrenOf]
    rw [State.descendants, State.descendants, hc]
    simp only [ih]

theorem removeStateful_frame (s : State) (n : Nat) : ∃ x, s.removeStateful n = { s with stateful := x } := by
  obtain ⟨x, hx⟩ : ∃ x, s.exhaustRec n false = { s with stateful := x } := by
    unfold State.exhaustRec
    split
    · exact ⟨_, rfl⟩
    · exact s.journalWrite_frame ..
  rw [State.removeStateful, hx]
  exact ⟨_, rfl⟩

/-! ## The commands of a bump -/

theorem ends_orphanCtx (s : State) (h : Nat) (lost : List Nat) (i : Nat) : Ends s (s.orphanCtx h lost i) := by
  unfold State.orphanCtx
  split
  · exact .refl s
  · rename_i c _
    have hlanes : Ends s (c.parts.foldl (fun t p => if p.slab then t.freeLanes i p else t) s) :=
      ends_foldl _ _ (fun t p => by
        split
        · exact ends_freeLanes ..
        · exact .refl t) s
    repeat' split
    · exact .refl s
    · exact ends_refuse ..
    · exact ends_refuse ..
    · exact hlanes.trans (ends_conclude ..)
    · exact hlanes.trans (ends_refuse ..)
    · exact ends_setCtx _ fun _ _ hb => ⟨hb, .inr ⟨rfl, rfl, id⟩⟩
    · exact .refl s

theorem ends_orphanStreams (s : State) (lost : List Nat) : Ends s (s.orphanStreams lost) := by
  refine ends_foldl _ _ (fun t p => ends_foldl _ _ (fun t e => ?_) t) s
  split
  · exact .refl t
  · split
    · obtain ⟨x, y, hd⟩ := dropStream_frame t p.1 e.1
      rw [hd]
      exact .of_same rfl rfl
    · exact .of_same rfl rfl

/-- A packet that a bump of the keys lost ends, if it has not ended: it waits for its launch and names one of them. -/
def Doomed (lost : List Nat) (c : Ctx) : Prop :=
  c.batch = false ∧ (c.phase = .finished ∨ (c.phase = .waiting ∧ c.parts = [] ∧ ∃ h ∈ c.names, h ∈ lost))

theorem Doomed.ends {c d : Ctx} (hc : Doomed lost c) (he : CtxEnds c d) : Doomed lost d := by
  obtain ⟨hb, hcase⟩ := hc
  obtain ⟨hdb, hdcase⟩ := he hb
  refine ⟨hdb, ?_⟩
  rcases hdcase with hfin | ⟨hphase, hnames, hparts⟩
  · exact .inl hfin
  · rcases hcase with hfin | ⟨hwait, hp, hn⟩
    · exact .inl (hphase.trans hfin)
    · exact .inr ⟨hphase.trans hwait, hparts hp, hnames ▸ hn⟩

/-- A finished packet stays finished while commands end. -/
theorem finished_of_ends {i : Nat} {c : Ctx} (he : Ends s t) (hc : s.ctxs.find i = some c) (hb : c.batch = false)
    (hf : c.phase = .finished) : ∃ d, t.ctxs.find i = some d ∧ d.phase = .finished ∧ d.batch = false := by
  obtain ⟨d, hd, hcd⟩ := he.ctxs i c hc hb
  obtain ⟨hdb, hcase⟩ := hcd hb
  exact ⟨d, hd, hcase.elim id fun hsame => hsame.1.trans hf, hdb⟩

/-- The turn of a doomed packet ends it. -/
theorem orphanCtx_finishes {i : Nat} {c : Ctx} (hc : s.ctxs.find i = some c) (hd : Doomed lost c) :
    ∃ d, (s.orphanCtx h lost i).ctxs.find i = some d ∧ d.phase = .finished := by
  obtain ⟨hb, hcase⟩ := hd
  rcases hcase with hfin | ⟨hwait, hparts, hnames⟩
  · obtain ⟨d, hd, hdf, -⟩ := finished_of_ends (ends_orphanCtx s h lost i) hc hb hfin
    exact ⟨d, hd, hdf⟩
  · have hdec : c.phase.decided = false := by rw [hwait]; rfl
    have hany : c.names.any lost.contains = true := by simpa using hnames
    simp only [State.orphanCtx, hc]
    rw [if_neg (by simp [hdec, hany])]
    split
    · exact find_refuse hc hdec hb _
    · rw [if_pos (by simp [hwait, hparts])]
      exact find_refuse hc hdec hb _

/-- Once every context has had its turn, a doomed packet has ended. -/
theorem orphanCtxs_finish {i : Nat} {c : Ctx} (l : List Nat) (hi : i ∈ l) (hc : s.ctxs.find i = some c) (hd : Doomed lost c) :
    ∃ d, (l.foldl (fun t i => t.orphanCtx h lost i) s).ctxs.find i = some d ∧ d.phase = .finished ∧ d.batch = false := by
  induction l generalizing s c with
  | nil => cases hi
  | cons j l ih =>
    have he := ends_orphanCtx s h lost j
    obtain ⟨d, hfd, hcd⟩ := he.ctxs i c hc hd.1
    have hdd := hd.ends hcd
    rcases List.mem_cons.mp hi with rfl | hi
    · obtain ⟨e, hfe, hfin⟩ := orphanCtx_finishes (h := h) hc hd
      obtain rfl := Option.some.inj (hfd.symm.trans hfe)
      exact finished_of_ends (ends_foldl _ l (fun t i => ends_orphanCtx t h lost i) _) hfd hdd.1 hfin
    · exact ih hi hfd hdd

theorem mem_insertBy {x y : Nat × Nat} {l : List (Nat × Nat)} : x ∈ insertBy y l ↔ x = y ∨ x ∈ l := by
  induction l with
  | nil => simp [insertBy]
  | cons z l ih =>
    unfold insertBy
    split
    · simp
    · simp [ih, or_left_comm]

theorem mem_sortBy {x : Nat × Nat} (l : List (Nat × Nat)) : x ∈ sortBy l ↔ x ∈ l := by
  have hl : ∀ (l a : List (Nat × Nat)), x ∈ l.foldl (fun a x => insertBy x a) a ↔ x ∈ a ∨ x ∈ l := by
    intro l
    induction l with
    | nil => simp
    | cons y l ih =>
      intro a
      rw [List.foldl_cons, ih, mem_insertBy, List.mem_cons]
      tauto
  exact (hl l []).trans (by simp)

/-- Every context has its turn. -/
theorem mem_inOrder {i : Nat} {c : Ctx} (hc : s.ctxs.find i = some c) : i ∈ s.inOrder :=
  List.mem_map.mpr ⟨(c.seq, i), (mem_sortBy _).mpr (List.mem_map.mpr ⟨(i, c), mem_of_find hc, rfl⟩), rfl⟩

/-! ## The bump -/

/-- A bump changes slots, and a stateful key's records; then commands and streams of the lost keys end. -/
theorem bumpKey_eq {y : Slot} (hl : s.liveKey h = some y) : ∃ x,
    let b := { orphanSlots (s.setSlot h fun y => { y with st := .dead, gen := y.gen + 1 }) (s.descendants 8 [h]) with stateful := x }
    s.bumpKey h = (b.inOrder.foldl (fun t i => t.orphanCtx h (h :: s.descendants 8 [h]) i) b).orphanStreams (h :: s.descendants 8 [h]) := by
  simp only [State.bumpKey, hl]
  split
  · obtain ⟨x, hx⟩ := removeStateful_frame
      (orphanSlots (s.setSlot h fun y => { y with st := .dead, gen := y.gen + 1 }) (s.descendants 8 [h])) y.policy.counter
    refine ⟨x, ?_⟩
    rw [← hx]
    rfl
  · exact ⟨(orphanSlots _ _).stateful, rfl⟩

/-- After a bump the lost keys are live no more, the key's slot has its next generation, and the packets that wait for one of
them have ended. -/
theorem bumpKey_effect {y : Slot} (hl : s.liveKey h = some y) :
    (s.bumpKey h).keys.bumps = s.keys.bumps ∧
    (∀ d ∈ h :: s.descendants 8 [h], NotLive (s.bumpKey h) (slotKey d)) ∧
    ((∀ d ∈ s.descendants 8 [h], slotKey d ≠ slotKey h) →
      (s.bumpKey h).keys.slots.find (slotKey h) = some { y with st := .dead, gen := y.gen + 1 }) ∧
    (∀ i c, s.ctxs.find i = some c → Doomed (h :: s.descendants 8 [h]) c →
      ∃ d, (s.bumpKey h).ctxs.find i = some d ∧ d.phase = .finished ∧ d.batch = false) := by
  obtain ⟨x, hb⟩ := bumpKey_eq hl
  set s' := s.setSlot h fun y => { y with st := .dead, gen := y.gen + 1 } with hs'
  set down := s.descendants 8 [h]
  set b := { orphanSlots s' down with stateful := x } with hbdef
  obtain ⟨z, hz⟩ := orphanSlots_frame s' down
  have hctxs : b.ctxs = s.ctxs := by rw [hbdef, hz]; rfl
  have hbumps : b.keys.bumps = s.keys.bumps := by rw [hbdef, hz]; rfl
  have hcmds := ends_foldl _ b.inOrder (fun t i => ends_orphanCtx t h (h :: down) i) b
  have hstreams := ends_orphanStreams (b.inOrder.foldl (fun t i => t.orphanCtx h (h :: down) i) b) (h :: down)
  have hends : Ends b (s.bumpKey h) := by
    rw [hb]
    exact hcmds.trans hstreams
  refine ⟨hends.bumps.trans hbumps, fun d hd => ?_, fun hdown => ?_, fun i c hc hdoomed => ?_⟩
  · have hnb : NotLive b (slotKey d) := by
      rcases List.mem_cons.mp hd with rfl | hd
      · exact (notLive_setSlot d fun _ => SlotSt.noConfusion).orphanSlots down
      · exact notLive_orphanSlots (s := s') hd
    exact hnb.ends hends
  · refine hends.slotsKept _ _ ?_ SlotSt.noConfusion
    refine (find_orphanSlots (s := s') hdown).trans ?_
    rw [hs', State.setSlot, Tab.find_modify_same, (slot_of_liveKey hl).1]
    rfl
  · have hcb : b.ctxs.find i = some c := by rwa [hctxs]
    obtain ⟨d, hd, hfin, hbatch⟩ := orphanCtxs_finish (h := h) b.inOrder (mem_inOrder hcb) hcb hdoomed
    rw [hb]
    exact finished_of_ends hstreams hd hbatch hfin

/-- The bump of a key at its boundary. -/
theorem generationBump_effect {b : Nat × Nat} {y : Slot} (hdue : s.dueBump = some b) (hset : s.datumUnsettled = false)
    (hl : s.liveKey b.1 = some y) :
    let down := s.descendants 8 [b.1]
    ∃ t, Gives .generationBump s t ∧ t.keys.bumps = s.keys.bumps.erase b ∧
      (∀ h ∈ b.1 :: down, t.liveKey h = none) ∧
      ((∀ d ∈ down, slotKey d ≠ slotKey b.1) → t.keys.slots.find (slotKey b.1) = some { y with st := .dead, gen := y.gen + 1 }) ∧
      (∀ x c, s.ctxs.find x = some c → c.phase = .waiting → c.parts = [] → c.batch = false → (∃ h ∈ c.names, h ∈ b.1 :: down) →
        ∃ d, t.ctxs.find x = some d ∧ d.phase = .finished) := by
  intro down
  set s' : State := { s with keys := { s.keys with bumps := s.keys.bumps.erase b } }
  have hl' : s'.liveKey b.1 = some y := hl
  have hdown : s'.descendants 8 [b.1] = down := descendants_congr rfl 8 [b.1]
  obtain ⟨hbumps, hlost, hslot, hdoom⟩ := bumpKey_effect hl'
  rw [hdown] at hlost hslot hdoom
  have hend := ends_boundaryEnd (s'.bumpKey b.1)
  refine ⟨(s'.bumpKey b.1).boundaryEnd, ?_, hend.bumps.trans hbumps, fun h hh => liveKey_of_notLive ((hlost h hh).ends hend),
    fun hd => hend.slotsKept _ _ (hslot hd) SlotSt.noConfusion, fun x c hc hw hp hb hn => ?_⟩
  · show execGenerationBump s = _
    simp only [execGenerationBump, hdue, hset]
    rfl
  · obtain ⟨d, hd, hfin, hdb⟩ := hdoom x c hc ⟨hb, .inr ⟨hw, hp, hn⟩⟩
    obtain ⟨e, he, hefin, -⟩ := finished_of_ends hend hd hdb hfin
    exact ⟨e, he, hefin⟩

/-! ## Reclaim (R260) -/

/-- A slot that awaits reclaim becomes free. -/
theorem slotReclaim_effect {y : Slot} (hy : s.keys.slots.find (slotKey h) = some y) (hst : s.start.stage = 0x0C)
    (hsafe : s.integ.safe = false) (hbusy : s.slotBusy h = false) :
    let free := fun (t : State) (g : Nat) => { t with keys := { t.keys with
      slots := t.keys.slots.put (slotKey h) (Slot.empty g .free), reclaimed := min (t.keys.reclaimed + 1) (2 ^ 32 - 1) } }
    (y.st = .dead → Gives (.slotReclaim h) s (free s y.gen)) ∧
    (y.st = .orphaned → y.policy.stateful = false → Gives (.slotReclaim h) s (free s (y.gen + 1))) ∧
    (y.st = .orphaned → y.policy.stateful = true →
      Gives (.slotReclaim h) s (free (s.removeStateful y.policy.counter) (y.gen + 1))) := by
  have hserv := serving_of_stage hst hsafe
  refine ⟨fun hdead => ?_, fun horph hpol => ?_, fun horph hpol => ?_⟩ <;> show execSlotReclaim h s = _
  · simp [execSlotReclaim, hy, hserv, hbusy, hdead, satAdd, maxOf]
  · simp [execSlotReclaim, hy, hserv, hbusy, horph, hpol, satAdd, maxOf]
  · simp [execSlotReclaim, hy, hserv, hbusy, horph, hpol, satAdd, maxOf]

theorem bumpsAndReclaim : Claims.BumpsAndReclaim :=
  ⟨fun _ _ _ hdue hset hl => generationBump_effect hdue hset hl, fun _ _ _ hy hst hsafe hbusy => slotReclaim_effect hy hst hsafe hbusy⟩

end

end Sys2Proof.Proofs
end

section
/-! # Residency and preparation of keys (R31, R127 to R129, R174, R261) -/

namespace Sys2Proof.Proofs

open Sys2Proof Sys2Proof.Machine Sys2Proof.Claims

section
variable {s : State} {h x u v r : Nat} {c : Ctx}

/-! ## Residency -/

/-- A list below its bound has room as it is. -/
theorem makeRoom_of_lt {α : Type} {f : α → Nat} {n : Nat} {l : List α} (hl : l.length < n) : s.makeRoom f n l = some l := by
  rw [State.makeRoom, if_pos hl]

/-- In a full list the first entry that nothing names gives way. -/
theorem makeRoom_of_le {α : Type} {f : α → Nat} {n : Nat} {l : List α} (hl : n ≤ l.length)
    (hfree : ∃ k ∈ l, s.named (f k) = false) :
    s.makeRoom f n l = some (l.eraseP fun k => !s.named (f k)) := by
  have hany : (l.any fun k => !s.named (f k)) = true := by simpa using hfree
  rw [State.makeRoom, if_neg (by omega), if_pos hany]

/-- A key that an operation awaits in a region that serves: its vault record decides once the list has room. -/
theorem execKeyResidency_served {l : List Residency} (hr : r < 4) (hlive : (s.liveKey h).isSome = true) (hserv : s.serving = true)
    (hreg : s.regionRetired r = false) (hres : s.residentIn r h = false) (hawait : s.awaited h = true)
    (hdraw : s.drawState r = .serves) (hroom : s.makeRoom Residency.handle 4096 (s.keys.resident.getD r []) = some l) :
    let m := s.secretOf h
    let t := (s.drawFrom r m.length).2
    (s.vaultAlarm h = none → Gives (.keyResidency h r) s { t with keys := { t.keys with
      resident := t.keys.resident.put r (l ++ [Residency.split h (drawBytes s.free m.length) m]) } }) ∧
    (∀ e, s.vaultAlarm h = some e → Gives (.keyResidency h r) s (s.alarm 4 e)) := by
  have hnone : (s.liveKey h).isNone = false := by rw [← Option.not_isSome, hlive]; rfl
  refine ⟨fun hv => ?_, fun e hv => ?_⟩ <;> show execKeyResidency h r s = _ <;>
    rw [execKeyResidency, if_neg (by omega), if_neg (by simp [hnone, hserv, hreg, hres, hawait])]
  · simp only [hdraw, hroom, hv]
    rfl
  · simp only [hdraw, hroom, hv]

/-! ## Units of a preparation -/

/-- Freeing the unit of a job changes units and cores. -/
theorem freeJob_frame (s : State) (u : Nat) (j : Job) : ∃ y k, s.freeJob u j = { s with units := y, cores := k } := by
  unfold State.freeJob State.endUnit State.clearSheet
  repeat' split
  all_goals exact ⟨_, _, rfl⟩

/-- The unit of a preparation takes its job. -/
theorem unitSt_startJob (s : State) (u : Nat) (j : Job) (ticks set : Nat) (f : List Build → List Build) :
    (((s.startJob u j ticks set).setPreps f).unitSt u).job = j ∧
    (((s.startJob u j ticks set).setPreps f).unitSt u).ends = s.now + ticks := by
  have h : ((s.startJob u j ticks set).setPreps f).unitSt u = (s.unitSt u).takes j (s.now + ticks) set :=
    State.unitSt_setUnit s u fun y => y.takes j (s.now + ticks) set
  rw [h]
  exact ⟨rfl, rfl⟩

/-! ## Preparation -/

theorem execKeyPreparation_eq {ok : Bool} (hu : u < 104) : exec (.keyPreparation h x u ok) s = .next (s.prepOn h x u ok) :=
  if_neg (by omega)

/-- A preparation begins on a free sheet. -/
theorem beginPrep_free {l : List Nat} (hkind : unitKind u = 0) (hfree : s.unitFree u = true)
    (hreg : s.meetsR19 (unitRegion u) 0 = true) (hres : s.residentIn (unitRegion u) h = true)
    (hroom : s.makeRoom id (32704 - s.keys.preps.length) s.keys.prepared = some l)
    (hbench : s.benchFirst u (s.prepTicks h) (s.prepSet h) = none) :
    s.beginPrep h u = (({ s with keys := { s.keys with prepared := l } }).startJob u (.prepare h false) (s.prepTicks h)
      (s.prepSet h)).setPreps fun ps =>
        ps ++ [({ id := h, level := 0, unit := u, check := none, ends := s.now + s.prepTicks h, left := [] } : Build)] := by
  simp only [State.beginPrep]
  rw [if_neg (by simp [hkind, hfree, hreg, hres])]
  simp only [hroom, hbench]

/-- The partner's recomputation begins on another free sheet of the region. -/
theorem checkPrep_free {b : Build} (hreg : s.meetsR19 (unitRegion b.unit) 0 = true) (hsame : unitRegion u = unitRegion b.unit)
    (hkind : unitKind u = 0) (hne : u ≠ b.unit) (hfree : s.unitFree u = true) (hpass : s.passedOver u b.unit = false)
    (hbench : s.benchFirst u (s.prepTicks b.id) (s.prepSet b.id) = none) :
    s.checkPrep u b = ((s.freeJob b.unit (.prepare b.id false)).startJob u (.prepare b.id true) (s.prepTicks b.id)
      (s.prepSet b.id)).setPreps fun ps =>
        ps.map fun y => if y.id = b.id then { y with check := some u, ends := s.now + s.prepTicks b.id } else y := by
  simp only [State.checkPrep, hreg]
  rw [if_neg (by simp), if_neg (by simp [hsame, hkind, hne, hfree, hpass])]
  simp only [hbench]

/-- An undecided operation asks for the preparation of a live key that it names. -/
structure Asks (s : State) (x h : Nat) (c : Ctx) : Prop where
  found : s.ctxs.find x = some c
  serves : s.serving = true
  settled : s.unsettled = false
  undecided : c.phase.decided = false
  named : h ∈ c.names
  live : (s.liveKey h).isSome = true

/-- A lattice key that is not in the cache. -/
structure Unprepared (s : State) (h : Nat) : Prop where
  noMce : mceSet (s.policyOfKey h).param = false
  lattice : latticeSet (s.policyOfKey h).param = true
  absent : h ∉ s.keys.prepared

section
variable {ok : Bool} {b : Build}

theorem Asks.passes (ha : Asks s x h c) : ¬ (!s.serving || s.unsettled || c.phase.decided || !c.names.contains h ||
    (s.liveKey h).isNone) = true := by
  have hnone : (s.liveKey h).isNone = false := by rw [← Option.not_isSome, ha.live]; rfl
  simp [ha.serves, ha.settled, ha.undecided, ha.named, hnone]

theorem prepOn_mce (ha : Asks s x h c) (hmce : mceSet (s.policyOfKey h).param = true) (hready : s.keyReady c h = false) :
    s.prepOn h x u ok = s.loadMce h := by
  simp only [State.prepOn, ha.found]
  rw [if_neg ha.passes, if_pos hmce, if_neg (by simp [hready])]

theorem Unprepared.due (hn : Unprepared s h) :
    ¬ (!latticeSet (s.policyOfKey h).param || s.keys.prepared.contains h) = true := by
  simp [hn.lattice, hn.absent]

theorem prepOn_begin (ha : Asks s x h c) (hn : Unprepared s h) (hb : s.keys.preps.find? (·.id == h) = none) :
    s.prepOn h x u ok = s.beginPrep h u := by
  simp only [State.prepOn, ha.found]
  rw [if_neg ha.passes, if_neg (by simp [hn.noMce]), if_neg hn.due, hb]

theorem prepOn_check (ha : Asks s x h c) (hn : Unprepared s h) (hb : s.keys.preps.find? (·.id == h) = some b)
    (hend : b.ends ≤ s.now) (hcheck : b.check = none) : s.prepOn h x u ok = s.checkPrep u b := by
  simp only [State.prepOn, ha.found]
  rw [if_neg ha.passes, if_neg (by simp [hn.noMce]), if_neg hn.due, hb]
  simp only [if_neg (Nat.not_lt.mpr hend), hcheck]

theorem prepOn_end (ha : Asks s x h c) (hn : Unprepared s h) (hb : s.keys.preps.find? (·.id == h) = some b)
    (hend : b.ends ≤ s.now) (hcheck : b.check = some v) : s.prepOn h x u ok = s.endPrep v b ok := by
  simp only [State.prepOn, ha.found]
  rw [if_neg ha.passes, if_neg (by simp [hn.noMce]), if_neg hn.due, hb]
  simp only [if_neg (Nat.not_lt.mpr hend), hcheck]

end

/-- A preparation whose check agrees puts the key into the cache, if it has room. -/
theorem endPrep_true (s : State) (v : Nat) (b : Build) :
    (s.endPrep v b true).keys.prepared =
      (if s.keys.prepared.length < 32704 then s.keys.prepared ++ [b.id] else s.keys.prepared) ∧
    (s.endPrep v b true).keys.preps = s.keys.preps.filter fun y => y.id ≠ b.id := by
  obtain ⟨y, k, hf⟩ := freeJob_frame s v (.prepare b.id true)
  simp only [State.endPrep, hf, if_true]
  split <;> rename_i hroom
  · exact ⟨(if_pos hroom).symm, rfl⟩
  · exact ⟨(if_neg hroom).symm, rfl⟩

/-- A preparation whose check disagrees charges both sheets. -/
theorem endPrep_false (s : State) (v : Nat) (b : Build) :
    (s.endPrep v b false).keys.prepared = s.keys.prepared ∧
    (s.endPrep v b false).keys.preps = (s.keys.preps.filter fun y => y.id ≠ b.id) ∧
    (s.endPrep v b false).integ.transients = min (min (s.integ.transients + 1) (2 ^ 32 - 1) + 1) (2 ^ 32 - 1) := by
  obtain ⟨y, k, hf⟩ := freeJob_frame s v (.prepare b.id true)
  obtain ⟨z, e, g, l, hch⟩ := charge_both_frame ((s.freeJob v (.prepare b.id true)).setPreps (·.filter (·.id ≠ b.id))) b.unit v 1
  have he : s.endPrep v b false =
      ((((s.freeJob v (.prepare b.id true)).setPreps (·.filter (·.id ≠ b.id))).charge b.unit 1).charge v 1) := rfl
  rw [he, hch, hf]
  exact ⟨rfl, rfl, rfl⟩

theorem keyResidencyAndPreparation : Claims.KeyResidencyAndPreparation := by
  refine ⟨fun h r s hr hlive hst hsafe hreg hres hawait hdraw => ?_,
    fun h x u s c hu hc hst hsafe hset hdec hname hlive => ?_⟩
  · intro l m t with'
    have hserved := fun {l'} => execKeyResidency_served (l := l') hr hlive (serving_of_stage hst hsafe) hreg hres hawait hdraw
    exact ⟨fun hl hv => (hserved (makeRoom_of_lt hl)).1 hv, fun hl hfree hv => (hserved (makeRoom_of_le hl hfree)).1 hv,
      fun e hl hv => (hserved (makeRoom_of_lt hl)).2 e hv⟩
  have ha : Asks s x h c := ⟨hc, serving_of_stage hst hsafe, hset, hdec, hname, hlive⟩
  refine ⟨fun hmce hready ok l hroom => ?_, fun hmce hlat hprep => ?_⟩
  · rw [Gives, execKeyPreparation_eq hu, prepOn_mce ha hmce hready, State.loadMce, hroom]
  · intro set ticks
    have hn : Unprepared s h := ⟨hmce, hlat, hprep⟩
    refine ⟨fun ok l hnew hkind hfree hreg hres hroom hbench => ?_,
      fun ok b hb hend hcheck hreg hsame hkind hne hfree hpass hbench => ?_, fun b v hb hend hcheck => ?_⟩
    · have hnone : s.keys.preps.find? (·.id == h) = none := by simpa using hnew
      refine ⟨_, execKeyPreparation_eq hu, ?_⟩
      rw [prepOn_begin ha hn hnone, beginPrep_free hkind hfree hreg hres hroom hbench]
      exact ⟨(unitSt_startJob ..).1, (unitSt_startJob ..).2, rfl⟩
    · obtain rfl : b.id = h := by simpa using List.find?_some hb
      obtain ⟨y, k, hf⟩ := freeJob_frame s b.unit (.prepare b.id false)
      refine ⟨_, execKeyPreparation_eq hu, ?_⟩
      rw [prepOn_check ha hn hb hend hcheck, checkPrep_free hreg hsame hkind hne hfree hpass hbench, hf]
      exact ⟨(unitSt_startJob ..).1, (unitSt_startJob ..).2, rfl⟩
    · obtain rfl : b.id = h := by simpa using List.find?_some hb
      refine ⟨⟨_, execKeyPreparation_eq hu, ?_⟩, _, execKeyPreparation_eq hu, ?_⟩
      · rw [prepOn_end ha hn hb hend hcheck]
        exact endPrep_true s v b
      · rw [prepOn_end ha hn hb hend hcheck]
        exact endPrep_false s v b

end

/-- Settles O53: a residency and a preparation by the order of their tests; a bump from the invariant that ending commands
frees no key and ends or keeps every packet. -/
theorem keyStoreEvents : Obligations.KeyStoreEvents := ⟨keyResidencyAndPreparation, bumpsAndReclaim⟩

end Sys2Proof.Proofs
end

section
/-! # The comparison of a slab with its mirror (R224, R243, R358) -/

namespace Sys2Proof.Proofs

open Sys2Proof Sys2Proof.Machine Sys2Proof.Claims

section
variable {s : State} {x k u cu l v m key : Nat} {c : Ctx} {p : Part}

/-! ## Lanes -/

/-- The update of one lane leaves the others. -/
theorem lane_setLane_ne {f : Lane → Lane} (h : v ≠ u ∨ m ≠ l) :
    ((s.setLane u l f).unitSt v).lane m = (s.unitSt v).lane m := by
  by_cases hv : v = u
  · subst hv
    have hm : m ≠ l := h.resolve_left (fun hn => hn rfl)
    rw [State.setLane, State.unitSt_setUnit]
    exact Tab.getD_put_ne _ _ _ hm
  · rw [State.setLane, State.unitSt_setUnit_ne s _ hv]

/-- A stream's context is resident on no lane. -/
def Unseated (s : State) (key : Nat) : Prop := ∀ v m, ((s.unitSt v).lane m).resident ≠ some key

theorem unseated_congr {t : State} (h : t.units = s.units) (hs : Unseated s key) : Unseated t key := fun v m => by
  rw [State.unitSt, h]
  exact hs v m

theorem unseated_unseat (s : State) (key : Nat) : Unseated (s.unseat key) key := by
  intro v m
  cases hv : s.units.find v with
  | none => simp [State.unseat, State.unitSt, Tab.getD, Tab.find_mapVals, hv, UnitSt.lane, UnitSt.reset, Lane.reset]
  | some y =>
    cases hm : y.lanes.find m with
    | none => simp [State.unseat, State.unitSt, Tab.getD, Tab.find_mapVals, hv, UnitSt.lane, hm, Lane.reset]
    | some z =>
      have hz : (if z.resident = some key then { z with resident := none, key := [], chain := [] } else z).resident ≠ some key := by
        split
        · exact (Option.some_ne_none key).symm
        · assumption
      simpa [State.unseat, State.unitSt, Tab.getD, Tab.find_mapVals, hv, UnitSt.lane, hm] using hz

/-- The save of a lane takes the context off it. -/
theorem unseated_saveLane (h : ∀ v m, v ≠ u ∨ m ≠ l → ((s.unitSt v).lane m).resident ≠ some key) :
    Unseated (s.saveLane u l) key := by
  intro v m
  unfold State.saveLane
  dsimp only
  by_cases hvm : v ≠ u ∨ m ≠ l
  · split
    · exact h v m hvm
    · rw [lane_setLane_ne hvm]
      exact h v m hvm
  · obtain ⟨rfl, rfl⟩ : v = u ∧ m = l := by tauto
    split <;> rename_i hres
    · rw [hres]
      exact (Option.some_ne_none key).symm
    · rw [State.lane_setLane]
      exact (Option.some_ne_none key).symm

theorem unseated_dropCheckpoint (h : Unseated s key) : Unseated (s.dropCheckpoint x u l) key := by
  intro v m
  by_cases hvm : v ≠ u ∨ m ≠ l
  · rw [State.dropCheckpoint, lane_setLane_ne hvm]
    exact h v m
  · obtain ⟨rfl, rfl⟩ : v = u ∧ m = l := by tauto
    rw [State.dropCheckpoint, State.lane_setLane]
    exact h v m

/-! ## Back to the checkpoint -/

theorem discardLater_frame (s : State) (c : Ctx) : ∃ y, s.discardLater c = { s with ctxs := y } := by
  unfold State.discardLater
  split <;> exact ⟨_, rfl⟩

/-- The discard of the later slabs of a stream leaves the command itself. -/
theorem find_discardLater (h : s.ctxs.find x = some c) : (s.discardLater c).ctxs.find x = some c := by
  unfold State.discardLater
  split
  · exact h
  · rw [Tab.find_mapVals, h]
    simp

/-- A lane that holds the checkpoint of a slab again, and no other lane holds the stream. -/
def reseated (s : State) (x u l : Nat) (c : Ctx) : State :=
  (s.unseat (c.laneKey x)).setLane u l fun z => { z with
    resident := some (c.laneKey x), key := (s.unseat (c.laneKey x)).laneKeyReg c
    chain := ((s.unitSt u).lane l).checkpoint.getD x [] }

theorem toCheckpoint_eq (s : State) (x u l : Nat) (c : Ctx) :
    s.toCheckpoint x u l c = (((reseated s x u l c).saveLane u l).dropCheckpoint x u l).discardLater c := rfl

theorem toCheckpoint_frame (s : State) (x u l : Nat) (c : Ctx) : ∃ k q y z, s.toCheckpoint x u l c =
    { s with keys := k, queues := q, units := y, ctxs := z } := by
  obtain ⟨k, q, y, hs⟩ := (reseated s x u l c).saveLane_frame u l
  obtain ⟨z, hd⟩ := discardLater_frame (((reseated s x u l c).saveLane u l).dropCheckpoint x u l) c
  rw [toCheckpoint_eq, hd, hs]
  exact ⟨_, _, _, _, rfl⟩

theorem find_toCheckpoint (h : s.ctxs.find x = some c) : (s.toCheckpoint x u l c).ctxs.find x = some c := by
  obtain ⟨k, q, y, hs⟩ := (reseated s x u l c).saveLane_frame u l
  rw [toCheckpoint_eq]
  refine find_discardLater ?_
  rw [hs]
  exact h

/-- A discarded slab's context is off every lane. -/
theorem unseated_toCheckpoint (s : State) (x u l : Nat) (c : Ctx) : Unseated (s.toCheckpoint x u l c) (c.laneKey x) := by
  have hsave : Unseated ((reseated s x u l c).saveLane u l) (c.laneKey x) := unseated_saveLane fun v m hvm => by
    rw [reseated, lane_setLane_ne hvm]
    exact unseated_unseat s _ v m
  obtain ⟨y, hd⟩ := discardLater_frame (((reseated s x u l c).saveLane u l).dropCheckpoint x u l) c
  rw [toCheckpoint_eq, hd]
  exact unseated_dropCheckpoint hsave

/-! ## The verdict -/

/-- What SLAB_COMPLETE does with the first slab whose last tick has ended. -/
theorem slabComplete_eq (h : s.ctxs.find x = some c) (hrun : c.phase = .running) (hbehind : s.compareBehind c = false)
    (hk : FirstPart c (fun q => q.slab = true ∧ q.phase = .running ∧ q.ends + 1 ≤ s.now) k p) (hu : p.unit = some u)
    (hcu : p.checkUnit = some cu) (ok : Bool) : exec (.slabComplete x ok) s = .next (
      if ok then (((s.freeLanes x p).dropCheckpoint x u p.lane).setCtx x fun d =>
        { d with parts := d.parts.set k { p with phase := .passed }, progress := s.now }).settle x
      else (s.freeLanes x p).mirrorFailed x k u p.lane cu c) := by
  have hi : firstIdx (fun q => q.slab && decide (q.phase = .running) && decide (q.ends + 1 ≤ s.now)) c.parts = some k :=
    firstIdx_of_firstPart (fun q => by simp [and_assoc]) hk
  have hn : (s.freeLanes x p).now = s.now := by rw [State.freeLanes, hu, hcu]; rfl
  show execSlabComplete x ok s = _
  rw [execSlabComplete, h]
  dsimp only
  rw [if_neg (by simp [hrun, hbehind])]
  simp only [hi, hk.1, hu, hcu]
  cases ok with
  | true => rw [← hn]; rfl
  | false => rfl

/-- A failed comparison charges both pipes, counts a stream error and brings the checkpoint back; the slab is withheld. -/
theorem mirrorFailed_effect (h : s.ctxs.find x = some c) (hrun : c.phase = .running) (hb : c.batch = false)
    (hk : c.parts[k]? = some p) : ∃ d, (s.mirrorFailed x k u l cu c).ctxs.find x = some d ∧
      (s.mirrorFailed x k u l cu c).integ.transients = min (min (s.integ.transients + 1) (2 ^ 32 - 1) + 1) (2 ^ 32 - 1) ∧
      (s.mirrorFailed x k u l cu c).integ.mirrorFail.getD (unitRegion u) 0 = min (s.integ.mirrorFail.getD (unitRegion u) 0 + 1) 65535 ∧
      Unseated (s.mirrorFailed x k u l cu c) (c.laneKey x) ∧
      (c.drop = false → p.retries < 2 → d.parts = c.parts.set k { p with phase := .withheld, left := [] } ∧ d.result = none) := by
  obtain ⟨y, e, ho, lo, hcharge⟩ := charge_both_frame s u cu 1
  set b : State := { (s.charge u 1).charge cu 1 with integ := { ((s.charge u 1).charge cu 1).integ with
    mirrorFail := ((s.charge u 1).charge cu 1).integ.mirrorFail.putD (unitRegion u)
      (satAdd 16 (((s.charge u 1).charge cu 1).integ.mirrorFail.getD (unitRegion u) 0) 1) 0 } } with hbdef
  have hm : s.mirrorFailed x k u l cu c = (b.toCheckpoint x u l c).withhold x k := rfl
  have hbx : b.ctxs.find x = some c := by
    rw [hbdef, hcharge]
    exact h
  have hbi : b.integ.transients = min (min (s.integ.transients + 1) (2 ^ 32 - 1) + 1) (2 ^ 32 - 1) ∧
      b.integ.mirrorFail.getD (unitRegion u) 0 = min (s.integ.mirrorFail.getD (unitRegion u) 0 + 1) 65535 := by
    rw [hbdef, hcharge]
    exact ⟨rfl, Tab.getD_putD_same ..⟩
  obtain ⟨g, q, z, w, hcheck⟩ := toCheckpoint_frame b x u l c
  obtain ⟨d, hd, hheld, -, -⟩ := find_withhold (find_toCheckpoint (u := u) (l := l) hbx) hrun hb hk
  have hinteg : (s.mirrorFailed x k u l cu c).integ = b.integ := by
    rw [hm, withhold_integ, hcheck]
  have hunits : (s.mirrorFailed x k u l cu c).units = (b.toCheckpoint x u l c).units := by
    obtain ⟨_, _, _, _, _, _, _, hw⟩ := withhold_frame (b.toCheckpoint x u l c) x k
    rw [hm, hw]
  rw [hinteg]
  exact ⟨d, by rw [hm]; exact hd, hbi.1, hbi.2, unseated_congr hunits (unseated_toCheckpoint b x u l c), hheld⟩

theorem slabComparisons : Claims.SlabComparisons := by
  intro x k u cu s c p h hrun hbehind hk hu hcu freed f
  have hfree : s.freeLanes x p = f := by
    rw [State.freeLanes, hu, hcu]
  have hexec := slabComplete_eq h hrun hbehind hk hu hcu
  rw [hfree] at hexec
  refine ⟨?_, fun hb => ?_⟩
  · rw [Gives, hexec]
    exact congrArg (fun t : State => Host.Outcome.next (t.settle x)) (setCtx_partSet (s := f.dropCheckpoint x u p.lane) h)
  · obtain ⟨d, hd, htrans, hfail, hoff, hheld⟩ := mirrorFailed_effect (s := f) (u := u) (l := p.lane) (cu := cu) h hrun hb hk.1
    exact ⟨_, d, hexec false, hd, htrans, hfail, hoff, hheld⟩

end

end Sys2Proof.Proofs
end

section
/-! # The launch of a slab with its mirror (R20, R221 to R225, R236, R241, R448) -/

namespace Sys2Proof.Proofs

open Sys2Proof Sys2Proof.Machine Sys2Proof.Claims

section
variable {s t : State} {x u cu l cl key ticks n sw base set r : Nat} {c d : Ctx} {p : Part} {first : Bool}

/-! ## A slab on its lanes -/

/-- The context of another stream is saved off a lane. -/
def otherSaved (s : State) (u l key : Nat) : State :=
  if decide (s.residentKey ((s.unitSt u).lane l) = some key) || (s.residentKey ((s.unitSt u).lane l)).isNone then s
  else s.saveLane u l

/-- A stream's own context is saved off another lane. -/
def ownSaved (s : State) (u l key : Nat) : State :=
  match s.laneOf key with
  | some (v, m) => if v = u ∧ m = l then s else s.saveLane v m
  | none => s

theorem otherSaved_frame (s : State) (u l key : Nat) : ∃ k q y, otherSaved s u l key = { s with keys := k, queues := q, units := y } := by
  unfold otherSaved
  split
  · exact ⟨_, _, _, rfl⟩
  · exact s.saveLane_frame u l

theorem ownSaved_frame (s : State) (u l key : Nat) : ∃ k q y, ownSaved s u l key = { s with keys := k, queues := q, units := y } := by
  unfold ownSaved
  split
  · split
    · exact ⟨_, _, _, rfl⟩
    · exact s.saveLane_frame ..
  · exact ⟨_, _, _, rfl⟩

/-- A stream takes its seat once the contexts in its way are saved. -/
theorem seatStream_eq (s : State) (x u l key ends n : Nat) (c : Ctx) : ∃ f : Lane → Lane,
    s.seatStream x u l key ends n c = ((ownSaved (otherSaved s u l key) u l key).unseat key).setLane u l f ∧
    ∀ y, (f y).busy = some x ∧ (f y).ends = ends ∧ (f y).resident = some key := by
  unfold State.seatStream ownSaved otherSaved
  refine ⟨_, rfl, fun _ => ?_⟩
  exact ⟨rfl, rfl, rfl⟩

/-- The seat of a stream changes the save counter, streams and units; its lane then runs the slab. -/
theorem seatStream_frame (s : State) (x u l key ends n : Nat) (c : Ctx) :
    (∃ k q y, s.seatStream x u l key ends n c = { s with keys := k, queues := q, units := y }) ∧
    (((s.seatStream x u l key ends n c).unitSt u).lane l).busy = some x ∧
    (((s.seatStream x u l key ends n c).unitSt u).lane l).ends = ends ∧
    (((s.seatStream x u l key ends n c).unitSt u).lane l).resident = some key := by
  obtain ⟨f, hs, hf⟩ := seatStream_eq s x u l key ends n c
  obtain ⟨k, q, y, hother⟩ := otherSaved_frame s u l key
  obtain ⟨k', q', y', hown⟩ := ownSaved_frame (otherSaved s u l key) u l key
  rw [hs, State.lane_setLane]
  refine ⟨?_, hf _⟩
  rw [hown, hother]
  exact ⟨_, _, _, rfl⟩

/-- A unit that takes a set keeps its lanes. -/
theorem lane_takes (s : State) (u v m p : Nat) :
    ((s.setUnit u fun y => y.takes y.job y.ends p).unitSt v).lane m = (s.unitSt v).lane m := by
  by_cases h : v = u
  · subst h
    rw [State.unitSt_setUnit]
    rfl
  · rw [State.unitSt_setUnit_ne s _ h]

/-- The pipes of a slab take its set, and the mirror its check lane. -/
def mirrored (s : State) (x u cu cl ticks set : Nat) : State :=
  ((s.setUnit u fun y => y.takes y.job y.ends set).setUnit cu fun y => y.takes y.job y.ends set).setLane cu cl fun y =>
    { y with resident := none, busy := some x, ends := s.now + ticks, reserved := false, used := s.now }

/-- The work lane is as it was, and the check lane runs the mirror. -/
theorem mirrored_lanes (s : State) (x l cl ticks set : Nat) (h : cu ≠ u) :
    ((mirrored s x u cu cl ticks set).unitSt u).lane l = (s.unitSt u).lane l ∧
    (((mirrored s x u cu cl ticks set).unitSt cu).lane cl).busy = some x ∧
    (((mirrored s x u cu cl ticks set).unitSt cu).lane cl).ends = s.now + ticks := by
  unfold mirrored
  rw [lane_setLane_ne (.inl h.symm), lane_takes, lane_takes, State.lane_setLane]
  exact ⟨rfl, rfl, rfl⟩

theorem unitSt_setInteg (s : State) (g : Integrity) (v : Nat) : ({ s with integ := g } : State).unitSt v = s.unitSt v := rfl

/-- The part of a slab that starts. -/
def runningSlab (p : Part) (u l cu cl ends : Nat) (hatched : Bool) : Part :=
  { p with
    phase := .running, unit := some u, lane := l, checkUnit := some cu, checkLane := cl, ends := ends, left := []
    hatched := hatched }

/-- The launched command of a slab. -/
def slabStarted (c : Ctx) (parts : List Part) (r now : Nat) (shares : List Residency) : Ctx :=
  { c with parts := parts, phase := .running, region := r, progress := now, result := none, waitFrom := none, shares := shares }

/-- A slab takes its seat and its mirror; a counter apart, its command alone changes beside. -/
theorem placeSlab_eq {k : Option Nat} (h : s.ctxs.find x = some c) : ∃ g f, ∃ hatched rest now,
    let b := s.seatStream x u l key (s.now + ticks) n { c with shares := s.takeShares c (unitRegion u) }
    s.placeSlab x u l cu cl key ticks n sw p k = ({ mirrored b x u cu cl ticks p.fam with integ := g }).setCtx x f ∧
    f c = slabStarted c (runningSlab p u l cu cl (s.now + ticks) hatched :: rest) (unitRegion u) now (s.takeShares c (unitRegion u)) := by
  simp only [State.placeSlab, h]
  exact ⟨_, _, _, _, _, rfl, rfl⟩

/-- A placed slab runs on its lanes and stands first of its command's parts. -/
theorem placeSlab_runs {k : Option Nat} (h : s.ctxs.find x = some c) (hcu : cu ≠ u) (hslab : p.slab = true) :
    SlabOn (s.placeSlab x u l cu cl key ticks n sw p k) x u l cu cl key (s.now + ticks) ∧
    ∃ d q rest, (s.placeSlab x u l cu cl key ticks n sw p k).ctxs.find x = some d ∧ d.launchV = c.launchV ∧
      d.launchTick = c.launchTick ∧ d.parts = q :: rest ∧ q.retries = p.retries := by
  obtain ⟨g, f, hatched, rest, now, hplace, hf⟩ := placeSlab_eq (u := u) (l := l) (cu := cu) (cl := cl) (key := key)
    (ticks := ticks) (n := n) (sw := sw) (p := p) (k := k) h
  obtain ⟨⟨w, q, y, hseat⟩, hbusy, hends, hres⟩ :=
    seatStream_frame s x u l key (s.now + ticks) n { c with shares := s.takeShares c (unitRegion u) }
  set b := s.seatStream x u l key (s.now + ticks) n { c with shares := s.takeShares c (unitRegion u) }
  obtain ⟨hwork, hcheck, hcends⟩ := mirrored_lanes b x l cl ticks p.fam hcu
  have hnow : b.now = s.now := by rw [hseat]
  have hb : b.ctxs.find x = some c := by
    rw [hseat]
    exact h
  have hfind := find_setCtx_some (s := { mirrored b x u cu cl ticks p.fam with integ := g }) (f := f) hb
  rw [hf, ← hplace] at hfind
  have hunit : ∀ v, (s.placeSlab x u l cu cl key ticks n sw p k).unitSt v = (mirrored b x u cu cl ticks p.fam).unitSt v := fun v => by
    rw [hplace, unitSt_setCtx, unitSt_setInteg]
  refine ⟨⟨?_, ?_, ?_, ?_, ?_, _, _, _, hfind, rfl, rfl, rfl, hslab, rfl, rfl, rfl, rfl, rfl, rfl⟩,
    _, _, _, hfind, rfl, rfl, rfl, rfl⟩
  · rw [hunit, hwork, hbusy]
  · rw [hunit, hwork, hends]
  · rw [hunit, hwork, hres]
  · rw [hunit, hcheck]
  · rw [hunit, hcends, hnow]

/-! ## The launch on the lanes named -/

theorem ne_of_mirrorOk (h : s.mirrorOk u cu cl = true) : cu ≠ u := by
  simp only [State.mirrorOk, Bool.and_eq_true, bne_iff_ne] at h
  obtain ⟨⟨⟨⟨⟨⟨hne, -⟩, -⟩, -⟩, -⟩, -⟩, -⟩ := h
  exact hne

/-- On lanes that take it a slab goes on to its launch. -/
theorem trySlab_taken {go : Nat → Nat → State}
    (h : LanesTake s x u l cu cl c p.kind base set first (if p.phase = .withheld then p.unit else none)) :
    s.trySlab x u l cu cl c p base set first go =
      go (base + s.switchTick ((s.unitSt u).lane l) (c.laneKey x) first) (s.switchTick ((s.unitSt u).lane l) (c.laneKey x) first) := by
  have hpair : (!(decide (l < 4) && unitKind u == p.kind && s.pipeOpen u && s.mirrorOk u cu cl)) = false := by
    simp [h.lane, h.sameKind, h.opened, h.mirror]
  simp only [State.trySlab]
  rw [if_neg (by simp [hpair]), h.benchU]
  dsimp only
  rw [h.benchC]
  dsimp only
  rw [h.placed, h.restores]
  rfl

/-- SLAB_LAUNCH with the turn moves the turns beside its effect. -/
theorem gives_slabLaunch {avoid : Option Nat} {kind : Nat} (hc : s.ctxs.find x = some c)
    (h : LanesTake s x u l cu cl c kind base set first avoid) :
    ∃ turns, Gives (.slabLaunch x u l cu cl) s { s.slabOn x u l cu cl with turns := turns } := by
  obtain ⟨turns, ht⟩ := cmdTurn_served hc h.turn (s.slabOn x u l cu cl)
  refine ⟨turns, ?_⟩
  obtain ⟨hu, hcu⟩ := h.units
  show execSlabLaunch x u l cu cl s = _
  rw [execSlabLaunch, if_neg (by omega), ht]

/-- A region that meets R19 is one of the four. -/
theorem anyR19_of_meets {kind : Nat} (hu : u < 104) (h : s.meetsR19 (unitRegion u) kind = true) : s.anyR19 kind = true :=
  List.any_eq_true.mpr ⟨unitRegion u, List.mem_range.mpr (by unfold unitRegion; omega), h⟩

theorem slabHome_of_home {kind : Nat}
    (h : ∀ b, (if c.slabsPassed = 0 then (s.stream c.q c.stream).bind Stream.region else some c.region) = some b →
      b = r ∨ s.meetsR19 b kind = false) : s.slabHome c r kind = true := by
  by_cases hp : c.slabsPassed = 0
  · rw [if_pos hp] at h
    simp only [State.slabHome, if_pos hp]
    cases hs : s.stream c.q c.stream with
    | none => rfl
    | some e =>
      cases hb : e.region with
      | none => simp only [hb]
      | some b => simpa only [hb, Bool.or_eq_true, decide_eq_true_eq, Bool.not_eq_true'] using h b (by rw [hs]; exact hb)
  · rw [if_neg hp] at h
    simpa [State.slabHome, hp] using h c.region rfl

/-! ## The first slab of a command -/

theorem chargeKey_frame {op h : Nat} (hk : s.chargeKey op h = .ok t) : ∃ k, t = { s with keys := k } := by
  unfold State.chargeKey at hk
  repeat' split at hk
  all_goals cases hk
  all_goals exact ⟨_, rfl⟩

theorem chargeSlice_frame {op n : Nat} (hk : s.chargeSlice op n = .ok t) : ∃ y, t = { s with slices := y } := by
  unfold State.chargeSlice at hk
  dsimp only at hk
  repeat' split at hk
  all_goals cases hk
  all_goals exact ⟨_, rfl⟩

/-- The tests of keys and quotas charge slots and the slice. -/
theorem keyTests_frame (hk : s.keyTests c = .ok t) : ∃ k y, t = { s with keys := k, slices := y } := by
  unfold State.keyTests at hk
  split at hk
  · cases hk
  · split at hk
    · cases hk
    · split at hk
      · cases hk
      · rename_i s1 h1
        split at hk
        · cases hk
        · rename_i s2 h2
          obtain ⟨k1, rfl⟩ := chargeKey_frame h1
          obtain ⟨k2, rfl⟩ := chargeKey_frame h2
          obtain ⟨y, rfl⟩ := chargeSlice_frame hk
          exact ⟨_, _, rfl⟩

theorem reserve_frame {h slice limit : Nat} (hr : s.reserve slice limit = some (h, t)) : ∃ k, t = { s with keys := k } := by
  unfold State.reserve at hr
  repeat' split at hr
  all_goals cases hr
  all_goals exact ⟨_, rfl⟩

/-- The slot that a depositing command reserves stands in its context. -/
theorem reserveFor_frame (hr : s.reserveFor x c = some t) : ∃ k, t = { s with keys := k } ∨
    ∃ h, t = ({ s with keys := k }).setCtx x fun c => { c with reserved := some h } := by
  unfold State.reserveFor at hr
  repeat' split at hr
  all_goals cases hr
  · exact ⟨s.keys, .inl rfl⟩
  · exact ⟨s.keys, .inl rfl⟩
  · rename_i hres
    obtain ⟨k, rfl⟩ := reserve_frame hres
    exact ⟨k, .inr ⟨_, rfl⟩⟩

/-- A slab's gate changes the time no more than the datum, and its command's context is still there. -/
theorem slabGate_passed (hg : s.slabGate x c = .passed t) (hc : s.ctxs.find x = some c) :
    t.now = s.now ∧ t.datum = s.datum ∧ ∃ d, t.ctxs.find x = some d := by
  unfold State.slabGate at hg
  split at hg
  · cases hg
    exact ⟨rfl, rfl, c, hc⟩
  · split at hg
    · cases hg
    · rename_i t' ht
      obtain ⟨k, y, rfl⟩ := keyTests_frame ht
      split at hg
      · cases hg
      · split at hg
        · cases hg
        · rename_i hres
          cases hg
          obtain ⟨k', rfl | ⟨h, rfl⟩⟩ := reserveFor_frame hres
          · exact ⟨rfl, rfl, c, hc⟩
          · exact ⟨rfl, rfl, _, find_setCtx_some hc⟩

/-- The command of a first slab has LAUNCH of this boundary. -/
theorem find_markStream (h : s.ctxs.find x = some d) : ∃ e, (s.markStream x c r).ctxs.find x = some e ∧
    e.launchV = s.datum.v ∧ e.launchTick = s.now := by
  have hd : (s.setStream c.q c.stream fun e => { e with charged := true, region := some r }).ctxs.find x = some d := h
  exact ⟨_, find_setCtx_some hd, rfl, rfl⟩

theorem markStream_now (s : State) (x : Nat) (c : Ctx) (r : Nat) : (s.markStream x c r).now = s.now := rfl

/-- A drawn IV goes into the payload and leaves LAUNCH. -/
theorem find_takeIv (h : s.ctxs.find x = some d) : (s.takeIv x c r).now = s.now ∧
    ∃ e, (s.takeIv x c r).ctxs.find x = some e ∧ e.launchV = d.launchV ∧ e.launchTick = d.launchTick := by
  unfold State.takeIv
  split
  · exact ⟨rfl, d, h, rfl, rfl⟩
  · refine ⟨rfl, ?_⟩
    simp only [State.find_setCtx]
    refine ⟨_, congrArg (Option.map _) h, ?_⟩
    exact ⟨rfl, rfl⟩

/-- A first slab that passed its tests is placed with LAUNCH of this boundary. -/
theorem pipeSlab_runs (hu : u < 104) (hc : s.ctxs.find x = some c) (hgate : s.slabGate x c = .passed t)
    (hiv : s.drawsIv c = true → s.drawState (unitRegion u) = .serves)
    (hmeets : s.meetsR19 (unitRegion u) (slabKind c.opcode) = true) (hhome : s.slabHome c (unitRegion u) (slabKind c.opcode) = true)
    (hkeys : s.keysReady c (unitRegion u) = true) (hm : s.slabSteps c 0 = (n, set)) (hfirst : (c.firstSlab && !s.onKept c) = first)
    (htake : LanesTake s x u l cu cl c (slabKind c.opcode) (slabTicks n set) set first none) :
    SlabOn (s.pipeSlab x u l cu cl c) x u l cu cl (c.laneKey x)
      (s.now + (slabTicks n set + s.switchTick ((s.unitSt u).lane l) (c.laneKey x) first)) ∧
    ∃ d, (s.pipeSlab x u l cu cl c).ctxs.find x = some d ∧ d.launchV = s.datum.v ∧ d.launchTick = s.now := by
  have hserved : ∀ d : DrawState, d ≠ .serves → (s.drawsIv c && decide (s.drawState (unitRegion u) = d)) = false := by
    intro d hd
    cases h : s.drawsIv c with
    | false => rfl
    | true => simpa [hiv h] using hd.symm
  obtain ⟨hnow, hdatum, d, hd⟩ := slabGate_passed hgate hc
  obtain ⟨e, he, hev, het⟩ := find_markStream (c := c) (r := unitRegion u) hd
  obtain ⟨hivnow, f, hf, hfv, hft⟩ := find_takeIv (c := c) (r := unitRegion u) he
  have hslab : s.pipeSlab x u l cu cl c = s.trySlab x u l cu cl c (slabPart (slabKind c.opcode) set) (slabTicks n set) set first
      fun ticks sw => ((t.markStream x c (unitRegion u)).takeIv x c (unitRegion u)).placeSlab x u l cu cl (c.laneKey x) ticks
        c.slab sw (slabPart (slabKind c.opcode) set) none := by
    simp only [State.pipeSlab, anyR19_of_meets hu hmeets, hserved .failed DrawState.noConfusion,
      hserved .waits DrawState.noConfusion, hhome, hmeets, hkeys, hgate, hm, hfirst]
    rfl
  rw [hslab, trySlab_taken (p := slabPart (slabKind c.opcode) set) htake]
  obtain ⟨hon, g, q, rest, hg, hgv, hgt, -, -⟩ := placeSlab_runs (l := l) (cl := cl) (key := c.laneKey x) (n := c.slab)
    (ticks := slabTicks n set + s.switchTick ((s.unitSt u).lane l) (c.laneKey x) first)
    (sw := s.switchTick ((s.unitSt u).lane l) (c.laneKey x) first) (p := slabPart (slabKind c.opcode) set) (k := none) hf
    (ne_of_mirrorOk htake.mirror) rfl
  rw [hivnow, markStream_now, hnow] at hon
  exact ⟨hon, g, hg, by rw [hgv, hfv, hev, hdatum], by rw [hgt, hft, het, hnow]⟩

/-- The two ways to say that a number is not 0. -/
theorem bne_zero_eq_decide (n : Nat) : (n != 0) = decide (n ≠ 0) := by
  rw [decide_not]
  rfl

/-! ## A hash pass, and a slab of a launched command -/

/-- A hash pass is placed with LAUNCH of this boundary. -/
theorem serviceSlab_runs (hu : u < 104) (hc : s.ctxs.find x = some c) (hmeets : s.meetsR19 (unitRegion u) 2 = true)
    (hhome : s.slabHome c (unitRegion u) 2 = true) (hkeys : s.heldPasses c = 0 ∨ s.keysReady c (unitRegion u) = true)
    (hm : s.slabSteps c c.slabsPassed = (n, set)) (hfirst : (c.firstSlab || s.heldPasses c != 0) = first)
    (htake : LanesTake s x u l cu cl c 2 (slabTicks n set) set first none) :
    SlabOn (s.serviceSlab x u l cu cl c) x u l cu cl (c.laneKey x)
      (s.now + (slabTicks n set + s.switchTick ((s.unitSt u).lane l) (c.laneKey x) first)) ∧
    ∃ d, (s.serviceSlab x u l cu cl c).ctxs.find x = some d ∧ d.launchV = s.datum.v ∧ d.launchTick = s.now := by
  have hheld : (!(!(s.heldPasses c != 0) || s.keysReady c (unitRegion u))) = false := by
    rcases hkeys with h | h <;> simp [h]
  obtain ⟨e, he, hev, het⟩ := find_markStream (c := c) (r := unitRegion u) hc
  have hslab : s.serviceSlab x u l cu cl c = s.trySlab x u l cu cl c (slabPart 2 set) (slabTicks n set) set first fun ticks sw =>
      (s.markStream x c (unitRegion u)).placeSlab x u l cu cl (c.laneKey x) ticks
        (if s.heldPasses c != 0 then s.totalOf c else c.slab) sw (slabPart 2 set) none := by
    simp only [State.serviceSlab, anyR19_of_meets hu hmeets, hheld, hhome, hmeets, hm, hfirst]
    rfl
  rw [hslab, trySlab_taken (p := slabPart 2 set) htake]
  obtain ⟨hon, g, q, rest, hg, hgv, hgt, -, -⟩ := placeSlab_runs (l := l) (cl := cl) (key := c.laneKey x)
    (n := if s.heldPasses c != 0 then s.totalOf c else c.slab)
    (ticks := slabTicks n set + s.switchTick ((s.unitSt u).lane l) (c.laneKey x) first)
    (sw := s.switchTick ((s.unitSt u).lane l) (c.laneKey x) first) (p := slabPart 2 set) (k := none) he
    (ne_of_mirrorOk htake.mirror) rfl
  exact ⟨hon, g, hg, hgv.trans hev, hgt.trans het⟩

/-- A slab part that runs again, or for the first time. -/
def anotherRun (s : State) (p : Part) : Part :=
  { p with retries := if p.phase = .withheld then p.retries + 1 else p.retries, draw := s.free }

/-- A part of a plan takes its draw. -/
def drawnFor (s : State) (r n : Nat) : State := if n = 0 then s else (s.drawFrom r n).2

theorem drawnFor_same (s : State) (r n : Nat) : (drawnFor s r n).ctxs = s.ctxs ∧ (drawnFor s r n).now = s.now := by
  unfold drawnFor
  split <;> exact ⟨rfl, rfl⟩

/-- The slab of a launched command is placed and leaves LAUNCH. -/
theorem againSlab_runs {k : Nat} (hu : u < 104) (hc : s.ctxs.find x = some c) (hdue : slabDue c = some k) (hk : c.parts[k]? = some p)
    (hslab : p.slab = true) (hdraw : p.draws = 0 ∨ s.drawState (unitRegion u) = .serves) (hbehind : s.slabBehind c = false)
    (hmeets : s.meetsR19 (unitRegion u) p.kind = true) (hregion : unitRegion u = c.region ∨ s.meetsR19 c.region p.kind = false)
    (hkeys : s.keysReady c (unitRegion u) = true) (hother : p.phase = .withheld → p.unit ≠ some u)
    (hm : (if p.ticks = 0 then s.slabSteps c c.slabsPassed else (0, p.fam)) = (n, set))
    (hbase : (if p.ticks = 0 then slabTicks n set else p.ticks) = base)
    (hfirst : (decide (p.ticks ≠ 0) || decide (s.heldPasses c ≠ 0) || (c.firstSlab && !s.onKept c)) = first)
    (htake : LanesTake s x u l cu cl c p.kind base set first (if p.phase = .withheld then p.unit else none)) :
    SlabOn (s.againSlab x u l cu cl c) x u l cu cl (c.laneKey x)
      (s.now + (base + s.switchTick ((s.unitSt u).lane l) (c.laneKey x) first)) ∧
    ∃ d q rest, (s.againSlab x u l cu cl c).ctxs.find x = some d ∧ d.launchV = c.launchV ∧ d.parts = q :: rest ∧
      q.retries = (if p.phase = .withheld then p.retries + 1 else p.retries) := by
  obtain ⟨hctxs, hnow⟩ := drawnFor_same s (unitRegion u) p.draws
  have hgo : s.againSlab x u l cu cl c = s.trySlab x u l cu cl c (anotherRun s p) base set first fun ticks sw =>
      (drawnFor s (unitRegion u) p.draws).placeSlab x u l cu cl (c.laneKey x) ticks (if p.ticks ≠ 0 then 0 else c.slab) sw
        (anotherRun s p) (some k) := by
    have hnowait : ¬ (p.draws ≠ 0 ∧ s.drawState (unitRegion u) = .waits) := by
      rintro ⟨hn, hw⟩
      rcases hdraw with h | h
      · exact hn h
      · exact DrawState.noConfusion (h.symm.trans hw)
    have hwrong : ¬ (s.slabBehind c || !s.meetsR19 (unitRegion u) p.kind ||
        (decide (unitRegion u ≠ c.region) && s.meetsR19 c.region p.kind) || !s.keysReady c (unitRegion u) ||
        (decide (p.phase = .withheld) && p.unit == some u)) = true := by
      have hreg : (decide (unitRegion u ≠ c.region) && s.meetsR19 c.region p.kind) = false := by
        rcases hregion with h | h <;> simp [h]
      simpa only [hbehind, hmeets, hreg, hkeys, Bool.not_true, Bool.or_false, Bool.false_or, Bool.and_eq_true, decide_eq_true_eq,
        beq_iff_eq, not_and] using hother
    simp only [State.againSlab, hdue, hk]
    simp only [ne_eq, ite_not] at hfirst ⊢
    rw [hm]
    dsimp only
    rw [hbase]
    have hheld : (s.heldPasses c != 0) = decide (¬ s.heldPasses c = 0) := bne_zero_eq_decide _
    rw [if_neg (by simp [anyR19_of_meets hu hmeets]), if_neg (not_draw_failed hdraw), if_neg hwrong, hheld, hfirst]
    simp only [if_neg hnowait, decide_eq_true_eq]
    rfl
  rw [hgo, trySlab_taken (p := anotherRun s p) htake]
  obtain ⟨hon, d, q, rest, hd, hdv, -, hparts, hretries⟩ := placeSlab_runs (s := drawnFor s (unitRegion u) p.draws) (l := l)
    (cl := cl) (key := c.laneKey x) (n := if p.ticks ≠ 0 then 0 else c.slab)
    (ticks := base + s.switchTick ((s.unitSt u).lane l) (c.laneKey x) first)
    (sw := s.switchTick ((s.unitSt u).lane l) (c.laneKey x) first) (p := anotherRun s p) (k := some k)
    (by rw [hctxs]; exact hc) (ne_of_mirrorOk htake.mirror) hslab
  rw [hnow] at hon
  exact ⟨hon, d, q, rest, hd, hdv, hparts, hretries⟩

/-! ## SLAB_LAUNCH -/

/-- A waiting command that may run and has a slab to launch tries its pipes. -/
theorem slabOn_waiting {op : Nat} (h : MayRun s x op c) (hbehind : s.slabBehind c = false) (hwants : s.wantsSlab c = true) :
    s.slabOn x u l cu cl = if slabCommand c.opcode then s.pipeSlab x u l cu cl c else s.serviceSlab x u l cu cl c := by
  have hripe : s.ripeAny c = true := by
    simp [State.ripeAny, serving_of_stage h.ready h.safe, h.settled, h.waiting, h.accepted, h.free]
  simp only [State.slabOn, h.found]
  rw [if_pos h.waiting, if_neg (by simp [hripe, hwants, hbehind]), h.time]

/-- A launched command goes on with the slab that is due. -/
theorem slabOn_running (h : Under s x c) : s.slabOn x u l cu cl = s.againSlab x u l cu cl c := by
  simp only [State.slabOn, h.found]
  rw [if_neg (by simp [h.running]), if_pos (by simp [h.running, serving_of_under h, h.settled])]

theorem slabLaunches : Claims.SlabLaunches := by
  intro x u l cu cl s c r home sw
  refine ⟨?_, ?_, ?_⟩
  · intro t hrun hbehind hcmd hgate hiv hmeets hhome hkeys m first htake
    obtain ⟨turns, hgives⟩ := gives_slabLaunch hrun.found htake
    have hslab := slabOn_waiting (u := u) (l := l) (cu := cu) (cl := cl) hrun hbehind (if_pos hcmd)
    rw [if_pos hcmd] at hslab
    obtain ⟨hon, d, hd, hv, ht⟩ := pipeSlab_runs htake.units.1 hrun.found hgate hiv hmeets (slabHome_of_home hhome) hkeys rfl rfl
      htake
    rw [← hslab, ← Nat.add_assoc] at hon
    rw [← hslab] at hd
    exact ⟨_, d, hgives, hon, hd, hv, ht⟩
  · intro hrun hbehind hcmd hwants hmeets hhome hkeys m first htake
    obtain ⟨turns, hgives⟩ := gives_slabLaunch hrun.found htake
    have hslab := slabOn_waiting (u := u) (l := l) (cu := cu) (cl := cl) hrun hbehind hwants
    rw [if_neg (by simp [hcmd])] at hslab
    have hfirst : (c.firstSlab || s.heldPasses c != 0) = first := by rw [bne_zero_eq_decide]
    obtain ⟨hon, d, hd, hv, ht⟩ := serviceSlab_runs htake.units.1 hrun.found hmeets (slabHome_of_home hhome) hkeys rfl hfirst htake
    rw [← hslab, ← Nat.add_assoc] at hon
    rw [← hslab] at hd
    exact ⟨_, d, hgives, hon, hd, hv, ht⟩
  · intro k p hunder hdue hk hp hdraw hbehind hmeets hregion hkeys hother m base first htake
    obtain ⟨turns, hgives⟩ := gives_slabLaunch hunder.found htake
    have hbase : (if p.ticks = 0 then slabTicks m.1 m.2 else p.ticks) = base := rfl
    obtain ⟨hon, d, q, rest, hd, hv, hparts, hretries⟩ := againSlab_runs htake.units.1 hunder.found hdue hk hp hdraw hbehind
      hmeets hregion hkeys hother rfl hbase rfl htake
    rw [← slabOn_running hunder, ← Nat.add_assoc] at hon
    rw [← slabOn_running hunder] at hd
    exact ⟨_, d, q, rest, hgives, hon, hd, hv, hparts, hretries⟩

end

/-- Settles O51: on lanes that take it a slab is seated and mirrored; its comparison frees them, or brings its checkpoint back. -/
theorem slabs : Obligations.Slabs := ⟨slabLaunches, slabComparisons⟩

end Sys2Proof.Proofs
end

section
/-! # The machine at reset, and the test of a deadline (R37, R56, R58, R290, R446) -/

namespace Sys2Proof.Proofs

open Sys2Proof Sys2Proof.Machine Sys2Proof.Claims

/-! ## Reset -/

/-- Settles O26: each field is read off State.reset; an unlisted core is one at reset. -/
theorem resetState : Obligations.ResetState := by
  have hcore : ∀ c, State.reset.core c = Core.reset := fun _ => rfl
  have hx : ∀ r, Core.reset.gx r = 0 := fun r => by
    unfold Core.gx
    split <;> rfl
  refine ⟨rfl, rfl, rfl, rfl, rfl, rfl, rfl, by decide, rfl, rfl, rfl, rfl, rfl, rfl, rfl, rfl, rfl, rfl, fun c => ?_,
    fun _ => ⟨rfl, rfl, rfl⟩, fun _ => ⟨rfl, rfl⟩⟩
  rw [hcore]
  exact ⟨rfl, hx, rfl, rfl, rfl, rfl, rfl, rfl, rfl, rfl, rfl, fun _ => rfl, rfl, rfl⟩

/-! ## The deadline test -/

section
variable {s : State} {x o st : Nat} {c : Ctx}

theorem noDatumTest_iff (o : Nat) : noDatumTest o = true ↔ o ∈ [0x6003, 0x5002, 0x1A04, 0x4003, 0x4004] := List.contains_iff_mem

theorem deadlineTest_exempt (h : c.timeBound = false ∨ noDatumTest c.opcode = true) : s.deadlineTest c = none := by
  rcases h with h | h <;> simp [State.deadlineTest, h]

/-- A command under the test, over a datum that is not trusted. -/
theorem deadlineTest_untrusted (hb : c.timeBound = true) (hn : noDatumTest c.opcode = false) (hst : s.datum.st ≠ .trusted) :
    s.deadlineTest c = some 0x0701 := by
  simp [State.deadlineTest, hb, hn, State.trusted, hst]

theorem deadlineTest_early (hst : s.datum.st = .trusted) (hd : s.datum.v + s.unc < c.deadline) : s.deadlineTest c = none := by
  simp [State.deadlineTest, State.trusted, hst, hd]

theorem deadlineTest_missed (hb : c.timeBound = true) (hn : noDatumTest c.opcode = false) (hst : s.datum.st = .trusted)
    (hd : c.deadline ≤ s.datum.v + s.unc) : s.deadlineTest c = some 0x0402 := by
  simp [State.deadlineTest, hb, hn, State.trusted, hst, Nat.not_lt.mpr hd]

/-! ## Commands that a core executes -/

theorem ripe_of_atTurn (h : AtTurn s x o c) : s.ripe x o = some c := by
  rw [State.ripe_eq s x o c h.found]
  simp [serving_of_stage h.ready h.safe, h.settled, h.opcode, h.waiting, h.accepted, h.free]

/-- A command that may run does. -/
theorem runCore_mayRun (h : MayRun s x o c) (k : Ctx → State → State) : s.runCore x o k = k c s :=
  s.runCore_runs k (ripe_of_atTurn h.toAtTurn) h.time

theorem runVerified_refuses {early : Ctx → State → Option Nat} (h : s.ripe x o = some c) (hp : c.parts = [])
    (hd : s.deadlineTest c = some st) (k : Ctx → State → State) : s.runVerified x o early k = s.refuse x st := by
  simp only [State.runVerified, h, hp, List.isEmpty_nil, if_true, hd]

theorem begun_of_waiting (h : s.ctxs.find x = some c) (hw : c.phase = .waiting) (o : Nat) : s.begun x o = none := by
  simp [State.begun, h, hw]

theorem statefulKeygen_waiting (h : s.ctxs.find x = some c) (ho : c.opcode = o) (hw : c.phase = .waiting) :
    s.statefulKeygen x o = s.runCore x o fun c s => s.startStateful x c := by
  simp [State.statefulKeygen, h, ho, hw]

/-- Each command of a core runs behind its deadline test, so that it ends with the status that the test gives. -/
theorem coreCommand_refuses {i : Instr} (hi : coreCommand i = some (x, o)) (h : AtTurn s x o c)
    (hv : chiefVerifies o = true → c.parts = []) (hd : s.deadlineTest c = some st) : Gives i s (s.refuse x st) := by
  have hr := ripe_of_atTurn h
  have hcore : ∀ k, (Host.Outcome.next (s.runCore x o k) : Out) = .next (s.refuse x st) := fun k =>
    next_congr (s.runCore_refuses k hr hd)
  have hverified : chiefVerifies o = true → ∀ early k,
      (Host.Outcome.next (s.runVerified x o early k) : Out) = .next (s.refuse x st) := fun ho early k =>
    next_congr (runVerified_refuses hr (hv ho) hd k)
  unfold coreCommand at hi
  split at hi <;> cases hi
  case h_3 flashOk =>
    show execConfigCommit x flashOk s = _
    unfold execConfigCommit
    split
    · exact hverified rfl _ _
    · exact hcore _
  case h_11 | h_12 =>
    refine (next_congr (statefulKeygen_waiting h.found h.opcode h.waiting)).trans (hcore _)
  case h_18 | h_20 => exact hverified rfl _ _
  case h_26 =>
    show execSliceExport x s = _
    rw [execSliceExport, begun_of_waiting h.found h.waiting]
    exact hcore _
  case h_27 =>
    show execSliceImport x s = _
    rw [execSliceImport, begun_of_waiting h.found h.waiting]
    exact hcore _
  all_goals exact hcore _

theorem deadlineDecides : Claims.DeadlineDecides := by
  intro i x o hi s c h hv
  have htest : ∀ b, noDatumTest c.opcode = b ↔ noDatumTest o = b := fun b => by rw [h.opcode]
  have hno : o ∉ [0x6003, 0x5002, 0x1A04, 0x4003, 0x4004] → noDatumTest c.opcode = false := fun hn => by
    rw [htest, Bool.eq_false_iff, ne_eq, noDatumTest_iff]
    exact hn
  refine ⟨fun hb hn hst => ?_, fun hb hn hst hd => ?_, ?_⟩
  · exact coreCommand_refuses hi h hv (deadlineTest_untrusted hb (hno hn) hst)
  · exact coreCommand_refuses hi h hv (deadlineTest_missed hb (hno hn) hst hd)
  · rintro (hb | ho | ⟨hst, hd⟩)
    · exact deadlineTest_exempt (.inl hb)
    · exact deadlineTest_exempt (.inr ((htest true).mpr ((noDatumTest_iff o).mpr ho)))
    · exact deadlineTest_early hst hd

end

end Sys2Proof.Proofs
end

section
/-! # How a command ends: its outcome, and the release of its result (R56, R81, R82, R87, R130, R143) -/

namespace Sys2Proof.Proofs

open Sys2Proof Sys2Proof.Machine Sys2Proof.Claims

section
variable {s t b : State} {i : Nat} {c : Ctx} {r : Result}

/-! ## The outcome of a packet of no stream -/

/-- An outcome counted neither as malformed nor as ST_HDR_CHECK, of a packet of no stream, changes beside the packet at most
the slot that it had reserved. -/
theorem conclude_plain (h : s.ctxs.find i = some c) (hd : c.phase.decided = false) (hb : c.batch = false) (hdrop : c.drop = false)
    (hstream : c.stream = 0) (hm : r.status ≠ 0x0101) (hc : r.status ≠ 0x0102) :
    s.conclude i r = (unreserved s c).setCtx i fun _ => concluded s c r := by
  have hr : outcomeOf c r = r := by simp [outcomeOf, hdrop]
  have herr : ∀ t : State, t.streamError c = t := fun t => by simp [State.streamError, hstream]
  rw [conclude_packet h hd hb, hr, reported, herr, ite_self, counted, if_neg (by simp [St.malformed, St.hdrCheck, hm, hc])]

/-- The outcome ends its packet, whatever was done to the packet's context before. -/
theorem ended_conclude (hbase : ∀ j, j ≠ i → t.ctxs.find j = s.ctxs.find j) (hnow : t.now = s.now) {d : Ctx}
    (h : t.ctxs.find i = some d) (hcd : { d with reserved := none } = { c with reserved := none })
    (hd : d.phase.decided = false) (hb : d.batch = false) (hdrop : d.drop = false) (hstream : d.stream = 0)
    (hm : r.status ≠ 0x0101) (hc : r.status ≠ 0x0102) : Ended (t.conclude i r) s i c r := by
  obtain ⟨k, hk⟩ := unreserved_frame t d
  have hout : concluded t d r =
      { c with phase := .finished, result := some r, finishedAt := s.now, progress := s.now, reserved := none } := by
    have hr : outcomeOf d r = r := by simp [outcomeOf, hdrop]
    rw [concluded, hr, hnow]
    exact congrArg (fun e : Ctx => { e with phase := .finished, result := some r, finishedAt := s.now, progress := s.now }) hcd
  rw [conclude_plain h hd hb hdrop hstream hm hc, hk, hout]
  exact ⟨find_setCtx_some h, fun j hj => (State.find_setCtx_ne _ _ hj).trans (hbase j hj)⟩

section
variable (h : s.ctxs.find i = some c) (hd : c.phase.decided = false) (hb : c.batch = false) (hdrop : c.drop = false)
  (hstream : c.stream = 0)
include h hd hb hdrop hstream

/-- What completes at once takes no unit and has LAUNCH at this boundary (R82, R450). -/
theorem ended_at_once (hm : r.status ≠ 0x0101) (hc : r.status ≠ 0x0102) :
    Ended ((s.setCtx i fun c => { c with parts := [], launchV := s.datum.v, launchTick := s.now }).conclude i r) s i
      { c with parts := [], launchV := s.datum.v, launchTick := s.now } r :=
  ended_conclude (fun _ hj => State.find_setCtx_ne s _ hj) rfl (find_setCtx_some h) rfl hd hb hdrop hstream hm hc

theorem ended_refuse {st : Nat} (hm : st ≠ 0x0101) (hc : st ≠ 0x0102) :
    Ended (s.refuse i st) s i { c with parts := [], launchV := s.datum.v, launchTick := s.now } (Result.bare st) := by
  simp only [State.refuse, h, hd, Bool.false_eq_true, if_false]
  exact ended_at_once h hd hb hdrop hstream hm hc

theorem ended_answer (out : Bytes) :
    Ended (s.answer i out) s i { c with parts := [], launchV := s.datum.v, launchTick := s.now }
      (if c.outLimit < out.length then Result.bare 0x0107 else Result.output out) := by
  simp only [State.answer, h]
  split
  · exact ended_at_once h hd hb hdrop hstream (r := Result.bare 0x0107) (by decide) (by decide)
  · exact ended_at_once h hd hb hdrop hstream (r := Result.output out) (by decide : (0 : Nat) ≠ 0x0101)
      (by decide : (0 : Nat) ≠ 0x0102)

end

/-! ## The release of a result -/

/-- What a release changes beside the completion: the key store, but no slot, and the count of host octets. -/
theorem releaseEffects_frame (s : State) (c : Ctx) (r : Result) : ∃ k g, s.releaseEffects c r = { s with keys := k, rng := g } ∧
    k.slots = s.keys.slots := by
  unfold State.releaseEffects
  split <;> exact ⟨_, _, rfl, rfl⟩

/-- A part that has not passed its check keeps an undropped command as it is. -/
theorem settle_stays (h : s.ctxs.find i = some c) (hdrop : c.drop = false) (hp : ∃ p ∈ c.parts, p.phase ≠ .passed) :
    s.settle i = s := by
  obtain ⟨p, hmem, hphase⟩ := hp
  have hall : c.parts.all c.partOver = false := List.all_eq_false.mpr ⟨p, hmem, by simp [Ctx.partOver, hdrop, hphase]⟩
  simp [State.settle, h, hall]

/-- A running command all of whose parts have passed releases its result. -/
theorem settle_releases (h : s.ctxs.find i = some c) (hdrop : c.drop = false) (hb : c.batch = false) (hrun : c.phase = .running)
    (hcont : c.cont = false) (hpassed : ∀ p ∈ c.parts, p.phase = .passed)
    (hparts : slabCommand c.opcode = true ∨ ∃ p ∈ c.parts, p.slab = false) (hend : c.bearingEnd = none)
    (hchief : chiefVerifies c.opcode = false) (hbatch : c.opcode ≠ 0x1A01) (hr : c.result = some r) :
    s.settle i = s.releaseResult i c r := by
  have hall : c.parts.all c.partOver = true := List.all_eq_true.mpr fun p hp => by simp [Ctx.partOver, hpassed p hp]
  have hunit : (!slabCommand c.opcode && !c.parts.isEmpty && c.parts.all Part.slab) = false := by
    rcases hparts with hs | ⟨p, hp, hslab⟩
    · simp [hs]
    · have : c.parts.all Part.slab = false := List.all_eq_false.mpr ⟨p, hp, by simp [hslab]⟩
      simp [this]
  simp only [State.settle, h, hrun, hall, hb, hend, hdrop, hchief, hcont, hunit, hr]
  simp [hbatch]

theorem releaseResult_error (hdrop : c.drop = false) (hst : r.status ≠ 0) : s.releaseResult i c r = s.conclude i r := by
  simp [State.releaseResult, hdrop, St.ok, hst]

/-- A result without a deposit is the outcome where OUT_LIMIT admits it (R81). -/
theorem releaseResult_output (hdrop : c.drop = false) (hop : c.opcode ≠ 0x4006) (hst : r.status = 0) (hdep : r.deposit = none)
    (hent : r.entries = []) : s.releaseResult i c r =
      if c.outLimit < r.out.length then s.failWith i St.outLimit else (s.releaseEffects c r).conclude i r := by
  simp [State.releaseResult, hdrop, hop, hst, hdep, hent]

/-- A result with a deposit: the key goes into the reserved slot, and its handle leads the output (R87, R130). -/
theorem releaseResult_deposit {m : Masked} {h : Nat} (hdrop : c.drop = false) (hop : c.opcode ≠ 0x4006) (hst : r.status = 0)
    (hdep : r.deposit = some m) (hent : r.entries = []) (hres : c.reserved = some h) (horph : c.orphaned = false)
    (hlim : r.out.length + 8 ≤ c.outLimit) : s.releaseResult i c r =
      ((((s.deposit h c.keyB (s.policyAt r.depositPolicy) m.open r.depositPub).releaseEffects c r).setCtx i
        fun c => { c with reserved := none }).conclude i
          { r with out := le 8 h ++ r.out, deposit := none, depositPolicy := [], depositPub := [] }) := by
  simp [State.releaseResult, hdrop, hop, hst, hdep, hent, hres, horph, Nat.not_lt.mpr hlim]

/-- The slot of a deposited key is live with what it was given, and its material opens under the vault key. -/
theorem deposit_slot (s : State) (h parent : Nat) (p : Policy) (m pub : Bytes) :
    ∃ x, (s.deposit h parent p m pub).keys.slots = s.keys.slots.put (slotKey h) x ∧ x.st = .live ∧ x.gen = h % 2 ^ 24 ∧
      x.parent = parent ∧ x.pub = pub ∧ x.policy = p ∧ x.material s.keys.vaultKey = m := by
  have hkeep : ∀ (x : Slot) key h r e n p m, (x.withKey key h r e n p m).st = x.st ∧ (x.withKey key h r e n p m).gen = x.gen ∧
      (x.withKey key h r e n p m).parent = x.parent ∧ (x.withKey key h r e n p m).pub = x.pub ∧
      (x.withKey key h r e n p m).policy = p := fun x key h r e n p m => by
    unfold Slot.withKey
    split <;> exact ⟨rfl, rfl, rfl, rfl, rfl⟩
  obtain ⟨hst, hgen, hparent, hpub, hpolicy⟩ := hkeep { Slot.empty (h % 2 ^ 24) .live with parent := parent, pub := pub }
    s.keys.vaultKey h s.keys.freeRecord s.keys.freeExtent s.keys.vaultWrites p m
  exact ⟨_, rfl, hst, hgen, hparent, hpub, hpolicy, Slot.material_of_withKey ..⟩

/-- The end of a depositing command: its outcome, its live slot, and the slots beside it. -/
theorem deposit_ends {m : Masked} {h : Nat} (hc : s.ctxs.find i = some c) (hd : c.phase.decided = false) (hb : c.batch = false)
    (hdrop : c.drop = false) (hstream : c.stream = 0) (hop : c.opcode ≠ 0x4006) (hst : r.status = 0)
    (hdep : r.deposit = some m) (hent : r.entries = []) (hres : c.reserved = some h) (horph : c.orphaned = false)
    (hlim : r.out.length + 8 ≤ c.outLimit) :
    Ended (s.releaseResult i c r) s i c { r with out := le 8 h ++ r.out, deposit := none, depositPolicy := [], depositPub := [] } ∧
    (∃ x, (s.releaseResult i c r).keys.slots.find (slotKey h) = some x ∧ x.st = .live ∧ x.gen = h % 2 ^ 24 ∧ x.parent = c.keyB ∧
      x.pub = r.depositPub ∧ x.policy = s.policyAt r.depositPolicy ∧ x.material s.keys.vaultKey = m.open) ∧
    ∀ k, k ≠ slotKey h → (s.releaseResult i c r).keys.slots.find k = s.keys.slots.find k := by
  obtain ⟨x, hslots, hx⟩ := deposit_slot s h c.keyB (s.policyAt r.depositPolicy) m.open r.depositPub
  obtain ⟨k, g, heff, hk⟩ :=
    releaseEffects_frame (s.deposit h c.keyB (s.policyAt r.depositPolicy) m.open r.depositPub) c r
  rw [releaseResult_deposit hdrop hop hst hdep hent hres horph hlim, heff]
  set b : State := { s.deposit h c.keyB (s.policyAt r.depositPolicy) m.open r.depositPub with keys := k, rng := g }
  set e : Result := { r with out := le 8 h ++ r.out, deposit := none, depositPolicy := [], depositPub := [] }
  have hm : e.status ≠ 0x0101 := by rw [show e.status = 0 from hst]; decide
  have hs : e.status ≠ 0x0102 := by rw [show e.status = 0 from hst]; decide
  have hfound : (b.setCtx i fun c => { c with reserved := none }).ctxs.find i = some { c with reserved := none } :=
    find_setCtx_some (s := b) hc
  have hkeys : ((b.setCtx i fun c => { c with reserved := none }).conclude i e).keys.slots = s.keys.slots.put (slotKey h) x := by
    rw [conclude_plain hfound hd hb hdrop hstream hm hs]
    exact hk.trans hslots
  refine ⟨?_, ?_, fun n hn => ?_⟩
  · exact ended_conclude (fun j hj => State.find_setCtx_ne b _ hj) rfl hfound rfl hd hb hdrop hstream hm hs
  · rw [hkeys]
    exact ⟨x, Tab.find_put_same .., hx⟩
  · rw [hkeys]
    exact Tab.find_put_ne _ _ hn

theorem commandsEnd : Claims.CommandsEnd := by
  intro s i c h hd hdrop hstream hb
  refine ⟨fun st hm hs _ => ended_refuse h hd hb hdrop hstream hm hs, fun out _ => ended_answer h hd hb hdrop hstream out,
    settle_stays h hdrop, ?_⟩
  intro hrun hcont hpassed hparts hend hchief hbatch hop r hr
  rw [settle_releases h hdrop hb hrun hcont hpassed hparts hend hchief hbatch hr]
  refine ⟨fun hst hm hs _ => ?_, fun hst hdep hent _ => ?_, fun m n hst hdep hent hres horph hlim => ?_⟩
  · rw [releaseResult_error hdrop hst]
    exact ended_conclude (fun _ _ => rfl) rfl h rfl hd hb hdrop hstream hm hs
  · rw [releaseResult_output hdrop hop hst hdep hent]
    split
    · exact ended_conclude (r := Result.bare 0x0107) (fun _ _ => rfl) rfl h rfl hd hb hdrop hstream (by decide) (by decide)
    · obtain ⟨k, g, heff, -⟩ := releaseEffects_frame s c r
      rw [heff]
      exact ended_conclude (fun _ _ => rfl) rfl h rfl hd hb hdrop hstream (by rw [hst]; decide) (by rw [hst]; decide)
  · exact deposit_ends h hd hb hdrop hstream hop hst hdep hent hres horph hlim

end

/-- Settles O58: an outcome writes one context; the branches of a release and of the deadline test decide which outcome. -/
theorem endsAndDeadlines : Obligations.EndsAndDeadlines := ⟨commandsEnd, deadlineDecides⟩

end Sys2Proof.Proofs
end

section
/-! # What the outcome of a command and the end of a boundary keep (R56, R58, R69, R143, R423) -/

namespace Sys2Proof.Proofs

open Sys2Proof Sys2Proof.Machine Sys2Proof.Claims

section
variable {β : Type} {g : State → β}

/-- What is read of a state does not heed what the end of a command changes: contexts, queues, slots, memory that a slice gets
back, and raised events. -/
structure Unheeding (g : State → β) : Prop where
  ctxs : ∀ s x, g { s with ctxs := x } = g s
  queues : ∀ s x, g { s with queues := x } = g s
  slots : ∀ s x, g { s with keys := { s.keys with slots := x } } = g s
  memory : ∀ s n k, g (s.freeMem n k) = g s
  raised : ∀ s e h l, g { s with events := e, host := h, log := { s.log with queue := l } } = g s

/-- What each step of a fold keeps, the fold keeps. -/
theorem foldl_keeps {α : Type} {f : State → α → State} (hf : ∀ t a, g (f t a) = g t) (l : List α) (s : State) :
    g (l.foldl f s) = g s := by
  induction l generalizing s with
  | nil => rfl
  | cons a l ih => exact (ih _).trans (hf s a)

namespace Unheeding
variable (hg : Unheeding g)
include hg

theorem raise (s : State) (code origin p0 p1 p2 p3 : Nat) : g (s.raise code origin p0 p1 p2 p3) = g s := by
  obtain ⟨e, h, r, -, -, -, hr⟩ := s.raise_frame code origin p0 p1 p2 p3
  rw [hr]
  exact hg.raised s e h _

theorem freeStream (s : State) (q id : Nat) : g (s.freeStream q id) = g s := by
  unfold State.freeStream
  split
  · rfl
  · split
    · rfl
    · exact hg.memory ..

theorem streamError (s : State) (c : Ctx) : g (s.streamError c) = g s := by
  unfold State.streamError
  split
  · rfl
  · split
    · rfl
    · split
      · rfl
      · dsimp only
        have hdrop : ∀ x f, g (State.dropBatches { s with ctxs := x } f) = g s := fun x f => hg.ctxs s _
        split
        · exact hdrop ..
        · split
          · exact (hg.queues _ _).trans ((hg.freeStream ..).trans (hdrop ..))
          · exact (hg.queues _ _).trans ((hg.freeStream ..).trans (hdrop ..))

theorem reported (s : State) (c : Ctx) (r : Result) : g (reported s c r) = g s := by
  have herr : g (if r.status = St.ok then s else s.streamError c) = g s := by
    split
    · rfl
    · exact hg.streamError s c
  refine .trans ?_ herr
  unfold Proofs.reported counted
  split
  · exact (hg.raise ..).trans (hg.queues _ _)
  · rfl

theorem unreserved (s : State) (c : Ctx) : g (unreserved s c) = g s := by
  obtain ⟨k, hk⟩ := unreserved_frame s c
  rw [hk]
  exact hg.slots s k

theorem conclude (s : State) (i : Nat) (r : Result) : g (s.conclude i r) = g s := by
  cases h : s.ctxs.find i with
  | none => rw [s.conclude_none r h]
  | some c =>
    cases hd : c.phase.decided with
    | true => rw [s.conclude_decided r h hd]
    | false =>
      cases hb : c.batch with
      | false =>
        rw [conclude_packet h hd hb]
        exact (hg.reported ..).trans ((hg.ctxs _ _).trans (hg.unreserved s c))
      | true =>
        simp only [State.conclude, h, hd, hb, Bool.false_eq_true, if_false, if_true]
        split <;> exact hg.ctxs s _

theorem refuse (s : State) (i st : Nat) : g (s.refuse i st) = g s := by
  unfold State.refuse
  split
  · rfl
  · split
    · rfl
    · exact (hg.conclude ..).trans (hg.ctxs s _)

theorem answer (s : State) (i : Nat) (out : Bytes) : g (s.answer i out) = g s := by
  unfold State.answer
  split
  · rfl
  · dsimp only
    split <;> exact (hg.conclude ..).trans (hg.ctxs s _)

theorem deadlineSweep (s : State) : g s.deadlineSweep = g s :=
  foldl_keeps (fun t p => by
    split
    · exact hg.refuse ..
    · rfl) _ s

/-- The end of a boundary keeps what does not heed the debug rights either. -/
theorem boundaryEnd (hl : ∀ s l, g { s with lcs := l } = g s) (s : State) : g s.boundaryEnd = g s := by
  have hr : ∀ s : State, g s.debugRights = g s := fun s => by
    unfold State.debugRights
    split
    · rfl
    · split
      · split
        · rfl
        · exact hl s _
      · split
        · exact hl s _
        · rfl
  unfold State.boundaryEnd
  split
  · rfl
  · split
    · exact (hr _).trans (hg.deadlineSweep s)
    · exact hr s

/-- The end of the DATUM stage keeps what does not heed the start. -/
theorem acquired (hs : ∀ s x, g { s with start := x } = g s) (s : State) : g s.acquired = g s := by
  unfold State.acquired
  split
  · exact (hg.raise ..).trans ((hs _ _).trans (hs _ _))
  · rfl

end Unheeding

/-! ## The time, the datum and the caches -/

/-- What stands still while commands end: the time, the datum, the start, the counted seconds and the caches of keys. -/
structure Standing where
  now : Nat
  datum : Datum
  start : StartUp
  opTicks : Nat
  opSeconds : Nat
  prepared : List Nat
  mceCache : List Nat
  resident : Tab (List Residency)

def standing (s : State) : Standing :=
  { now := s.now, datum := s.datum, start := s.start, opTicks := s.log.opTicks, opSeconds := s.log.opSeconds
    prepared := s.keys.prepared, mceCache := s.keys.mceCache, resident := s.keys.resident }

theorem standing_unheeding : Unheeding standing :=
  ⟨fun _ _ => rfl, fun _ _ => rfl, fun _ _ => rfl, fun _ _ _ => rfl, fun _ _ _ _ => rfl⟩

theorem standing_boundaryEnd (s : State) : standing s.boundaryEnd = standing s :=
  standing_unheeding.boundaryEnd (fun _ _ => rfl) s

end

end Sys2Proof.Proofs
end

section
/-! # The datum: holdover, challenges, refinements and tokens (R38 to R47, R60, R406) -/

namespace Sys2Proof.Proofs

open Sys2Proof Sys2Proof.Machine Sys2Proof.Claims

section
variable {s : State}

/-! ## The cap and the end of a boundary (R45) -/

/-- The datum that the test of its cap leaves. -/
def underCap (d : Datum) : Datum :=
  { d with st := if d.st = .trusted ∧ d.cap ≤ max (d.v - d.lo) (d.hi - d.v) then .untrusted else d.st }

theorem unc_of_trusted {d : Datum} (h : d.st = .trusted) : d.unc = max (d.v - d.lo) (d.hi - d.v) := by
  simp [Datum.unc, h]

theorem standing_capTest (s : State) : standing s.capTest = standing { s with datum := underCap s.datum } := by
  by_cases h : s.datum.st = .trusted ∧ s.datum.cap ≤ max (s.datum.v - s.datum.lo) (s.datum.hi - s.datum.v)
  · have hcap : (s.trusted && decide (s.datum.cap ≤ s.datum.unc)) = true := by
      simp [State.trusted, h.1, unc_of_trusted h.1, h.2]
    rw [State.capTest, if_pos hcap, underCap, if_pos h]
    exact standing_unheeding.raise ..
  · have hcap : (s.trusted && decide (s.datum.cap ≤ s.datum.unc)) = false := by
      by_cases hst : s.datum.st = .trusted
      · have hle : ¬ s.datum.cap ≤ s.datum.unc := by
          rw [unc_of_trusted hst]
          exact fun hle => h ⟨hst, hle⟩
        simp only [hle, decide_false, Bool.and_false]
      · simp [State.trusted, hst]
    rw [State.capTest, hcap, underCap, if_neg h]
    rfl

theorem standing_capTest_boundaryEnd (s : State) :
    standing s.capTest.boundaryEnd = standing { s with datum := underCap s.datum } :=
  (standing_boundaryEnd _).trans (standing_capTest s)

/-! ## Holdover (R38, R40, R45) -/

theorem tokenDue_false (h : ∀ k ∈ s.datum.tokens, s.now ≤ k.accepted) : s.tokenDue = false :=
  List.any_eq_false.mpr fun k hk => by simpa using h k hk

theorem holdoverAndChallengeExpiry : Claims.HoldoverAndChallengeExpiry := by
  refine ⟨fun s hwiden htokens => ?_, fun s c b hchal => ?_⟩
  · have hexec : exec .datumHoldoverWiden s = .next (State.boundaryEnd (State.capTest { s with datum := { s.datum with
        lo := s.datum.lo - 1, hi := s.datum.hi + 1, widenDue := false } })) := by
      show execDatumHoldoverWiden s = _
      rw [execDatumHoldoverWiden, if_pos (by simp [hwiden, tokenDue_false htokens])]
    have hstand := standing_capTest_boundaryEnd { s with datum := { s.datum with
        lo := s.datum.lo - 1, hi := s.datum.hi + 1, widenDue := false } }
    exact ⟨_, hexec, congrArg Standing.now hstand, congrArg Standing.datum hstand⟩
  · have hexec : exec .datumChallengeExpire s =
        if b + 10000000 ≤ s.now then .next { s with datum := { s.datum with chal := none } } else .next s := by
      show execDatumChallengeExpire s = _
      rw [execDatumChallengeExpire, hchal]
    exact ⟨fun h => hexec.trans (if_pos h), fun h => hexec.trans (if_neg (Nat.not_le.mpr h))⟩

/-! ## Phase refinements (R38, R47) -/

section
variable {ns master cycles now : Nat} {ok : Bool} (hg : s.start.grat = true)
include hg

/-- An edge within 0.9 s to 1.1 s of the last, or the first, is sampled. -/
theorem execDatumPpsEdge_inTime (he : s.datum.ppsEn = true) (hnow : s.now * 1000 + ns = now)
    (h : ∀ b, s.datum.lastPps = some b → b + 900000000 ≤ now ∧ now ≤ b + 1100000000) : execDatumPpsEdge ns s = .next { s with
      datum := ({ s.datum with lastPps := some now }).offer true (nearestSecond s.datum.v) (8 * s.datum.v) s.now } := by
  rw [execDatumPpsEdge, if_neg (by simp [hg, he])]
  rcases hb : s.datum.lastPps with _ | b
  · simp [hb, hnow]
  · simp [hb, hnow, h b hb]

theorem execDatumPpsEdge_ignored (he : s.datum.ppsEn = true) (hnow : s.now * 1000 + ns = now)
    (h : ¬ ∀ b, s.datum.lastPps = some b → b + 900000000 ≤ now ∧ now ≤ b + 1100000000) :
    execDatumPpsEdge ns s = .next { s with datum := s.datum.ignored true } := by
  rw [execDatumPpsEdge, if_neg (by simp [hg, he])]
  rcases hb : s.datum.lastPps with _ | b
  · exact absurd (fun b hb' => by rw [hb] at hb'; cases hb') h
  · have hb' : ¬ (b + 900000000 ≤ now ∧ now ≤ b + 1100000000) := fun hle => h fun b' hb' => by
      rw [hb] at hb'
      cases hb'
      exact hle
    simp [hb, hnow, hb']

/-- An exchange within 1 s of the last is not made. -/
theorem execPtmExchange_early (he : s.datum.ptmEn = true) (hnow : s.now * 1000 + cycles * 5 / 8 = now)
    (h : ∃ b, s.datum.lastPtmTry = some b ∧ now < b + 1000000000) : execPtmExchange master cycles ok s = .next s := by
  obtain ⟨b, hb, hlt⟩ := h
  rw [execPtmExchange, if_neg (by simp [hg, he])]
  simp [hb, hnow, hlt]

theorem execPtmExchange_made (he : s.datum.ptmEn = true) (hnow : s.now * 1000 + cycles * 5 / 8 = now)
    (h : ¬ ∃ b, s.datum.lastPtmTry = some b ∧ now < b + 1000000000) : execPtmExchange master cycles ok s = .next { s with
      datum := if ok = true then ({ s.datum with lastPtmTry := some now, lastPtm := some now }).offer false master
          (8 * s.datum.v + 5 * cycles) s.now
        else { s.datum with lastPtmTry := some now } } := by
  have hlate : ∀ b, s.datum.lastPtmTry = some b → ¬ now < b + 1000000000 := fun b hb hlt => h ⟨b, hb, hlt⟩
  rw [execPtmExchange, if_neg (by simp [hg, he])]
  rcases hb : s.datum.lastPtmTry with _ | b
  · cases ok <;> simp [hb, hnow]
  · cases ok <;> simp [hb, hnow, hlate b hb]

end

theorem execDatumRefineApply_eq {r : Refine} {rest : List Refine} (h : s.datum.refine = r :: rest) (hr : r.accepted < s.now)
    (hw : s.datum.widenDue = false) (ht : s.tokenDue = false) : execDatumRefineApply s =
      .next (State.boundaryEnd (State.capTest { s with datum := ({ s.datum with refine := rest }).refineBy r })) := by
  simp only [execDatumRefineApply, h]
  rw [if_neg (by simp [hw, ht, hr])]

theorem phaseRefinement : Claims.PhaseRefinement := by
  refine ⟨fun ns s hg he => ⟨fun h => ?_, fun h => ?_⟩, fun master cycles ok s hg he => ⟨fun h => ?_, fun h => ?_⟩,
    fun s r rest hrefine hr hw ht => ?_⟩
  · exact execDatumPpsEdge_inTime hg he rfl h
  · exact execDatumPpsEdge_ignored hg he rfl h
  · exact execPtmExchange_early hg he rfl h
  · exact execPtmExchange_made hg he rfl h
  · have hstand := standing_capTest_boundaryEnd { s with datum := ({ s.datum with refine := rest }).refineBy r }
    refine ⟨_, execDatumRefineApply_eq hrefine hr hw (tokenDue_false ht), congrArg Standing.now hstand,
      (congrArg Standing.datum hstand).trans ?_⟩
    refine congrArg underCap ?_
    by_cases h : s.datum.st = .trusted ∧ r.sample8 < 8 * r.target ∧ r.target ≤ s.datum.hi
    · have hfit : ({ s.datum with refine := rest } : Datum).refinable r = true := by simp [Datum.refinable, h]
      rw [if_pos h, Datum.refineBy, if_pos hfit]
      rfl
    · have hfit : ¬ ({ s.datum with refine := rest } : Datum).refinable r = true := by
        simpa [Datum.refinable, and_assoc] using h
      rw [if_neg h, Datum.refineBy, if_neg hfit]
      rfl

/-- Settles O46: each event sets the datum that its rule names; the cap's test and the end of the boundary follow. -/
theorem holdoverAndRefinement : Obligations.HoldoverAndRefinement := ⟨holdoverAndChallengeExpiry, phaseRefinement⟩

/-! ## Challenges (R40, R406) -/

theorem smbOpen_of_smbDatum (h : SmbDatum s) : s.smbOpen = true := by
  have hstage := h.stage
  simp only [State.smbOpen, State.started, h.started, h.power]
  rcases hstage with hst | hst <;> rw [hst] <;> decide

theorem smbDatum_of_smbDatum (h : SmbDatum s) : s.smbDatum = none := by
  have hstage : ¬ s.start.stage < Stage.datum := by rcases h.stage with hst | hst <;> rw [hst] <;> decide
  rw [State.smbDatum, h.safe, if_neg Bool.false_ne_true, if_neg hstage]

theorem execDatumChallenge_queue {x : Nat} {c : Ctx} (h : MayRun s x 0x6001 c) (hd : s.drawState 4 = .serves) :
    execDatumChallenge (.queue x) s = .next (s.newChallenge.2.answer x s.newChallenge.1) := by
  rw [execDatumChallenge, runCore_mayRun h, hd]

theorem execDatumChallenge_smbus (h : SmbDatum s) (hd : s.drawState 4 = .serves) :
    execDatumChallenge (.smbus []) s = .next (s.newChallenge.2.smbAnswer St.ok s.newChallenge.1) := by
  simp only [execDatumChallenge, smbOpen_of_smbDatum h, smbDatum_of_smbDatum h, hd]
  rfl

/-! ## The tests of a token (R41, R42) -/

theorem tokenGood_iff (d : Datum) (p : Bytes) : TokenGood d p ↔ (tokenFields d p && tokenSigned d p) = true := by
  constructor
  · rintro ⟨hversion, hzero, hearly, hlate, hauth, ⟨b, hchal⟩, hseq, hqueued, hunc, hsigned⟩
    simp only [tokenFields, tokenSigned, hchal, hversion, hzero, hearly, hlate, hauth, hseq, hunc, hsigned, Bool.and_eq_true,
      beq_self_eq_true, decide_true, List.all_eq_true, decide_eq_true_eq, and_self, and_true, true_and]
    exact hqueued
  · intro h
    unfold tokenFields tokenSigned at h
    cases hchal : d.chal with
    | none => simp [hchal] at h
    | some k =>
      simp only [hchal, Bool.and_eq_true, beq_iff_eq, decide_eq_true_eq, List.all_eq_true] at h
      obtain ⟨⟨⟨⟨⟨⟨⟨⟨⟨⟨⟨hversion, hz⟩, hz'⟩, hearly⟩, hlate⟩, hauth⟩, hk⟩, hqueued⟩, hseq⟩, hpos⟩, hcap⟩,
        hsigned⟩ := h
      exact ⟨hversion, ⟨hz, hz'⟩, hearly, hlate, hauth, ⟨k.2, by rw [hchal, hk]⟩, hseq, hqueued, ⟨hpos, hcap⟩, hsigned⟩

/-- A token of the right length is accepted where it is good, and rejected otherwise. -/
theorem tokenVerdict_good {d : Datum} {p : Bytes} (hlen : p.length = 3357) (h : TokenGood d p) : tokenVerdict d p = none := by
  rw [tokenVerdict, if_neg (not_not.mpr hlen), if_pos ((tokenGood_iff d p).mp h)]

theorem tokenVerdict_bad {d : Datum} {p : Bytes} (hlen : p.length = 3357) (h : ¬ TokenGood d p) :
    tokenVerdict d p = some St.inputRejected := by
  rw [tokenVerdict, if_neg (not_not.mpr hlen), if_neg fun hgood => h ((tokenGood_iff d p).mpr hgood)]

theorem acceptToken_open {k : Bytes} {b : Nat} (h : s.datum.chal = some (k, b)) (p : Bytes) (x : Option Nat) :
    s.acceptToken p x = { s with datum := { s.datum with tokens := s.datum.tokens ++ [
      { seq := uAt p 0x08 8, time := uAt p 0x10 8, unc := uAt p 0x18 4, keyId := uAt p 0x04 4, issued := b
        accepted := s.now, ctx := x, chal := bytesAt p 0x20 16 }] } } := by
  simp only [State.acceptToken, tokenOf, h]

section
variable {x : Nat} {c : Ctx} {p : Bytes}

theorem execDatumToken_queue_good (h : MayRun s x 0x6002 c) (hp : c.payload = p) (hv : tokenVerdict s.datum p = none) :
    execDatumToken (.queue x) s =
      .next ((s.acceptToken p (some x)).setCtx x fun c => { c with phase := .running, progress := s.now }) := by
  rw [execDatumToken, runCore_mayRun h, hp, hv]

theorem execDatumToken_queue_bad (h : MayRun s x 0x6002 c) (hp : c.payload = p)
    (hv : tokenVerdict s.datum p = some St.inputRejected) :
    execDatumToken (.queue x) s = .next ((s.rejectToken p).refuse x St.inputRejected) := by
  rw [execDatumToken, runCore_mayRun h, hp, hv]
  rfl

theorem execDatumToken_smbus_good (h : SmbDatum s) (hv : tokenVerdict s.datum p = none) :
    execDatumToken (.smbus p) s = .next (s.acceptToken p none) := by
  simp only [execDatumToken, smbOpen_of_smbDatum h, smbDatum_of_smbDatum h, hv]
  rfl

theorem execDatumToken_smbus_bad (h : SmbDatum s) (hv : tokenVerdict s.datum p = some St.inputRejected) :
    execDatumToken (.smbus p) s = .next ((s.rejectToken p).smbAnswer St.inputRejected) := by
  simp only [execDatumToken, smbOpen_of_smbDatum h, smbDatum_of_smbDatum h, hv]
  rfl

end

theorem challengeAndToken : Claims.ChallengeAndToken := by
  refine ⟨fun s hd => ⟨fun x c h => execDatumChallenge_queue h hd, fun h => execDatumChallenge_smbus h hd⟩, ?_⟩
  intro s p hlen
  refine ⟨fun hgood k b hchal => ?_, fun hbad => ?_⟩
  · have hv := tokenVerdict_good hlen hgood
    refine ⟨fun x c h hp => (execDatumToken_queue_good h hp hv).trans ?_, fun h => (execDatumToken_smbus_good h hv).trans ?_⟩
    · rw [acceptToken_open hchal]
    · rw [acceptToken_open hchal]
  · have hv := tokenVerdict_bad hlen hbad
    exact ⟨fun x c h hp => execDatumToken_queue_bad h hp hv, fun h => execDatumToken_smbus_bad h hv⟩

/-! ## The application of a token (R43 to R45) -/

/-- The datum's side of a state: what the application of a token is seen in. -/
def datumSide (s : State) : Nat × Datum × Option Bytes := (s.now, s.datum, s.bus.smbus)

theorem datumSide_unheeding : Unheeding datumSide :=
  ⟨fun _ _ => rfl, fun _ _ => rfl, fun _ _ => rfl, fun _ _ _ => rfl, fun _ _ _ _ => rfl⟩

/-- A token whose interval misses the bounds of a trusted datum is counted. -/
def conflicted (d : Datum) (k : Token) (now : Nat) : Datum :=
  { d with conflicts := if d.st = .trusted ∧ tokenMeets d k now = false then min (d.conflicts + 1) 65535 else d.conflicts }

theorem datumSide_conflictEvent (s : State) (k : Token) :
    datumSide (s.conflictEvent k) = datumSide { s with datum := conflicted s.datum k s.now } := by
  have hiff : (s.trusted && !tokenMeets s.datum k s.now) = true ↔ s.datum.st = .trusted ∧ tokenMeets s.datum k s.now = false := by
    simp [State.trusted]
  unfold State.conflictEvent conflicted
  by_cases h : s.datum.st = .trusted ∧ tokenMeets s.datum k s.now = false
  · rw [if_pos (hiff.mpr h), if_pos h]
    exact datumSide_unheeding.raise ..
  · rw [if_neg fun h' => h (hiff.mp h'), if_neg h]

theorem datumSide_stateEvent (s : State) (old : DatumState) (seq : Nat) : datumSide (s.stateEvent old seq) = datumSide s := by
  unfold State.stateEvent
  split
  · rfl
  · split
    · exact datumSide_unheeding.raise ..
    · exact datumSide_unheeding.raise ..
    · rfl

/-- The sender's answer: over SMBus it stands there, from a queue it ends the command. -/
theorem tokenReply_keeps (s : State) (k : Token) : (s.tokenReply k).now = s.now ∧ (s.tokenReply k).datum = s.datum ∧
    (k.ctx = none → (s.tokenReply k).bus.smbus = some (le 2 0 ++ le 2 0 ++ s.datum.snapshot)) := by
  unfold State.tokenReply
  cases k.ctx with
  | none => exact ⟨rfl, rfl, fun _ => rfl⟩
  | some i =>
    have h := datumSide_unheeding.answer s i s.datum.snapshot
    exact ⟨congrArg Prod.fst h, congrArg (fun p => p.2.1) h, nofun⟩

theorem ceilUs2_eq (n : Nat) : ceilUs2 n = upToUs n := by
  unfold ceilUs2 ceilDiv upToUs
  omega

theorem tokenDelay_eq (issued now : Nat) : tokenDelay issued now = ((now - issued) * 1000 * 50001 + 49999) / 50000 := by
  unfold tokenDelay ceilDiv
  omega

/-- What a token does to the datum, its conflict counted before. -/
theorem applyToken_eq (d : Datum) (k : Token) (now : Nat) : (conflicted d k now).applyToken k now = afterToken d k now := by
  unfold Datum.applyToken afterToken conflicted
  simp only [tokenMeets, tokenLow, tokenHigh, tokenDelay_eq, ceilUs2_eq, Bool.and_eq_true, decide_eq_true_eq, decide_eq_false_iff_not]
  cases d.chal <;> simp

theorem tokenApplies : Claims.TokenApplies := by
  intro s k l hk hacc
  set b : State := { s.conflictEvent k with datum := (s.conflictEvent k).datum.applyToken k (s.conflictEvent k).now }
  have hexec : exec .datumTokenApply s =
      .next ((b.stateEvent s.datum.st k.seq).tokenReply k).acquired.boundaryEnd := by
    show execDatumTokenApply s = _
    simp only [execDatumTokenApply, hk, if_neg (Nat.not_le.mpr hacc)]
    rfl
  have hconf := datumSide_conflictEvent s k
  have hb : b.datum = afterToken s.datum k s.now := by
    rw [← applyToken_eq]
    exact congrArg (fun p : Nat × Datum × Option Bytes => p.2.1.applyToken k p.1) hconf
  have hstate := datumSide_stateEvent b s.datum.st k.seq
  obtain ⟨hnow, hdatum, hsmb⟩ := tokenReply_keeps (b.stateEvent s.datum.st k.seq) k
  have hrest := (datumSide_unheeding.boundaryEnd (fun _ _ => rfl) _).trans
    (datumSide_unheeding.acquired (fun _ _ => rfl) ((b.stateEvent s.datum.st k.seq).tokenReply k))
  have hdat : (b.stateEvent s.datum.st k.seq).datum = afterToken s.datum k s.now :=
    (congrArg (fun p => p.2.1) hstate).trans hb
  have hend : ((b.stateEvent s.datum.st k.seq).tokenReply k).acquired.boundaryEnd.datum = afterToken s.datum k s.now :=
    (congrArg (fun p => p.2.1) hrest).trans (hdatum.trans hdat)
  refine ⟨_, hexec, ?_, hend, ?_, ?_, fun hctx => ?_⟩
  · exact (congrArg Prod.fst hrest).trans (hnow.trans ((congrArg Prod.fst hstate).trans (congrArg Prod.fst hconf)))
  · rw [hend]
    exact le_max_left ..
  · rw [hend]
    exact le_max_right ..
  · rw [hend, ← hdat]
    exact (congrArg (fun p => p.2.2) hrest).trans (hsmb hctx)

/-- Settles O47: the tests of a token are those of R42 one by one; its application is followed through its events and answer. -/
theorem challengesAndTokens : Obligations.ChallengesAndTokens := ⟨challengeAndToken, tokenApplies⟩

end

end Sys2Proof.Proofs
end

section
/-! # A tick boundary (R36, R45, R58, R385, R409) -/

namespace Sys2Proof.Proofs

open Sys2Proof Sys2Proof.Machine Sys2Proof.Claims

section
variable {s t u : State} {x st : Nat} {c d : Ctx}

/-! ## What the units' work at a boundary leaves alone -/

/-- What is read alike before and after an erasure agrees where the erasures do. -/
theorem read_of_erased {γ : Type} {e : State → State} {f : State → γ} (h : e s = e t) (hf : ∀ s, f (e s) = f s) :
    f s = f t := (hf s).symm.trans ((congrArg f h).trans (hf t))

/-- A state without its units, engines, cores and draws. -/
def besideUnits (s : State) : State := { s with units := [], engines := [], cores := [], rng := Rng.reset, free := 0 }

theorem besideUnits_clearSheet (s : State) (u : Nat) : besideUnits (s.clearSheet u) = besideUnits s := by
  unfold State.clearSheet
  split <;> rfl

theorem besideUnits_endHatching (s : State) : besideUnits s.endHatching = besideUnits s :=
  foldl_keeps (fun t u => besideUnits_clearSheet (t.freeUnit u) u) _ s

theorem besideUnits_enginesDue (s : State) : besideUnits s.enginesDue = besideUnits s :=
  foldl_keeps (fun t e => by
    unfold State.engineDue
    dsimp only
    split <;> rfl) _ s

theorem besideUnits_startBench (s : State) (u p : Nat) (b : Bool) : besideUnits (s.startBench u p b) = besideUnits s := by
  unfold State.startBench
  split
  · rfl
  · obtain ⟨f, g, k, h⟩ := s.drawFor_frame (9 + unitRegion u) u 32
    rw [h]
    rfl

theorem besideUnits_dueBenchmarks (s : State) : besideUnits s.dueBenchmarks = besideUnits s :=
  foldl_keeps (fun t u => besideUnits_startBench t u _ false) _ s

/-! ## The work that waits -/

/-- A command without what a boundary may clear of it: its scratch pages and its wait for a draw. -/
def workOf (c : Ctx) : Ctx := { c with pages := 0, waitFrom := none }

theorem batch_of_work (h : workOf d = workOf c) : d.batch = c.batch :=
  show (workOf d).batch = (workOf c).batch by rw [h]

/-- From `s` to `t` no packet appears, ends or goes on, and the same queues hold entries. -/
structure SameWork (s t : State) : Prop where
  packets : t.packets.map workOf = s.packets.map workOf
  held : ∀ q, t.heldUp q = s.heldUp q
  found : ∀ x c, s.ctxs.find x = some c → c.batch = false → ∃ d, t.ctxs.find x = some d ∧ workOf d = workOf c

theorem SameWork.of_same (hc : t.ctxs = s.ctxs) (hq : t.queues = s.queues) : SameWork s t where
  packets := by rw [State.packets, hc, State.packets]
  held q := by rw [State.heldUp, hq, State.heldUp]
  found x c h _ := ⟨c, by rwa [hc], rfl⟩

theorem SameWork.refl (s : State) : SameWork s s := .of_same rfl rfl

theorem SameWork.trans (h : SameWork s t) (k : SameWork t u) : SameWork s u where
  packets := k.packets.trans h.packets
  held q := (k.held q).trans (h.held q)
  found x c hc hb := by
    obtain ⟨d, hd, hdc⟩ := h.found x c hc hb
    obtain ⟨e, he, hed⟩ := k.found x d hd ((batch_of_work hdc).trans hb)
    exact ⟨e, he, hed.trans hdc⟩

/-- A fence and held entries are seen in the work that waits. -/
theorem fenced_eq (s : State) (c : Ctx) : s.fenced c = (s.packets.map workOf).any fun e =>
    e.q == (workOf c).q && decide (e.seq < (workOf c).seq) && ((workOf c).fence || (e.fence && decide (e.phase = .waiting))) := by
  rw [List.any_map]
  rfl

theorem SameWork.blocked (h : SameWork s t) (hd : workOf d = workOf c) : t.blocked d = s.blocked c := by
  have hq : d.q = c.q := show (workOf d).q = (workOf c).q by rw [hd]
  rw [State.blocked, State.blocked, fenced_eq, fenced_eq, h.packets, hd, h.held, hq]

/-- The packets of a table of contexts. -/
theorem packets_mapVals (s : State) {f : Nat → Ctx → Ctx} (hf : ∀ i c, workOf (f i c) = workOf c) :
    ({ s with ctxs := s.ctxs.mapVals f } : State).packets.map workOf = s.packets.map workOf := by
  have hb : ∀ i c, (f i c).batch = c.batch := fun i c => batch_of_work (hf i c)
  simp only [State.packets, Tab.vals, Tab.mapVals, List.map_map, List.filter_map]
  have hkeep : (fun c : Ctx => !c.batch) ∘ (Prod.snd ∘ fun p : Nat × Ctx => (p.1, f p.1 p.2)) = (fun c => !c.batch) ∘ Prod.snd :=
    funext fun p => by simp [hb]
  rw [hkeep]
  exact List.map_congr_left fun p _ => hf p.1 p.2

theorem sameWork_mapVals {f : Nat → Ctx → Ctx} (hf : ∀ i c, workOf (f i c) = workOf c) (hc : t.ctxs = s.ctxs.mapVals f)
    (hq : ∀ q, t.heldUp q = s.heldUp q) : SameWork s t where
  packets := by
    rw [← packets_mapVals s hf, State.packets, hc]
    rfl
  held := hq
  found x c h _ := ⟨f x c, by rw [hc, Tab.find_mapVals, h, Option.map_some], hf x c⟩

theorem sameWork_dropBatches (s : State) (f : Ctx → Bool) : SameWork s (s.dropBatches f) where
  packets := by
    have hp : (s.dropBatches f).packets = s.packets := by
      simp only [State.packets, State.dropBatches, Tab.vals, Tab.keep, List.filter_map, List.filter_filter]
      refine congrArg _ (congrArg (List.filter · s.ctxs) (funext fun p => ?_))
      simp only [Function.comp]
      cases p.2.batch <;> simp
    rw [hp]
  held _ := rfl
  found x c h hb :=
    have hkept : (s.dropBatches f).ctxs.find x = some c := by
      unfold State.dropBatches
      exact find_keep (fun _ e => !(e.batch && f e)) h (by simp [hb])
    ⟨c, hkept, rfl⟩

theorem heldUp_mapVals (s : State) {f : Nat → Queue → Queue} (hf : ∀ n y, (f n y).held = y.held) (q : Nat) :
    ({ s with queues := s.queues.mapVals f } : State).heldUp q = s.heldUp q := by
  simp only [State.heldUp, Tab.find_mapVals]
  cases s.queues.find q <;> simp [hf]

theorem sameWork_releaseStreams (s : State) (n : Nat) (b : Bool) : SameWork s (s.releaseStreams n b) := by
  refine (sameWork_dropBatches s fun c => c.slice == n).trans (sameWork_mapVals
    (f := fun _ c => if c.slice = n then { c with pages := 0 } else c) (fun _ c => ?_) rfl (heldUp_mapVals _ fun _ y => ?_))
  · split <;> rfl
  · repeat' split
    all_goals rfl

theorem sameWork_releaseDrained (s : State) : SameWork s s.releaseDrained := by
  have hone : ∀ (t : State) n, SameWork t (t.releaseIdle n) := fun t n => by
    unfold State.releaseIdle
    split
    · exact .refl t
    · dsimp only
      split
      · exact sameWork_releaseStreams ..
      · exact .refl t
  have hall : ∀ (l : Tab Slice) (t : State), SameWork t (l.foldl (fun t p => t.releaseIdle p.1) t) := fun l => by
    induction l with
    | nil => exact fun t => .refl t
    | cons p l ih => exact fun t => (hone t p.1).trans (ih _)
  exact hall s.slices s

theorem sameWork_clearWaits (s : State) : SameWork s s.clearWaits :=
  sameWork_mapVals (f := fun i c => if c.awaits && s.drawReady i c then { c with waitFrom := none } else c)
    (fun _ _ => by split <;> rfl) rfl fun _ => rfl

/-! ## The steps of a tick -/

/-- A state without its work and its units. -/
def besideWork (s : State) : State := { besideUnits s with ctxs := [], queues := [], slices := [] }

theorem besideWork_releaseDrained (s : State) : besideWork s.releaseDrained = besideWork s :=
  foldl_keeps (fun t p => by
    unfold State.releaseIdle
    split
    · rfl
    · dsimp only
      split <;> rfl) _ s

/-- Time has moved on one microsecond. -/
def arrived (s : State) : State :=
  { s with now := s.now + 1, log := s.log.tick, start := { s.start with tokenTicks := s.start.tokenTicks + 1 } }

/-- The caches are swept, drained slices released, waits cleared and hatching ended. -/
def cleared (s : State) : State := (arrived s).sweepKeys.releaseDrained.clearWaits.endHatching

/-- The datum's tick, and the engines and benchmarks that are due with it. -/
def ticked (s : State) : State := ({ cleared s with datum := s.datum.tick }).enginesDue.dueBenchmarks

theorem besideWork_cleared (s : State) : besideWork (cleared s) = besideWork (arrived s).sweepKeys :=
  (read_of_erased (f := besideWork) (besideUnits_endHatching _) fun _ => rfl).trans
    (besideWork_releaseDrained (arrived s).sweepKeys)

theorem besideUnits_ticked (s : State) : besideUnits (ticked s) = besideUnits { cleared s with datum := s.datum.tick } :=
  (besideUnits_dueBenchmarks _).trans (besideUnits_enginesDue _)

theorem SameWork.of_besideUnits (h : besideUnits t = besideUnits s) : SameWork s t :=
  .of_same (read_of_erased (f := State.ctxs) h fun _ => rfl) (read_of_erased (f := State.queues) h fun _ => rfl)

theorem sameWork_cleared (s : State) : SameWork s (cleared s) :=
  have hswept : SameWork s (arrived s).sweepKeys := .of_same rfl rfl
  ((hswept.trans (sameWork_releaseDrained _)).trans (sameWork_clearWaits _)).trans (.of_besideUnits (besideUnits_endHatching _))

theorem sameWork_ticked (s : State) : SameWork s (ticked s) :=
  have hdatum : SameWork (cleared s) { cleared s with datum := s.datum.tick } := .of_same rfl rfl
  ((sameWork_cleared s).trans hdatum).trans (.of_besideUnits (besideUnits_ticked s))

theorem standing_cleared (s : State) : standing (cleared s) = standing (arrived s).sweepKeys :=
  read_of_erased (besideWork_cleared s) fun _ => rfl

theorem standing_ticked (s : State) : standing (ticked s) = { standing (arrived s).sweepKeys with datum := s.datum.tick } := by
  rw [← standing_cleared]
  exact read_of_erased (f := standing) (besideUnits_ticked s) fun _ => rfl

/-- What is read of neither the work, the units nor the datum is as the sweep of the caches leaves it. -/
theorem read_ticked {γ : Type} {f : State → γ} (s : State) (hf : ∀ (t : State) d, f { besideWork t with datum := d } = f t) :
    f (ticked s) = f (arrived s).sweepKeys :=
  have hwork : ∀ t : State, f (besideWork t) = f t := fun t => hf t t.datum
  have hunits : ∀ t : State, f (besideUnits t) = f t := fun t => (hwork (besideUnits t)).symm.trans (hwork t)
  have hdatum : f { cleared s with datum := s.datum.tick } = f (cleared s) := by
    rw [← hf _ s.datum.tick, ← hf (cleared s) s.datum.tick]
    rfl
  (read_of_erased (besideUnits_ticked s) hunits).trans (hdatum.trans (read_of_erased (besideWork_cleared s) hwork))

/-- What a tick boundary leaves. -/
def tickEnd (s : State) : State := if s.start.grat = true then (ticked s).boundaryEnd else cleared s

theorem execTickBoundary_eq (hpower : s.start.vddGood = true) (hset : s.unsettled = false) :
    execTickBoundary s = .next (tickEnd s) := by
  have hgrat : (cleared s).start.grat = s.start.grat := congrArg (fun t => t.start.grat) (standing_cleared s)
  have hdatum : (cleared s).datum = s.datum := congrArg Standing.datum (standing_cleared s)
  have hexec : execTickBoundary s = if (cleared s).start.grat = true then
      .next (({ cleared s with datum := (cleared s).datum.tick }).enginesDue.dueBenchmarks.boundaryEnd) else .next (cleared s) := by
    rw [execTickBoundary, if_neg (by simp [hpower, hset])]
    rfl
  rw [hexec, hgrat, hdatum, tickEnd]
  split <;> rfl

/-- Beside the datum, what stands still while commands end is as the sweep of the caches leaves it. -/
theorem standing_tickEnd (s : State) : standing (tickEnd s) =
    { standing (arrived s).sweepKeys with datum := if s.start.grat = true then s.datum.tick else s.datum } := by
  unfold tickEnd
  split
  · rw [standing_boundaryEnd, standing_ticked]
  · exact standing_cleared s

theorem Recorder.tick_seconds (l : Recorder) :
    l.tick.opTicks + 1000000 * l.tick.opSeconds = l.opTicks + 1000000 * l.opSeconds + 1 := by
  unfold Recorder.tick
  split
  · dsimp only
    omega
  · dsimp only
    omega

/-- What stays in a cache has a live key. -/
theorem resident_sweepKeys (s : State) (r : Nat) (k : Residency) (h : k ∈ s.sweepKeys.keys.resident.getD r []) :
    (s.liveKey k.handle).isSome = true := by
  simp only [State.sweepKeys, Tab.getD, Tab.find_mapVals] at h
  cases hr : s.keys.resident.find r with
  | none => simp [hr] at h
  | some l =>
    simp only [hr, Option.map_some, Option.getD_some, List.mem_filter] at h
    exact h.2

/-! ## Deadlines (R58) -/

theorem refuse_finished (h : s.ctxs.find x = some c) (hp : c.phase = .finished) : s.refuse x st = s :=
  s.refuse_decided st h (by rw [hp]; rfl)

/-- The sweep finishes a waiting packet whose deadline is decided. -/
theorem deadlineSweep_finishes (h : s.ctxs.find x = some c) (hw : c.phase = .waiting) (hb : c.batch = false)
    (hdead : s.deadlineOf c = some st) : ∃ d, s.deadlineSweep.ctxs.find x = some d ∧ d.phase = .finished := by
  have hends : ∀ (l : Tab Ctx) (t : State),
      Ends t (l.foldl (fun t p => match s.deadlineOf p.2 with | some st => t.refuse p.1 st | none => t) t) := fun l t =>
    ends_foldl _ _ (fun t p => by
      split
      · exact ends_refuse ..
      · exact .refl t) t
  obtain ⟨before, after, hlist⟩ := List.append_of_mem (mem_of_find h)
  unfold State.deadlineSweep
  rw [hlist, List.foldl_append, List.foldl_cons]
  obtain ⟨d, hd, hcd⟩ := (hends before s).ctxs x c h hb
  obtain ⟨hdb, hphase⟩ := hcd hb
  generalize List.foldl _ s before = t at hd
  simp only [hdead]
  obtain ⟨e, he, hfin, heb⟩ : ∃ e, (t.refuse x st).ctxs.find x = some e ∧ e.phase = .finished ∧ e.batch = false := by
    rcases hphase with hfin | ⟨hsame, -, -⟩
    · exact ⟨d, by rwa [refuse_finished hd hfin], hfin, hdb⟩
    · obtain ⟨e, he, hfin⟩ := find_refuse hd (by rw [hsame, hw]; rfl) hdb st
      exact ⟨e, he, hfin, ((ends_refuse t x st).ctxs x d hd hdb).elim fun e' h' => by
        cases he.symm.trans h'.1
        exact (h'.2 hdb).1⟩
  obtain ⟨e', he', hfin', -⟩ := finished_of_ends (hends after _) he heb hfin
  exact ⟨e', he', hfin'⟩

theorem debugRights_ctxs (s : State) : s.debugRights.ctxs = s.ctxs := by
  unfold State.debugRights
  repeat' split
  all_goals rfl

/-- At a settled boundary a command whose deadline has been reached is decided. -/
theorem boundaryEnd_misses (h : s.ctxs.find x = some c) (hw : c.phase = .waiting) (hb : c.batch = false)
    (hset : s.unsettled = false) (hserv : s.serving = true) (hfree : s.blocked c = false)
    (htb : c.timeBound = true) (hn : noDatumTest c.opcode = false) (hst : s.datum.st = .trusted)
    (hd : c.deadline ≤ s.datum.v + s.unc) : ∃ d, s.boundaryEnd.ctxs.find x = some d ∧ d.phase = .finished := by
  rw [State.boundaryEnd, hset, if_neg (by decide), if_pos hserv, debugRights_ctxs]
  have hdead : s.deadlineOf c = some 0x0402 := by
    simp [State.deadlineOf, hw, hfree, deadlineTest_missed htb hn hst hd]
  exact deadlineSweep_finishes h hw hb hdead

/-! ## The boundary -/

theorem Datum.tick_st (d : Datum) : d.tick.st = d.st := by
  unfold Datum.tick
  split <;> rfl

theorem Datum.tick_of_not_unset {d : Datum} (h : d.st ≠ .unset) : d.tick = { d with
    v := d.v + 1000, lo := d.lo + 1000, hi := d.hi + 1000, since := d.since + 1
    widenDue := decide ((d.since + 1) % 50 = 0) } := if_neg h

/-- The commands at a boundary whose deadlines V + U has reached. -/
theorem tickEnd_misses (hgrat : s.start.grat = true) (hst : s.start.stage = 0x0C) (hsafe : s.integ.safe = false)
    (htrust : s.datum.st = .trusted) (htok : s.datum.tokens = []) (href : s.datum.refine = []) (hbumps : s.keys.bumps = [])
    (hwiden : (s.datum.since + 1) % 50 ≠ 0) (h : s.ctxs.find x = some c) (hw : c.phase = .waiting) (hb : c.batch = false)
    (hfree : s.blocked c = false) (htb : c.timeBound = true) (hn : noDatumTest c.opcode = false)
    (hd : c.deadline ≤ s.datum.tick.v + s.datum.tick.unc) : ∃ d, (tickEnd s).ctxs.find x = some d ∧ d.phase = .finished := by
  have hdatum : (ticked s).datum = s.datum.tick := read_of_erased (f := State.datum) (besideUnits_ticked s) fun _ => rfl
  have hstage : (ticked s).start.stage = s.start.stage := read_ticked (f := fun t => t.start.stage) s fun _ _ => rfl
  have hsafe' : (ticked s).integ.safe = s.integ.safe := read_ticked (f := fun t => t.integ.safe) s fun _ _ => rfl
  have hbumps' : (ticked s).keys.bumps = s.keys.bumps := read_ticked (f := fun t => t.keys.bumps) s fun _ _ => rfl
  have htick := Datum.tick_of_not_unset (d := s.datum) (by rw [htrust]; decide)
  have hset : (ticked s).unsettled = false := by
    simp [State.unsettled, hdatum, htick, hbumps', hbumps, htok, href, hwiden]
  obtain ⟨d, hfind, hdc⟩ := (sameWork_ticked s).found x c h hb
  have hkeep : ∀ {γ : Type} (f : Ctx → γ), (∀ e, f (workOf e) = f e) → f d = f c := fun f hf => by rw [← hf, hdc, hf]
  unfold tickEnd
  rw [if_pos hgrat]
  refine boundaryEnd_misses hfind ((hkeep Ctx.phase fun _ => rfl).trans hw) ((batch_of_work hdc).trans hb) hset
    (serving_of_stage (hstage.trans hst) (hsafe'.trans hsafe)) (((sameWork_ticked s).blocked hdc).trans hfree)
    ((hkeep Ctx.timeBound fun _ => rfl).trans htb) ?_ ?_ ?_
  · rw [hkeep Ctx.opcode fun _ => rfl, hn]
  · rw [hdatum, Datum.tick_st, htrust]
  · rw [hkeep Ctx.deadline fun _ => rfl, State.unc, hdatum]
    exact hd

/-- Settles O12: what stands while commands end is read off `standing_tickEnd`; the deadline is the sweep's. -/
theorem tickBoundary : Obligations.TickBoundary := by
  intro s hpower hset
  have hstand := standing_tickEnd s
  have hdatum : (tickEnd s).datum = if s.start.grat = true then s.datum.tick else s.datum := congrArg Standing.datum hstand
  have hprep : (tickEnd s).keys.prepared = (arrived s).sweepKeys.keys.prepared := congrArg Standing.prepared hstand
  have hmce : (tickEnd s).keys.mceCache = (arrived s).sweepKeys.keys.mceCache := congrArg Standing.mceCache hstand
  have hres : (tickEnd s).keys.resident = (arrived s).sweepKeys.keys.resident := congrArg Standing.resident hstand
  have hticks : (tickEnd s).log.opTicks = s.log.tick.opTicks := congrArg Standing.opTicks hstand
  have hseconds : (tickEnd s).log.opSeconds = s.log.tick.opSeconds := congrArg Standing.opSeconds hstand
  refine ⟨tickEnd s, execTickBoundary_eq hpower hset, congrArg Standing.now hstand,
    congrArg (fun t => t.start.tokenTicks) hstand, ?_, ?_, fun k hk => ?_, fun r k hk => ?_, ?_⟩
  · rw [hticks, hseconds, Recorder.tick_seconds]
  · rw [hdatum]
    cases s.start.grat with
    | false => rfl
    | true => rfl
  · rw [hprep, hmce, State.sweepKeys, ← List.filter_append] at hk
    exact (List.mem_filter.mp hk).2
  · rw [hres] at hk
    exact resident_sweepKeys (arrived s) r k hk
  · intro hgrat hst hsafe htrust htok href hbumps hwiden x c hc hw hb hfree htb hn hd
    rw [State.unc, hdatum, if_pos hgrat] at hd
    exact tickEnd_misses hgrat hst hsafe htrust htok href hbumps hwiden hc hw hb hfree htb hn hd

end

end Sys2Proof.Proofs
end

section
/-! # Benchmarks and hatching (R52 to R55, R362, R363) -/

namespace Sys2Proof.Proofs

open Sys2Proof Sys2Proof.Machine Sys2Proof.Claims

section
variable {s : State} {u p fam : Nat}

/-! ## Benchmarks -/

/-- A draw leaves the units as they are. -/
theorem unitSt_drawFor (s : State) (d u n v : Nat) : (s.drawFor d u n).unitSt v = s.unitSt v := by
  obtain ⟨f, g, k, h⟩ := s.drawFor_frame d u n
  rw [h]
  rfl

/-- The unit that a benchmark runs on. -/
theorem unitSt_startBench (h : s.hatchSeeded u = true) (p : Nat) (b : Bool) : (s.startBench u p b).unitSt u =
    { s.unitSt u with job := .bench p b, ends := s.now + (setRow p).bench, lastBench := s.now
                      benched := (s.unitSt u).benched.put (famOf p) s.now } := by
  rw [State.startBench, if_neg (by simp [h]), State.unitSt_setUnit, unitSt_drawFor]

theorem execBenchmarkLaunch_confirm (hu : u < 104) (hserv : s.serving = true) (hgrat : s.start.grat = true)
    (hj : (s.unitSt u).job = .bench p true) (he : (s.unitSt u).ends = 0) (hf : famOf p = fam) (hw : s.working u = true) :
    execBenchmarkLaunch u fam s = .next (s.startBench u p true) := by
  simp [execBenchmarkLaunch, Nat.not_le.mpr hu, hserv, hgrat, hj, he, hf, hw]

theorem execBenchmarkLaunch_first (hu : u < 104) (hserv : s.serving = true) (hgrat : s.start.grat = true)
    (hj : ∀ p, (s.unitSt u).job ≠ .bench p true) (hm : s.mayLaunch u = true) (hfree : s.jobFree u = true)
    (hl : unitKind u < 2 ∨ s.lanesFree u = true) (hf : famOf ((s.unitSt u).currentSet u) = fam) :
    execBenchmarkLaunch u fam s = .next (s.startBench u ((s.unitSt u).currentSet u) false) := by
  rw [execBenchmarkLaunch, if_neg (Nat.not_le.mpr hu), if_neg (by simp [hserv, hgrat])]
  dsimp only
  split
  · next p h => exact absurd h (hj p)
  · have hlanes : (decide (unitKind u < 2) || s.lanesFree u) = true := by simpa using hl.imp_left Nat.le_of_lt_succ
    rw [if_pos (by simp only [hm, hfree, hlanes, hf, beq_self_eq_true, Bool.and_self])]

theorem execBenchmarkComplete_bench {confirm : Bool} (hu : u < 104) (hj : (s.unitSt u).job = .bench p confirm)
    (h0 : (s.unitSt u).ends ≠ 0) (hend : (s.unitSt u).ends ≤ s.now) (ok : Bool) : execBenchmarkComplete u ok s = .next (
      let b := s.clearSheet u
      if ok then
        if confirm then (b.setUnit u fun x => { x with job := .idle, mode := .suspect }).charge u 6
        else b.setUnit u fun x => { x with job := .idle, needBench := false }
      else if confirm then b.mismatch u fun x => { x with job := .idle, needBench := false }
      else b.mismatch u fun x => { x with job := .bench p true, ends := 0, mode := .confirming, needBench := true }) := by
  have hdue : ¬ ((s.unitSt u).ends = 0 ∨ s.now < (s.unitSt u).ends) := by omega
  rw [execBenchmarkComplete, if_neg (Nat.not_le.mpr hu)]
  simp only [hj, if_neg hdue]
  cases ok <;> cases confirm <;> rfl

/-! ## Hatching -/

theorem find_foldl_put {α : Type} (v : Nat → α) {a : Nat} (l : List Nat) (t : Tab α) :
    (l.foldl (fun t k => t.put k (v k)) t).find a = if a ∈ l then some (v a) else t.find a := by
  induction l generalizing t with
  | nil => simp
  | cons k l ih =>
    rw [List.foldl_cons, ih]
    by_cases hk : a = k
    · simp [hk]
    · simp [hk, Tab.find_put_ne t _ hk]

/-- Each lane of a pipe hatches with it. -/
theorem hatchLanes_lane (hu : 2 ≤ unitKind u) (x : UnitSt) (now : Nat) {l : Nat} (hl : l < 8) :
    (x.hatchLanes u now).getD l Lane.reset = { x.lane l with hatchedAt := some now } := by
  rw [UnitSt.hatchLanes, if_neg (by omega), Tab.getD, find_foldl_put, if_pos (List.mem_range.mpr hl)]
  rfl

theorem unitSt_hatch (s : State) (u : Nat) : (s.hatch u).unitSt u =
    { s.unitSt u with job := .hatch, ends := s.now + 1, hatchedAt := some s.now
                      hatching := some (s.hatchSet u (drawBytes s.free 32)), lanes := (s.unitSt u).hatchLanes u s.now } := by
  rw [State.hatch, State.unitSt_setUnit, unitSt_drawFor]

theorem hatchSet_current (b : Bytes) (h : unitKind u ≠ 0 ∨ s.loadedSets (famOf ((s.unitSt u).currentSet u)) = []) :
    s.hatchSet u b = (s.unitSt u).currentSet u := by
  unfold State.hatchSet
  dsimp only
  rcases h with h | h
  · exact if_pos h
  · rw [h]
    exact ite_self _

theorem hatchSet_loaded (b : Bytes) (hk : unitKind u = 0) (h : s.loadedSets (famOf ((s.unitSt u).currentSet u)) ≠ []) :
    s.hatchSet u b ∈ s.loadedSets (famOf ((s.unitSt u).currentSet u)) := by
  have hlt := Nat.mod_lt (leNat b) (List.length_pos_iff.mpr h)
  rw [State.hatchSet, if_neg (by simp [hk])]
  dsimp only
  rw [List.getD_eq_getElem _ _ hlt]
  exact List.getElem_mem hlt

/-- Settles O16, clause by clause over the launch, the end and the hatching of a unit. -/
theorem benchmarksAndHatching : Obligations.BenchmarksAndHatching := by
  refine ⟨fun u fam s hu hst hsafe hgrat hseed => ⟨fun p hj he hf hw => ?_, fun hj hm hfree hl hf => ?_⟩,
    fun u p confirm s hu hj h0 hend => ⟨?_, ?_⟩, fun u s hu hflat hst hsafe hset hfree hseed hneed hscrub hdue hwork => ?_⟩
  · refine ⟨_, execBenchmarkLaunch_confirm hu (serving_of_stage hst hsafe) hgrat hj he hf hw, ?_⟩
    rw [unitSt_startBench hseed]
    exact ⟨rfl, rfl⟩
  · refine ⟨_, execBenchmarkLaunch_first hu (serving_of_stage hst hsafe) hgrat hj hm hfree hl hf, ?_⟩
    rw [unitSt_startBench hseed, ← hf]
    exact ⟨rfl, rfl, rfl, Tab.find_put_same ..⟩
  · rintro rfl
    exact ⟨execBenchmarkComplete_bench hu hj h0 hend true, execBenchmarkComplete_bench hu hj h0 hend false⟩
  · rintro rfl
    exact ⟨execBenchmarkComplete_bench hu hj h0 hend true, execBenchmarkComplete_bench hu hj h0 hend false⟩
  · have hmay : s.mayHatch u = true := by
      simp [State.mayHatch, serving_of_stage hst hsafe, hset, hflat, hfree, hseed, hneed, hscrub, hdue, hwork]
    have hexec : execHatchingLaunch u s = .next (s.hatch u) := by
      rw [execHatchingLaunch, if_neg (Nat.not_le.mpr hu), if_pos hmay]
    refine ⟨_, hexec, ?_⟩
    rw [unitSt_hatch]
    refine ⟨rfl, drawFor_free .., rfl, rfl, fun h => congrArg some (hatchSet_current _ h),
      fun hk h => ⟨_, hatchSet_loaded _ hk h, rfl⟩, fun hk l hl => ?_⟩
    rw [UnitSt.lane, hatchLanes_lane hk _ _ hl]

end

end Sys2Proof.Proofs
end

section
/-! # A part goes to its unit (R49 to R56, R101, R143, R206) -/

namespace Sys2Proof.Proofs

open Sys2Proof Sys2Proof.Machine Sys2Proof.Claims

section
variable {s t : State} {i x u k n retries : Nat} {c d : Ctx} {p : Part}

/-! ## The start of a part -/

theorem reserveLane_frame (s : State) (i r : Nat) (b : Bytes) :
    ∃ k q x, s.reserveLane i r b = { s with keys := k, queues := q, units := x } := by
  unfold State.reserveLane
  split
  · exact ⟨_, _, _, rfl⟩
  · next u l _ =>
    obtain ⟨k, q, x, h⟩ := s.saveLane_frame u l
    rw [h]
    exact ⟨_, _, _, rfl⟩

/-- A command with the shares that it takes in a region. -/
def sharing (s : State) (c : Ctx) (r : Nat) : Ctx := { c with shares := s.takeShares c r }

/-- What a part needs is drawn, reserved and loaded, before its unit takes it. -/
def readied (s : State) (i u : Nat) (c : Ctx) (p : Part) : State :=
  let t := s.drawFor (unitRegion u) u p.draws
  let c := sharing t c (unitRegion u)
  let t := if c.laneFor p then t.reserveLane i (unitRegion u) (t.laneHash c p.fam (drawBytes s.free p.draws)) else t
  (t.loadEngine c u p.fam (drawBytes s.free p.draws) (p.draws != 0)).touchKeys c

theorem readied_frame (s : State) (i u : Nat) (c : Ctx) (p : Part) : ∃ f g n k q x e, readied s i u c p =
    { s with free := f, rng := g, cores := n, keys := k, queues := q, units := x, engines := e } := by
  obtain ⟨f, g, n, hd⟩ := s.drawFor_frame (unitRegion u) u p.draws
  unfold readied
  rw [hd]
  dsimp only
  split
  · obtain ⟨k, q, x, hr⟩ := reserveLane_frame { s with free := f, rng := g, cores := n } i (unitRegion u)
      (State.laneHash { s with free := f, rng := g, cores := n }
        (sharing { s with free := f, rng := g, cores := n } c (unitRegion u)) p.fam (drawBytes s.free p.draws))
    rw [hr]
    obtain ⟨e, he⟩ := State.loadEngine_frame (s := { s with free := f, rng := g, cores := n, keys := k, queues := q, units := x })
      (sharing { s with free := f, rng := g, cores := n } c (unitRegion u)) u p.fam (drawBytes s.free p.draws) (p.draws != 0)
    rw [he]
    exact ⟨_, _, _, _, _, _, _, rfl⟩
  · obtain ⟨e, he⟩ := State.loadEngine_frame (s := { s with free := f, rng := g, cores := n })
      (sharing { s with free := f, rng := g, cores := n } c (unitRegion u)) u p.fam (drawBytes s.free p.draws) (p.draws != 0)
    rw [he]
    exact ⟨_, _, _, _, _, _, _, rfl⟩

/-- Part `p` as it runs on a unit until `e`. -/
structure RunsOn (p q : Part) (u retries e : Nat) : Prop where
  phase : q.phase = .running
  unit : q.unit = some u
  unchecked : q.checkUnit = none
  kind : q.kind = p.kind
  fam : q.fam = p.fam
  retries : q.retries = retries
  ends : q.ends = e

/-- A command of which part `k` starts as `q`, with the shares `l` of the region. -/
def startedCtx (r now k : Nat) (q : Part) (l : Ctx → List Residency) (c : Ctx) : Ctx :=
  { c with parts := q :: c.parts.eraseIdx k, phase := .running, region := r, progress := now, result := none
           waitFrom := none, shares := l c }

theorem startPart_eq (h : s.ctxs.find i = some c) (k u : Nat) (p : Part) (retries : Nat) :
    ∃ q e l, RunsOn p q u retries e ∧ s.startPart i k u p retries =
      ((readied s i u c p).setUnit u fun x => x.takes (.op i) e p.fam).setCtx i
        (startedCtx (unitRegion u) (readied s i u c p).now k q l) := by
  have hnow : (s.drawFor (unitRegion u) u p.draws).now = (readied s i u c p).now := by
    obtain ⟨f, g, n, hd⟩ := s.drawFor_frame (unitRegion u) u p.draws
    obtain ⟨f', g', n', ks, qs, y, e, hr⟩ := readied_frame s i u c p
    rw [hd, hr]
  unfold State.startPart
  rw [h]
  refine ⟨_, _, _, ?_, rfl⟩
  exact ⟨rfl, rfl, rfl, rfl, rfl, rfl, congrArg (· + _) hnow⟩

/-- The part runs on its unit, and LAUNCH is as it was. -/
theorem startPart_runs (h : s.ctxs.find i = some c) (k u : Nat) (p : Part) (retries : Nat) :
    PartOn (s.startPart i k u p retries) i u p retries ∧ ∃ d, (s.startPart i k u p retries).ctxs.find i = some d ∧
      d.launchV = c.launchV ∧ d.launchTick = c.launchTick ∧ d.startUnc = c.startUnc ∧ d.startSt = c.startSt := by
  obtain ⟨q, till, l, hq, hs⟩ := startPart_eq h k u p retries
  obtain ⟨f, g, n, ks, qs, y, e, hr⟩ := readied_frame s i u c p
  have hfind : ((readied s i u c p).setUnit u fun x => x.takes (.op i) till p.fam).ctxs.find i = some c := by
    rw [hr]
    exact h
  have hctx := find_setCtx_some (f := startedCtx (unitRegion u) (readied s i u c p).now k q l) hfind
  have hunit : (s.startPart i k u p retries).unitSt u = ((readied s i u c p).unitSt u).takes (.op i) till p.fam := by
    rw [hs, unitSt_setCtx, State.unitSt_setUnit]
  rw [← hs] at hctx
  refine ⟨⟨by rw [hunit]; rfl, _, q, _, hctx, rfl, rfl, rfl, rfl, hq.phase, hq.unit, hq.unchecked, hq.kind, hq.fam,
    hq.retries, ?_⟩, _, hctx, rfl, rfl, rfl, rfl⟩
  rw [hunit, hq.ends]
  rfl

/-! ## What launches leave of turns and weights (R101) -/

/-- The turns kept, and the weight of a slice. -/
def fairness (n : Nat) (s : State) : Tab (List Turn) × Nat := (s.turns, s.weightOf n)

theorem fairness_of_same (ht : t.turns = s.turns) (hs : t.slices = s.slices) : fairness n t = fairness n s := by
  rw [fairness, State.weightOf, ht, hs, fairness, State.weightOf]

theorem weightOf_setSlice (s : State) (m : Nat) {f : Slice → Slice} (hf : ∀ y, (f y).weight = y.weight) (n : Nat) :
    (s.setSlice m f).weightOf n = s.weightOf n := by
  unfold State.weightOf State.setSlice
  by_cases h : n = m
  · subst h
    simp only [Tab.find_modify_same]
    cases s.slices.find n <;> simp [hf]
  · simp only [Tab.find_modify_ne _ _ h]

theorem fairness_setSlice (s : State) (m : Nat) {f : Slice → Slice} (hf : ∀ y, (f y).weight = y.weight) (n : Nat) :
    fairness n (s.setSlice m f) = fairness n s := by
  rw [fairness, weightOf_setSlice s m hf]
  rfl

theorem fairness_unheeding (n : Nat) : Unheeding (fairness n) :=
  ⟨fun _ _ => rfl, fun _ _ => rfl, fun _ _ => rfl, fun s m _ => fairness_setSlice s m (by intro; rfl) n, fun _ _ _ _ => rfl⟩

theorem fairness_refuse (s : State) (i st n : Nat) : fairness n (s.refuse i st) = fairness n s :=
  (fairness_unheeding n).refuse s i st

theorem fairness_failWith (s : State) (i st n : Nat) : fairness n (s.failWith i st) = fairness n s :=
  (fairness_unheeding n).conclude s i _

theorem fairness_withhold (s : State) (i k n : Nat) : fairness n (s.withhold i k) = fairness n s := by
  unfold State.withhold
  split
  · rfl
  · split
    · rfl
    · split
      · exact fairness_failWith ..
      · split
        · exact fairness_failWith ..
        · rfl

theorem fairness_startBench (s : State) (u p : Nat) (b : Bool) (n : Nat) :
    fairness n (s.startBench u p b) = fairness n s := by
  have h := besideUnits_startBench s u p b
  exact fairness_of_same (read_of_erased (f := State.turns) h fun _ => rfl) (read_of_erased (f := State.slices) h fun _ => rfl)

theorem fairness_startPart (s : State) (i k u : Nat) (p : Part) (retries n : Nat) :
    fairness n (s.startPart i k u p retries) = fairness n s := by
  cases h : s.ctxs.find i with
  | none => rw [State.startPart, h]
  | some c =>
    obtain ⟨q, till, l, -, hs⟩ := startPart_eq h k u p retries
    obtain ⟨f, g, m, ks, qs, y, e, hr⟩ := readied_frame s i u c p
    rw [hs, hr]
    rfl

theorem fairness_startCheck (s : State) (i k u : Nat) (c : Ctx) (p : Part) (n : Nat) :
    fairness n (s.startCheck i k u c p) = fairness n s := by
  obtain ⟨f, g, m, hd⟩ := s.drawFor_frame (unitRegion u) u p.checkDraws
  unfold State.startCheck
  rw [hd]
  dsimp only
  obtain ⟨e, he⟩ := State.loadEngine_frame (s := { s with free := f, rng := g, cores := m }) c u p.fam
    (drawBytes s.free p.checkDraws) (p.checkDraws != 0)
  rw [he]
  rfl

theorem fairness_onUnit {draws lane : Bool} {piece set : Nat} {go : State → State} (h : fairness n (go s) = fairness n s)
    (i u : Nat) : fairness n (s.onUnit i u draws lane piece set go) = fairness n s := by
  cases hd : (if draws then s.drawState (unitRegion u) else DrawState.serves)
  all_goals simp only [State.onUnit, hd]
  case waits => rfl
  case serves =>
    cases lane with
    | false => rfl
    | true =>
      cases hb : s.benchFirst u piece set with
      | none => exact h
      | some b => exact fairness_startBench s u b false n

/-! ## The tests at a launch (R143, R167) -/

theorem fairness_chargeSlice {op m : Nat} (h : s.chargeSlice op m = .ok t) : fairness n t = fairness n s := by
  unfold State.chargeSlice at h
  dsimp only at h
  repeat' split at h
  all_goals cases h
  · rfl
  · rfl
  · exact fairness_setSlice s m (by intro; rfl) n
  · exact fairness_setSlice s m (by intro; rfl) n

/-- The tests of keys and quotas charge, in this order, the keys and the slice. -/
theorem keyTests_charges (h : s.keyTests c = .ok t) : ∃ k, State.chargeSlice { s with keys := k } c.opcode c.slice = .ok t := by
  unfold State.keyTests at h
  split at h
  · cases h
  · split at h
    · cases h
    · split at h
      · cases h
      · next s1 h1 =>
        split at h
        · cases h
        · next s2 h2 =>
          obtain ⟨k1, rfl⟩ := chargeKey_frame h1
          obtain ⟨k2, rfl⟩ := chargeKey_frame h2
          exact ⟨k2, h⟩

/-- What the tests at a launch leave: the datum and the time, the turns and weights, and the command with its LAUNCH. -/
structure Passed (s t : State) (i n : Nat) : Prop where
  now : t.now = s.now
  datum : t.datum = s.datum
  fair : fairness n t = fairness n s
  found : ∀ c, s.ctxs.find i = some c → ∃ d, t.ctxs.find i = some d

theorem passed_reserveFor (h : s.reserveFor i c = some t) (n : Nat) : Passed s t i n := by
  obtain ⟨k, rfl | ⟨h, rfl⟩⟩ := reserveFor_frame h
  · exact ⟨rfl, rfl, rfl, fun c hc => ⟨c, hc⟩⟩
  · exact ⟨rfl, rfl, rfl, fun c hc => ⟨_, find_setCtx_some hc⟩⟩

theorem Passed.trans {r : State} (h : Passed s t i n) (k : Passed t r i n) : Passed s r i n :=
  ⟨k.now.trans h.now, k.datum.trans h.datum, k.fair.trans h.fair, fun c hc => (h.found c hc).elim k.found⟩

theorem passed_keyTests (h : s.keyTests c = .ok t) (i n : Nat) : Passed s t i n := by
  obtain ⟨k, hk⟩ := keyTests_charges h
  obtain ⟨y, hy⟩ := chargeSlice_frame hk
  have hfair : fairness n t = fairness n s := (fairness_chargeSlice hk).trans rfl
  subst hy
  exact ⟨rfl, rfl, hfair, fun c hc => ⟨c, hc⟩⟩

theorem passed_leaf (s : State) (i m h n : Nat) :
    Passed s ((s.setCtx i fun c => { c with leaf := some m }).assignLeaf h) i n := by
  obtain ⟨y, hy⟩ := State.assignLeaf_frame (s := s.setCtx i fun c => { c with leaf := some m }) h
  rw [hy]
  exact ⟨rfl, rfl, rfl, fun c hc => ⟨_, find_setCtx_some hc⟩⟩

theorem gate_passed (h : s.gate i c = .passed t) (n : Nat) : Passed s t i n := by
  unfold State.gate at h
  split at h
  · cases h
  · next s1 h1 =>
    split at h
    · cases h
    · dsimp only at h
      split at h
      · cases h
      · cases h
      · next m _ =>
        split at h
        · cases h
        · next s2 h2 =>
          cases h
          refine (passed_keyTests h1 i n).trans (.trans ?_ (passed_reserveFor h2 n))
          split
          · exact passed_leaf ..
          · exact ⟨rfl, rfl, rfl, fun c hc => ⟨c, hc⟩⟩

theorem anchorReserve_frame (s : State) (c : Ctx) : ∃ k, s.anchorReserve c = { s with keys := k } := by
  unfold State.anchorReserve
  split
  · split <;> exact ⟨_, rfl⟩
  · exact ⟨_, rfl⟩

theorem find_markLaunch (h : s.ctxs.find i = some d) : ∃ e, (s.markLaunch i).ctxs.find i = some e ∧
    e.launchV = s.datum.v ∧ e.launchTick = s.now ∧ e.startUnc = s.unc ∧ e.startSt = s.datum.st :=
  ⟨_, find_setCtx_some h, rfl, rfl, rfl, rfl⟩

/-- The command that has passed its tests, marked with LAUNCH, starts its part. -/
def launchPart (t : State) (i k u : Nat) (c : Ctx) (parts : List Part) (p : Part) : State :=
  (((t.anchorReserve c).setCtx i fun c => { c with parts := parts }).markLaunch i).startPart i k u p 0

theorem fairness_launchPart (t : State) (i k u : Nat) (c : Ctx) (parts : List Part) (p : Part) (n : Nat) :
    fairness n (launchPart t i k u c parts p) = fairness n t := by
  obtain ⟨g, h⟩ := anchorReserve_frame t c
  rw [launchPart, fairness_startPart, h]
  rfl

theorem launchPart_runs (h : t.ctxs.find i = some d) (k u : Nat) (c : Ctx) (parts : List Part) (p : Part) :
    PartOn (launchPart t i k u c parts p) i u p 0 ∧ ∃ e, (launchPart t i k u c parts p).ctxs.find i = some e ∧
      e.launchV = t.datum.v ∧ e.launchTick = t.now ∧ e.startUnc = t.unc ∧ e.startSt = t.datum.st := by
  obtain ⟨g, hg⟩ := anchorReserve_frame t c
  have hd : (t.anchorReserve c).ctxs.find i = some d := by
    rw [hg]
    exact h
  obtain ⟨m, hm, hv, ht, hunc, hst⟩ := find_markLaunch (find_setCtx_some (f := fun c => { c with parts := parts }) hd)
  obtain ⟨hon, e, he, hev, het, heunc, hest⟩ := startPart_runs hm k u p 0
  have hsame : (t.anchorReserve c).datum = t.datum ∧ (t.anchorReserve c).now = t.now := by
    rw [hg]
    exact ⟨rfl, rfl⟩
  refine ⟨hon, e, he, hev.trans (hv.trans ?_), het.trans (ht.trans hsame.2), heunc.trans (hunc.trans ?_),
    hest.trans (hst.trans (congrArg Datum.st hsame.1))⟩
  · exact congrArg Datum.v hsame.1
  · exact congrArg Datum.unc hsame.1

/-! ## A launch keeps turns and weights -/

theorem fairness_firstLaunch (s : State) (i u : Nat) (c : Ctx) (n : Nat) : fairness n (s.firstLaunch i u c) = fairness n s := by
  unfold State.firstLaunch
  dsimp only
  split
  · rfl
  · split
    · exact fairness_refuse ..
    · split
      · exact fairness_refuse ..
      · split
        · exact fairness_refuse ..
        · rfl
        · split
          · rfl
          · split
            · rfl
            · split
              · exact fairness_refuse ..
              · split
                · rfl
                · refine fairness_onUnit ?_ i u
                  split
                  · exact fairness_refuse ..
                  · rfl
                  · next t ht => exact (fairness_launchPart ..).trans (gate_passed ht n).fair

theorem fairness_laterLaunch (s : State) (i u : Nat) (c : Ctx) (n : Nat) : fairness n (s.laterLaunch i u c) = fairness n s := by
  unfold State.laterLaunch
  dsimp only
  repeat' split
  any_goals rfl
  · exact fairness_failWith ..
  · exact fairness_failWith ..
  · exact fairness_onUnit (fairness_startPart ..) i u

theorem fairness_launchOn (s : State) (i u n : Nat) : fairness n (s.launchOn i u) = fairness n s := by
  unfold State.launchOn
  repeat' split
  any_goals rfl
  · exact fairness_firstLaunch ..
  · exact fairness_laterLaunch ..

theorem fairness_checkOn (s : State) (i u n : Nat) : fairness n (s.checkOn i u) = fairness n s := by
  unfold State.checkOn State.tryCheck
  dsimp only
  repeat' split
  any_goals rfl
  · exact fairness_withhold ..
  · exact fairness_failWith ..
  · exact fairness_onUnit (fairness_startCheck ..) i u
  · exact fairness_onUnit (fairness_startCheck ..) i u

theorem fairness_rerunOn (s : State) (i u n : Nat) : fairness n (s.rerunOn i u) = fairness n s := by
  unfold State.rerunOn State.tryRerun
  dsimp only
  repeat' split
  any_goals rfl
  · exact fairness_failWith ..
  · exact fairness_failWith ..
  · exact fairness_onUnit (fairness_startPart ..) i u

/-! ## Turns (R101) -/

theorem turnOf_slice (l : List Turn) (active : List Nat) (n : Nat) : (turnOf l active n).slice = n := by
  unfold turnOf
  split
  · next t h => simpa using List.find?_some h
  · rfl

/-- The turns after a launch has been served: only the slice served has its own, and it counts what the launch took. -/
theorem tookTurn_served {slice q r k ticks : Nat} {others : List (Nat × Nat)} {y : Turn}
    (hy : y ∈ Tab.getD (s.tookTurn slice q r k ticks others).turns (4 * r + k) []) (hs : y.slice = slice) :
    y.queue = q ∧
      y.time = (turnOf (s.turnsOf r k) (slice :: others.map Prod.fst) slice).time + ticks * 2 ^ 20 / s.weightOf slice := by
  rw [State.tookTurn, Tab.getD, Tab.find_put_same] at hy
  rcases List.mem_cons.mp hy with rfl | hy
  · exact ⟨rfl, rfl⟩
  · obtain ⟨m, hm, rfl⟩ := List.mem_map.mp hy
    have hne : m ≠ slice := by simpa using (List.mem_filter.mp hm).2
    exact absurd ((turnOf_slice ..).symm.trans hs) hne

/-- A launch attempt that keeps turns and weights, taken in turn. -/
theorem cmdTurn_turns (h : s.ctxs.find x = some c) (ht : fairness c.slice t = fairness c.slice s) :
    (s.launched t x = 0 → s.cmdTurn x u t = t) ∧
    (s.launched t x ≠ 0 → s.myTurn c.slice c.q (unitRegion u) (unitKind u) = false → s.cmdTurn x u t = s) ∧
    (s.launched t x ≠ 0 → s.myTurn c.slice c.q (unitRegion u) (unitKind u) = true → ∃ l, s.cmdTurn x u t = { t with turns := l } ∧
      ∀ y : Turn, y ∈ Tab.getD l (4 * unitRegion u + unitKind u) [] → y.slice = c.slice → y.queue = c.q ∧ y.time =
        (turnOf (s.turnsOf (unitRegion u) (unitKind u))
          (c.slice :: (s.rivals c.slice c.q (unitRegion u) (unitKind u)).map Prod.fst) c.slice).time +
        s.launched t x * 2 ^ 20 / s.weightOf c.slice) := by
  simp only [State.cmdTurn, h, State.inTurn]
  refine ⟨fun h0 => if_pos h0, fun h0 hm => ?_, fun h0 hm => ?_⟩
  · rw [if_neg h0, hm]
    rfl
  · obtain ⟨hturns, hweight⟩ := Prod.ext_iff.mp ht
    have hlist : t.turnsOf (unitRegion u) (unitKind u) = s.turnsOf (unitRegion u) (unitKind u) := congrArg (Tab.getD · _ []) hturns
    rw [if_neg h0, if_pos hm]
    refine ⟨_, rfl, fun y hy hs => ?_⟩
    obtain ⟨hqueue, htime⟩ := tookTurn_served hy hs
    rw [hlist] at htime
    exact ⟨hqueue, htime.trans (congrArg (fun w => _ + _ / w) hweight)⟩

theorem launchesTakeTurns : Claims.LaunchesTakeTurns := by
  intro x u s c hu hc i t hi
  obtain ⟨hfair, hexec⟩ : fairness c.slice t = fairness c.slice s ∧ exec i s = .next (s.cmdTurn x u t) := by
    have hno : ¬ 104 ≤ u := Nat.not_le.mpr hu
    simp only [List.mem_cons, Prod.mk.injEq, List.not_mem_nil, or_false] at hi
    rcases hi with ⟨rfl, rfl⟩ | ⟨rfl, rfl⟩ | ⟨rfl, rfl⟩
    · exact ⟨fairness_launchOn .., if_neg hno⟩
    · exact ⟨fairness_checkOn .., if_neg hno⟩
    · exact ⟨fairness_rerunOn .., if_neg hno⟩
  obtain ⟨hnone, hwait, hserved⟩ := cmdTurn_turns (u := u) hc hfair
  refine ⟨fun h0 => hexec.trans (next_congr (hnone h0)), fun h0 hm => hexec.trans (next_congr (hwait h0 hm)), fun h0 hm => ?_⟩
  obtain ⟨l, hl, htime⟩ := hserved h0 hm
  exact ⟨l, hexec.trans (next_congr hl), htime⟩

/-! ## The launch of a command and of a further part (R49, R54, R141, R143) -/

/-- A unit that takes a part passes the tests that come before its work. -/
theorem laneThere_of_takes (h : UnitTakes s u c p) : s.laneThere c p (unitRegion u) = true := by
  unfold State.laneThere
  cases hl : c.laneFor p with
  | false => rfl
  | true => simpa using h.lane hl

theorem operationLaunch_eq (hu : u < 104) (x : Nat) (s : State) :
    exec (.operationLaunch x u) s = .next (s.cmdTurn x u (s.launchOn x u)) := if_neg (Nat.not_le.mpr hu)

/-- Where the launch attempt is for the unit to work on, it works or runs the benchmark that is due. -/
theorem launch_works {i : Instr} {go : State → State} (hf : s.ctxs.find x = some c) (ht : UnitTakes s u c p)
    (hi : exec i s = .next (s.cmdTurn x u t))
    (hgo : t = s.onUnit x u (p.draws != 0) (s.laneThere c p (unitRegion u)) p.firstPiece p.fam go) :
    (s.benchFirst u p.firstPiece p.fam = none → ∃ l, Gives i s { go s with turns := l }) ∧
    (∀ b, s.benchFirst u p.firstPiece p.fam = some b → Gives i s (s.startBench u b false)) := by
  rw [laneThere_of_takes ht] at hgo
  refine ⟨fun hb => ?_, fun b hb => ?_⟩
  · rw [onUnit_go ht.draws hb] at hgo
    subst hgo
    obtain ⟨l, hl⟩ := cmdTurn_served hf ht.turn (go s)
    exact ⟨l, hi.trans (next_congr hl)⟩
  · rw [onUnit_bench ht.draws hb] at hgo
    subst hgo
    obtain ⟨hctxs, hnow⟩ := startBench_ctxs s u b false
    exact hi.trans (next_congr (cmdTurn_idle hf hctxs hnow))

theorem earlyGate_passed (h : s.gate x c = .passed t) : ∃ r, s.earlyGate x c = .passed r := by
  unfold State.earlyGate
  split
  · exact ⟨t, h⟩
  · exact ⟨s, rfl⟩

/-- What a first launch that passes its tests does with a unit. -/
def firstGo (x u k : Nat) (c : Ctx) (parts : List Part) (p : Part) (s : State) : State :=
  match s.gate x c with
  | .refused st => s.refuse x st
  | .waits => s
  | .passed t => launchPart t x k u c parts p

theorem firstGo_passed (h : s.gate x c = .passed t) (k u : Nat) (parts : List Part) (p : Part) :
    firstGo x u k c parts p s = launchPart t x k u c parts p := by rw [firstGo, h]

theorem launchOn_first (h : MayRun s x c.opcode c) (ht : UnitTakes s u c p) (hplan : s.plan c ≠ []) (hslabs : s.slabsDone c = true)
    (hanchor : s.anchorWaits c = false) (hmeets : ∀ q ∈ s.plan c, s.meetsR19 (unitRegion u) q.kind = true)
    (hgate : s.gate x c = .passed t) (hnext : nextPart false (unitKind u) (s.plan c ++ c.parts) = some k)
    (hk : (s.plan c ++ c.parts)[k]? = some p)
    (hhome : c.parts = [] ∨ unitRegion u = c.region ∨ s.meetsR19 c.region p.kind = false) :
    s.launchOn x u = s.onUnit x u (p.draws != 0) (s.laneThere c p (unitRegion u)) p.firstPiece p.fam
      (firstGo x u k c (s.plan c ++ c.parts) p) := by
  obtain ⟨r, hearly⟩ := earlyGate_passed hgate
  have hripe : s.ripeAny c = true := by
    simp [State.ripeAny, serving_of_stage h.ready h.safe, h.settled, h.waiting, h.accepted, h.free]
  have hany : ((s.plan c).all fun q => s.anyR19 q.kind) = true :=
    List.all_eq_true.mpr fun q hq => anyR19_of_meets ht.number (hmeets q hq)
  have hall : ((s.plan c).all fun q => s.meetsR19 (unitRegion u) q.kind) = true := List.all_eq_true.mpr hmeets
  have hstay : (!c.parts.isEmpty && decide (unitRegion u ≠ c.region) && s.meetsR19 c.region p.kind) = false := by
    rcases hhome with hnil | heq | hno
    · simp [hnil]
    · simp [heq]
    · simp [hno]
  simp only [State.launchOn, h.found, h.waiting, if_true, State.firstLaunch, hripe, hslabs, hanchor, h.time, hany, hearly, hnext, hk,
    hall, ht.free, ht.keys, hstay, if_neg (not_draw_failed ht.draws), List.isEmpty_eq_false_iff.mpr hplan]
  rfl

theorem launchOn_later (h : Under s x c) (ht : UnitTakes s u c p)
    (hnext : nextPart false (unitKind u) (s.moreParts c ++ c.parts) = some k) (hk : (s.moreParts c ++ c.parts)[k]? = some p)
    (hhome : unitRegion u = c.region ∨ s.meetsR19 c.region p.kind = false) :
    s.launchOn x u = s.onUnit x u (p.draws != 0) (s.laneThere c p (unitRegion u)) p.firstPiece p.fam
      fun s' => (s'.setCtx x fun d => { d with parts := s.moreParts c ++ c.parts }).startPart x k u p 0 := by
  have hhere : (decide (unitRegion u = c.region) || !s.meetsR19 c.region p.kind) = true := by
    rcases hhome with heq | hno
    · simp [heq]
    · simp [hno]
  have hrun : c.phase ≠ .waiting := by
    rw [h.running]
    decide
  have hon : c.phase = .running ∧ s.serving = true ∧ (!s.unsettled) = true := by
    rw [h.settled]
    exact ⟨h.running, serving_of_under h, rfl⟩
  simp only [State.launchOn, h.found, if_neg hrun, if_pos hon, State.laterLaunch, hnext, hk, h.wanted,
    anyR19_of_meets ht.number ht.partners, if_neg (not_draw_failed ht.draws), ht.free, hhere, ht.partners, ht.keys]
  rfl

theorem operationLaunches : Claims.OperationLaunches := by
  intro x u k s c p ht
  have hexec := operationLaunch_eq ht.number x s
  refine ⟨fun t h hplan hslabs hanchor hmeets hgate hnext hk hhome => ?_, fun h hnext hk hhome => ?_⟩
  · obtain ⟨hgo, hbench⟩ := launch_works h.found ht hexec (launchOn_first h ht hplan hslabs hanchor hmeets hgate hnext hk hhome)
    refine ⟨fun hb => ?_, hbench⟩
    obtain ⟨l, hl⟩ := hgo hb
    rw [firstGo_passed hgate] at hl
    have hpassed := gate_passed hgate 0
    obtain ⟨d, hd⟩ := hpassed.found c h.found
    obtain ⟨hon, e, he, hv, htick, hunc, hst⟩ := launchPart_runs hd k u c (s.plan c ++ c.parts) p
    refine ⟨_, e, hl, hon, he, hv.trans (congrArg Datum.v hpassed.datum), htick.trans hpassed.now,
      hunc.trans (congrArg Datum.unc hpassed.datum), hst.trans (congrArg Datum.st hpassed.datum)⟩
  · obtain ⟨hgo, hbench⟩ := launch_works h.found ht hexec (launchOn_later h ht hnext hk hhome)
    refine ⟨fun hb => ?_, hbench⟩
    obtain ⟨l, hl⟩ := hgo hb
    obtain ⟨hon, e, he, hv, htick, -, -⟩ := startPart_runs
      (find_setCtx_some (f := fun d => { d with parts := s.moreParts c ++ c.parts }) h.found) k u p 0
    exact ⟨_, e, hl, hon, he, hv, htick⟩

/-- Settles O59: the turn is counted on a launch that keeps turns and weights; the part starts behind its tests. -/
theorem turnsAndLaunches : Obligations.TurnsAndLaunches := ⟨launchesTakeTurns, operationLaunches⟩

end

end Sys2Proof.Proofs
end

section
/-! # Reruns, legs, and the end of an operation (R49, R51, R54, R137, R209, R360, R361) -/

namespace Sys2Proof.Proofs

open Sys2Proof Sys2Proof.Machine Sys2Proof.Claims

section
variable {s : State} {x u k : Nat} {c : Ctx} {p : Part}

/-! ## Reruns -/

theorem rerunOn_eq (h : Under s x c) (ht : UnitTakes s u c p)
    (hk : FirstPart c (fun q => q.slab = false ∧ q.phase = .withheld) k p) (hkind : unitKind u = p.kind) (hother : p.unit ≠ some u)
    (hhome : unitRegion u = c.region ∨ s.meetsR19 c.region p.kind = false) :
    s.rerunOn x u = s.onUnit x u (p.draws != 0) (s.laneThere c p (unitRegion u)) p.firstPiece p.fam
      fun s' => s'.startPart x k u p (p.retries + 1) := by
  have hi : firstIdx (fun p => !p.slab && decide (p.phase = .withheld)) c.parts = some k :=
    firstIdx_of_firstPart (fun q => by simp) hk
  have hstay : (decide (unitRegion u ≠ c.region) && s.meetsR19 c.region p.kind) = false := by
    rcases hhome with heq | hno
    · simp [heq]
    · simp [hno]
  have hrun : s.rerunOn x u = s.tryRerun x k u c p := by
    simp only [State.rerunOn, h.found, h.running, serving_of_under h, h.settled, hi, hk.1]
    rfl
  have hsame : decide (unitKind u ≠ p.kind) = false := by simp [hkind]
  have hunit : (p.unit == some u) = false := by simpa using hother
  rw [hrun]
  simp only [State.tryRerun, h.wanted, anyR19_of_meets ht.number ht.partners, if_neg (not_draw_failed ht.draws), ht.free, hsame,
    hunit, ht.partners, hstay, ht.keys]
  rfl

/-! ## Legs -/

/-- A further RSA candidate is to be drawn. -/
theorem fresh_iff (p : Part) : (p.rsaLoop && !p.finishing && !p.checkUnit.isSome) = true ↔
    p.rsaLoop = true ∧ p.finishing = false ∧ p.checkUnit = none := by
  simp [and_assoc]

theorem execLegLaunch_eq (h : Under s x c) (hk : FirstPart c (fun q => q.phase = .between) k p)
    (hu : p.checkUnit = some u ∨ (p.checkUnit = none ∧ p.unit = some u)) (hmay : s.mayLaunch u = true)
    (hfree : s.jobFree u = true) : exec (.legLaunch x) s = .next (s.startLeg x k u p) := by
  have hi : firstIdx (fun p => decide (p.phase = .between)) c.parts = some k :=
    firstIdx_of_firstPart (fun q => by simp) hk
  have hholder : p.holder = some u := by
    rcases hu with hu | ⟨hn, hu⟩
    · rw [Part.holder, hu]
    · rw [Part.holder, hn, hu]
  show execLegLaunch x s = _
  simp only [execLegLaunch, h.found, h.running, serving_of_under h, h.settled, hi, hk.1, hholder, hmay, hfree]
  rfl

/-- The draws of a leg as of a part. -/
theorem onUnit_bench_of {draws : Bool} {piece set b : Nat} {go : State → State}
    (h : draws = true → s.drawState (unitRegion u) = .serves) (hb : s.benchFirst u piece set = some b) :
    s.onUnit x u draws true piece set go = s.startBench u b false := by
  cases draws with
  | false => exact onUnit_bench (n := 0) (.inl rfl) hb
  | true => exact onUnit_bench (n := 1) (.inr (h rfl)) hb

theorem onUnit_go_of {draws : Bool} {piece set : Nat} {go : State → State}
    (h : draws = true → s.drawState (unitRegion u) = .serves) (hb : s.benchFirst u piece set = none) :
    s.onUnit x u draws true piece set go = go s := by
  cases draws with
  | false => exact onUnit_go (n := 0) (.inl rfl) hb
  | true => exact onUnit_go (n := 1) (.inr (h rfl)) hb

/-- The leg that a part between two legs goes on with: of a check the next piece, of an operation as the room allows. -/
def legOf (p : Part) (room : Nat) : Nat × List Nat :=
  if p.checkUnit = none then p.nextLeg room p.left else (p.left.headD 0, p.left.tail)

/-- The next leg on its unit, with the number of a fresh draw joining the candidates. -/
def legGo (x k u : Nat) (p : Part) (fresh : Bool) (s : State) : State :=
  let leg := legOf p ((s.unitSt u).lastBench + 2000 - s.now)
  let y := { p with
    phase := if p.checkUnit = none then .running else .checking, ends := s.now + leg.1, left := leg.2
    cands := if fresh then p.cands ++ [s.free] else p.cands }
  let b := if fresh then (s.drawFrom (unitRegion u) (rsaLen p.fam / 2)).2 else s
  (b.setUnit u fun z => z.takes (if p.checkUnit = none then .op x else .check x) (s.now + leg.1) p.fam).setCtx x
    fun d => { d with parts := d.parts.set k y, progress := s.now, waitFrom := none }

/-- A leg that may draw afresh finds random service. -/
theorem leg_not_failed {fresh : Bool} (h : fresh = true → s.drawState (unitRegion u) = .serves) :
    ¬ (fresh = true ∧ s.drawState (unitRegion u) = .failed) := by
  rintro ⟨hfresh, hf⟩
  exact DrawState.noConfusion ((h hfresh).symm.trans hf)

theorem startLeg_bench {b : Nat} (h : (p.rsaLoop && !p.finishing && !p.checkUnit.isSome) = true → s.drawState (unitRegion u) = .serves)
    (hb : s.benchFirst u (p.left.headD 0) p.fam = some b) : s.startLeg x k u p = s.startBench u b false := by
  unfold State.startLeg
  dsimp only
  rw [if_neg (leg_not_failed h)]
  cases hl : p.left with
  | nil => exact onUnit_bench_of h (by rwa [hl] at hb)
  | cons l left => exact onUnit_bench_of h (by rwa [hl] at hb)

theorem startLeg_go (h : (p.rsaLoop && !p.finishing && !p.checkUnit.isSome) = true → s.drawState (unitRegion u) = .serves)
    (hb : s.benchFirst u (p.left.headD 0) p.fam = none) :
    s.startLeg x k u p = legGo x k u p (p.rsaLoop && !p.finishing && !p.checkUnit.isSome) s := by
  unfold State.startLeg
  dsimp only
  generalize (p.rsaLoop && !p.finishing && !p.checkUnit.isSome) = fresh at h ⊢
  rw [if_neg (leg_not_failed h)]
  refine (onUnit_go_of h ?_).trans ?_
  · cases hl : p.left <;> rwa [hl] at hb
  · unfold legGo legOf
    cases p.checkUnit with
    | none => cases fresh <;> rfl
    | some v => cases p.left <;> cases fresh <;> rfl

/-- The next leg, as the statement has it. -/
theorem legGo_eq (h : s.ctxs.find x = some c) :
    let fresh := p.rsaLoop = true ∧ p.finishing = false ∧ p.checkUnit = none
    let leg := legOf p ((s.unitSt u).lastBench + 2000 - s.now)
    let y := { p with
      phase := if p.checkUnit = none then .running else .checking, ends := s.now + leg.1, left := leg.2
      cands := if fresh then p.cands ++ [s.free] else p.cands }
    let b := if fresh then (s.drawFrom (unitRegion u) (rsaLen p.fam / 2)).2 else s
    let job := if p.checkUnit = none then Job.op x else Job.check x
    legGo x k u p (p.rsaLoop && !p.finishing && !p.checkUnit.isSome) s = (b.setUnit u fun z => { z with
      job := job, ends := s.now + leg.1, fam := p.fam, famSets := z.famSets.put (famOf p.fam) p.fam, scrub := false }).setCtx x
        fun d => { d with parts := c.parts.set k y, progress := s.now, waitFrom := none } := by
  unfold legGo
  simp only [fresh_iff]
  split <;> exact setCtx_congr h rfl

theorem rerunsAndLegs : Claims.RerunsAndLegs := by
  refine ⟨fun x u k s c p ht h hk hkind hother hhome => ?_, ?_⟩
  · have hexec : exec (.rerunLaunch x u) s = .next (s.cmdTurn x u (s.rerunOn x u)) := if_neg (Nat.not_le.mpr ht.number)
    obtain ⟨hgo, hbench⟩ := launch_works h.found ht hexec (rerunOn_eq h ht hk hkind hother hhome)
    refine ⟨fun hb => ?_, hbench⟩
    obtain ⟨l, hl⟩ := hgo hb
    exact ⟨_, hl, (startPart_runs h.found k u p (p.retries + 1)).1⟩
  · intro x u k s c p h hk hu hmay hfree fresh hdraw
    have hserves := fun hf => hdraw ((fresh_iff p).mp hf)
    have hexec := execLegLaunch_eq h hk hu hmay hfree
    exact ⟨fun b hb => hexec.trans (next_congr (startLeg_bench hserves hb)),
      fun hb => hexec.trans (next_congr ((startLeg_go hserves hb).trans (legGo_eq h.found)))⟩

/-! ## The end of an operation -/

theorem operationComplete_eq (h : s.ctxs.find x = some c) (hrun : c.phase = .running)
    (hk : FirstPart c (fun q => q.slab = false ∧ q.phase = .running ∧ q.ends ≤ s.now) k p) (hu : p.unit = some u) :
    exec (.operationComplete x) s = .next (s.endLeg x k u c p) := by
  have hi : firstIdx (Part.endsNow s.now) c.parts = some k :=
    firstIdx_of_firstPart (fun q => by simp [Part.endsNow, and_assoc]) hk
  have hne : c.parts.isEmpty = false := by
    cases hp : c.parts with
    | nil => simp [FirstPart, hp] at hk
    | cons => rfl
  show execOperationComplete x s = _
  simp only [execOperationComplete, h, hrun, hne, hi, hk.1, hu]
  rfl

theorem operationComplete_bearing {b : Nat} (h : s.ctxs.find x = some c) (hrun : c.phase = .running) (hp : c.parts = [])
    (hb : c.bearingEnd = some b) (hend : b ≤ s.now) : exec (.operationComplete x) s = .next (s.settle x) := by
  show execOperationComplete x s = _
  simp only [execOperationComplete, h, hrun, hp, hb, if_pos hend]
  rfl

theorem nextPieces_eq (p : Part) (e : Nat) : p.nextPieces e =
    if p.left = [] ∧ p.rsaLoop = true ∧ p.finishing = false then
      (if (p.rsaKey e).isSome = true then defaultLegs p.ticks else [p.iter]) else p.left := by
  unfold Part.nextPieces
  exact if_congr (by simp [and_assoc]) rfl rfl

theorem operationEnds : Claims.OperationEnds := by
  refine fun x s c h hrun => ⟨fun hp b hb hend => operationComplete_bearing h hrun hp hb hend, fun k p u hk hu => ?_⟩
  have hexec := operationComplete_eq h hrun hk hu
  have hcleared : (((s.freeUnit u).endUnit u).clearEngine u).ctxs.find x = some c ∧
      (((s.freeUnit u).endUnit u).clearEngine u).now = s.now := by
    obtain ⟨y, e, n, hc⟩ := clearedUnit_frame (s.freeUnit u) u
    rw [hc]
    exact ⟨h, rfl⟩
  have hcap : (s.freeUnit u).capped c p = s.capped c p := rfl
  intro f g key next
  have hnext : p.nextPieces (keygenE c.payload) = next := nextPieces_eq ..
  refine ⟨fun hn => hexec.trans (next_congr ?_), fun hn hc => hexec.trans (next_congr ?_), fun hn hc => hexec.trans (next_congr ?_)⟩
  · have hleft : (!next.isEmpty) = true := by simpa using hn
    simp only [State.endLeg, hnext, if_pos hleft]
    exact setCtx_partSet (s := f) h
  · simp only [State.endLeg, hnext, hn, hcap, hc, List.isEmpty_nil, Bool.not_true, Bool.false_eq_true, if_false]
    have hnow : g.now = (s.freeUnit u).now := hcleared.2
    refine setCtx_congr hcleared.1 ?_
    rw [hnow]
  · simp only [State.endLeg, hnext, hn, hcap, hc]
    rfl

/-- Settles O49: reruns and legs start as launches do; the end of a leg follows what is left of the part. -/
theorem rerunsLegsAndEnds : Obligations.RerunsLegsAndEnds := ⟨rerunsAndLegs, operationEnds⟩

end

end Sys2Proof.Proofs
end

section
/-! # What the cores answer from the state, and RANDOM_BYTES (R39, R171, R195, R262, R267, R280, R286, R390, R410) -/

namespace Sys2Proof.Proofs

open Sys2Proof Sys2Proof.Machine Sys2Proof.Claims

section
variable {s t : State} {x o n : Nat} {c : Ctx}

/-! ## Answers from the state -/

theorem coreAnswer_gives {i : Instr} {f : State → Ctx → Bytes} (hi : coreAnswer i = some (x, o, f)) (h : MayRun s x o c) :
    Gives i s (s.answer x (f s c)) := by
  unfold coreAnswer at hi
  split at hi <;> cases hi
  all_goals exact next_congr (runCore_mayRun h _)

/-- A command of a stateful key is answered from the state that the tests of its key leave. -/
theorem chiefKeyed_answers (h : MayRun s x o c) (ht : s.keyTests c = .ok t) (f : Ctx → State → Bytes) :
    s.chiefKeyed x o f = t.answer x (f c t) := by
  rw [State.chiefKeyed, runCore_mayRun h, ht]

theorem chiefAnswer_gives {i : Instr} {f : State → Ctx → Bytes} (hi : chiefAnswer i = some (x, o, f)) (h : MayRun s x o c)
    (ht : s.keyTests c = .ok t) : Gives i s (t.answer x (f t c)) := by
  unfold chiefAnswer at hi
  split at hi <;> cases hi
  all_goals exact next_congr (chiefKeyed_answers h ht _)

/-! ## Keys and anchors -/

theorem keyInfo_gives {k : Slot} (h : MayRun s x 0x4003 c) (ht : s.chargeSlice 0x4003 c.slice = .ok t)
    (hk : s.liveKey c.keyA = some k) : Gives (.keyInfo x) s (t.answer x (keyInfo c.keyA k)) := by
  refine next_congr ((runCore_mayRun h _).trans ?_)
  simp only [ht, hk]

theorem keyDestroy_gives {k : Slot} (h : MayRun s x 0x4004 c) (ht : s.chargeSlice 0x4004 c.slice = .ok t)
    (hk : t.liveKey c.keyA = some k) (hb : ∀ b ∈ t.keys.bumps, b.1 ≠ c.keyA) : Gives (.keyDestroy x) s
      ({ t with keys := { t.keys with bumps := t.keys.bumps ++ [(c.keyA, t.now)] } }.answer x []) := by
  have hnew : (t.keys.bumps.any fun b => b.1 == c.keyA) = false := by simpa using hb
  refine next_congr ((runCore_mayRun h _).trans ?_)
  simp only [ht, hk, hnew]
  rfl

/-- A dropped anchor is found no more: it is gone, or it is kept for the commands that pin it and marked. -/
theorem anchor_dropAnchor (s : State) (n : Nat) (id : Bytes) : (s.dropAnchor n id).anchor n id = none := by
  refine List.find?_eq_none.mpr fun a ha => ?_
  obtain ⟨b, -, rfl⟩ := List.mem_map.mp ha
  split
  · simp
  · next hne =>
    intro hsame
    simp only [Bool.and_eq_true, beq_iff_eq] at hsame
    exact hne hsame.1

theorem anchorDrop_gives {a : Anchor} (h : MayRun s x 0x1A04 c) (ha : s.anchor c.slice (c.payload.take 32) = some a) :
    Gives (.anchorDrop x) s ((s.dropAnchor c.slice (c.payload.take 32)).answer x []) := by
  refine next_congr ((runCore_mayRun h _).trans ?_)
  simp only [ha]
  rfl

theorem coreAnswers : Claims.CoreAnswers :=
  ⟨fun _ _ _ _ hi _ _ h => coreAnswer_gives hi h, fun _ _ _ _ hi _ _ _ h ht => chiefAnswer_gives hi h ht,
    fun _ _ _ _ _ h ht hk => keyInfo_gives h ht hk, fun _ _ _ _ _ h ht hk hb => keyDestroy_gives h ht hk hb,
    fun _ _ _ h => next_congr (runCore_mayRun h _), fun _ s _ _ h ha => ⟨anchorDrop_gives h ha, anchor_dropAnchor s ..⟩⟩

/-! ## RANDOM_BYTES -/

theorem ceilDiv_requests (n : Nat) : ceilDiv n 65536 = (n + 65535) / 65536 := by
  unfold ceilDiv
  omega

/-- A RANDOM_BYTES that launches: its octets, its generation time and its LAUNCH. -/
theorem launchRandom_ctxs (h : s.ctxs.find x = some c) : (s.launchRandom x c).ctxs.find x = some { c with
    phase := .running, result := some (Result.output (drawBytes s.free (uAt c.payload 0 4))), waitFrom := none
    bearingEnd := some (s.now + max 1 ((uAt c.payload 0 4 + 16383) / 16384)), launchV := s.datum.v, launchTick := s.now
    startUnc := s.unc, startSt := s.datum.st, progress := s.now } :=
  find_setCtx_some (find_setCtx_some h)

theorem launchRandom_ctxs_ne {j : Nat} (h : j ≠ x) : (s.launchRandom x c).ctxs.find j = s.ctxs.find j :=
  (State.find_setCtx_ne _ _ h).trans (State.find_setCtx_ne _ _ h)

/-- Beside the contexts, the generators and the draws, the state is as it was. -/
theorem launchRandom_frame (s : State) (x : Nat) (c : Ctx) :
    { s.launchRandom x c with ctxs := s.ctxs, rng := s.rng, free := s.free } = s := rfl

/-- What a DRBG request takes of its generator. -/
theorem launchRandom_requests (hkind : randomKind c.payload = 0) (hserves : s.serves (5 + c.region) = true) :
    ((s.launchRandom x c).drbg (5 + c.region)).requests = (s.drbg (5 + c.region)).requests + (uAt c.payload 0 4 + 65535) / 65536 := by
  obtain ⟨y, hy⟩ : ∃ y, s.rng.drbgs.find (5 + c.region) = some y := by
    cases hf : s.rng.drbgs.find (5 + c.region) with
    | none => simp [State.serves, hf] at hserves
    | some y => exact ⟨y, rfl⟩
  simp [State.launchRandom, State.markLaunch, State.setCtx, State.setRng, State.drbg, Tab.getD, hy, hkind, ceilDiv_requests]

theorem randomBytes_launches (h : MayRun s x 0x5001 c) (ht : s.chargeSlice 0x5001 c.slice = .ok t) (hrng : s.rngHalted = false)
    (hready : (randomKind c.payload = 0 ∧ s.serves (5 + c.region) = true) ∨
      (randomKind c.payload ≠ 0 ∧ s.everySeeded = true ∧ s.inHand x = true)) :
    exec (.randomBytes x) s = .next (t.launchRandom x c) := by
  refine next_congr ((runCore_mayRun h _).trans ?_)
  simp only [ht, hrng]
  rcases hready with ⟨hkind, hserves⟩ | ⟨hkind, hseeded, hhand⟩
  · rw [if_pos hkind, if_pos hserves]
    rfl
  · rw [if_neg hkind, hseeded, hhand]
    rfl

theorem randomBytes_waits (h : MayRun s x 0x5001 c) (ht : s.chargeSlice 0x5001 c.slice = .ok t) (hrng : s.rngHalted = false)
    (hkind : randomKind c.payload = 0) (hserves : s.serves (5 + c.region) = false) :
    exec (.randomBytes x) s = .next (s.awaitDraw x) := by
  refine next_congr ((runCore_mayRun h _).trans ?_)
  simp only [ht, hrng, hkind, hserves]
  rfl

theorem randomBytes_demands (h : MayRun s x 0x5001 c) (ht : s.chargeSlice 0x5001 c.slice = .ok t) (hrng : s.rngHalted = false)
    (hkind : randomKind c.payload ≠ 0) (hnot : ¬ (s.everySeeded = true ∧ s.inHand x = true)) :
    exec (.randomBytes x) s = .next ((s.demand x c).awaitDraw x) := by
  have hwait : ¬ (s.everySeeded && s.inHand x) = true := by simpa using hnot
  refine next_congr ((runCore_mayRun h _).trans ?_)
  simp only [ht, hrng, if_neg hkind, if_neg hwait]
  rfl

theorem randomBytesServed : Claims.RandomBytesServed := by
  intro x s t c h ht hrng n mode d ready
  obtain ⟨y, hy⟩ := chargeSlice_frame ht
  have hc : t.ctxs.find x = some c := by
    rw [hy]
    exact h.found
  refine ⟨fun hready => ⟨t.launchRandom x c, randomBytes_launches h ht hrng hready, ?_⟩,
    fun hm hs => randomBytes_waits h ht hrng hm hs,
    fun hm hn => randomBytes_demands h ht hrng hm fun hboth => hn (.inr ⟨hm, hboth⟩)⟩
  have hctx := launchRandom_ctxs hc
  have hreq : mode = 0 → ((t.launchRandom x c).drbg d).requests = (t.drbg d).requests + (n + 65535) / 65536 := fun hm =>
    launchRandom_requests hm (hready.elim (fun hdrbg => by rw [hy]; exact hdrbg.2) fun hfresh => absurd hm hfresh.1)
  subst hy
  exact ⟨hctx, fun j hj => launchRandom_ctxs_ne hj, rfl, rfl, hreq, launchRandom_frame ..⟩

/-- Settles O54: each command runs as the core has it, and its answer is read off; RANDOM_BYTES by its kind. -/
theorem coreServices : Obligations.CoreServices := ⟨coreAnswers, randomBytesServed⟩

end

end Sys2Proof.Proofs
end

section
/-! # SLICE_RESET over a context table with a key listed twice (R109) -/

namespace Sys2Proof.Proofs

open Sys2Proof Sys2Proof.Machine Sys2Proof.Claims

/-! ## The state that refutes the statement on slice sequences

The statement speaks of every state, and so of tables that list a key twice, which no run of the device makes: a read gives
the first entry alone. The squash of the slice then meets the second entry of context 5, a waiting command, but refuses what a
read of context 5 gives: a survey batch. The end of its stream by the squash of command 6 takes the batch away, and the waiting
command comes to light after its turn has passed. -/

/-- The command of queue 0 that resets slice 1, with its waiting commands squashed and its keys wiped. -/
def resetCmd : Ctx := Tests.cmd 0x0104 (le 8 0x30001)

/-- A command of slice 1 on its queue 2. -/
def slice1Cmd : Ctx := { Tests.ofSlice1 0 [] with q := 2 }

/-- Command 7 is to reset slice 1, of which context 5 is listed twice: as a survey batch of stream 1, and as a waiting
command. -/
def resetShadowed : State :=
  { Tests.sliced .active resetCmd with
    ctxs := [(5, { slice1Cmd with stream := 1, phase := .running, batch := true }),
             (5, slice1Cmd),
             (6, { slice1Cmd with stream := 1 }),
             (7, resetCmd)]
    queues := [(1, Tests.queue1), (2, shadowQueue)] }

/-- The state after the first step of the reset. -/
def resetBegun : State := resetShadowed.beginDrain 7 1 (Tests.slice1 .active) .resetting true true false

/-- Context 5 is a command of slice 1 that still waits. -/
theorem resetBegun_leavesWaiting : (resetBegun.ctxs.find 5).map (fun d => (d.slice, d.phase)) = some (1, .waiting) := by
  decide +kernel

/-- Refutes O10: where a context is listed twice, the squash of SLICE_RESET can leave a command of the slice waiting. -/
theorem not_sliceSequences : ¬ Obligations.SliceSequences := by
  rintro ⟨-, hdrain, -⟩
  obtain ⟨-, -, hsquash⟩ :=
    hdrain 7 1 resetShadowed resetCmd (Tests.slice1 .active) .resetting true true false rfl rfl (by decide)
  obtain ⟨d, hd, hslice, hphase⟩ : ∃ d, resetBegun.ctxs.find 5 = some d ∧ d.slice = 1 ∧ d.phase = .waiting := by
    simpa using resetBegun_leavesWaiting
  have hover := hsquash rfl 5 d hd hslice
  simp [hphase, Phase.decided] at hover

end Sys2Proof.Proofs
end

section
/-! # SLICE_EXPORT when random service has halted (R114, R152, R285) -/

namespace Sys2Proof.Proofs

open Sys2Proof Sys2Proof.Machine Sys2Proof.Claims

section
variable {s : State} {x o : Nat} {c : Ctx} {r : Result}

/-- A command that has begun goes on with the interim result it holds. -/
theorem begun_of_running (h : s.ctxs.find x = some c) (ho : c.opcode = o) (hrun : c.phase = .running) (hr : c.result = some r)
    (hserv : s.serving = true) (hset : s.unsettled = false) : s.begun x o = some (c, r.out) := by
  simp [State.begun, h, ho, hrun, hr, hserv, hset]

/-- A SLICE_EXPORT that has begun ends ST_ENTROPY_FAILED where its blob finds random service halted. -/
theorem sliceExport_fails (h : s.ctxs.find x = some c) (ho : c.opcode = 0x0106) (hrun : c.phase = .running)
    (hr : c.result = some r) (hserv : s.serving = true) (hset : s.unsettled = false)
    (howes : s.sliceOwes (uAt c.payload 0 2) = false) (hd : s.drawState 4 = .failed) :
    Gives (.sliceExport x) s (s.failWith x 0x0602) := by
  show execSliceExport x s = _
  rw [execSliceExport, begun_of_running h ho hrun hr hserv hset]
  dsimp only
  rw [State.exportBlob, howes, hd]
  rfl

/-- Undecided packets that end with different statuses end in different states. -/
theorem status_of_failWith_eq {a b : Nat} (h : s.ctxs.find x = some c) (hd : c.phase.decided = false) (hb : c.batch = false)
    (hdrop : c.drop = false) (he : s.failWith x a = s.failWith x b) : a = b := by
  have hfound := fun st => find_conclude h hd hb (Result.bare st)
  have hctx : some (concluded s c (Result.bare a)) = some (concluded s c (Result.bare b)) := by
    rw [← hfound, ← hfound]
    exact congrArg (fun t : State => t.ctxs.find x) he
  simpa [concluded, outcomeOf, hdrop, Result.bare] using hctx

end

/-- A SLICE_EXPORT of slice 1 that has begun and holds its body. -/
def exportCmd : Ctx := Tests.resulted 0x0106 (Tests.exportOf [])

/-- Command 7 is such a SLICE_EXPORT, and random service has halted since it began. -/
def exportHalted : State :=
  { Tests.sliced .exported exportCmd with rng := { (Tests.sliced .exported exportCmd).rng with stage := .halted } }

/-- Refutes O11: where its draw meets a halted random service, SLICE_EXPORT ends ST_ENTROPY_FAILED (0x0602), as R285 has it;
the statement says ST_UNIT_FAULT (0x0501). -/
theorem not_migration : ¬ Obligations.Migration := by
  rintro ⟨-, -, hends, -⟩
  have hserv : exportHalted.serving = true := by decide
  have hset : exportHalted.unsettled = false := by decide
  have howes : exportHalted.sliceOwes (uAt exportCmd.payload 0 2) = false := by decide
  have hfailed : exportHalted.drawState 4 = .failed := by decide
  obtain ⟨-, hunit, -, -⟩ := hends 7 exportHalted exportCmd _ rfl rfl rfl rfl hserv hset
  have hentropy := sliceExport_fails (x := 7) (c := exportCmd) rfl rfl rfl rfl hserv hset howes hfailed
  have hstates := Host.Outcome.next.inj ((hunit howes hfailed).symm.trans hentropy)
  have hstatus : (0x0501 : Nat) = 0x0602 := status_of_failWith_eq (c := exportCmd) rfl rfl rfl rfl hstates
  exact absurd hstatus (by decide)

end Sys2Proof.Proofs
end

section
/-! # The SPDM responder (R252, log 68) -/

namespace Sys2Proof.Proofs

open Sys2Proof Sys2Proof.Machine Sys2Proof.Claims

section
variable {s t : State} {via : SpdmPath} {msg r m : Bytes} {code phase : Nat}

/-! ## Requests outside a session -/

theorem spdmUp_of_stage (h : s.start.stage = 0x0C) : s.spdmUp = true := by
  simp [State.spdmUp, State.ready, Stage.ready, h]

/-- Changes of the responder that agree on the present one are the same. -/
theorem setSpdm_congr {f g : Spdm → Spdm} (h : f s.bus.spdm = g s.bus.spdm) : s.setSpdm f = s.setSpdm g := by
  rw [State.setSpdm, h]
  rfl

theorem spdmError_eq (s : State) (code : Nat) : s.spdmError code = RespondsError s s.bus.spdm code := rfl

/-- A request in its order is taken. -/
theorem spdmPlain_taken {ok : Bool} {f : State → State} (h : Plain s via msg code) (hok : ok = true) (ht : f s = t) :
    s.spdmPlain via msg code ok f = .next t := by
  simp [State.spdmPlain, spdmUp_of_stage h.ready, h.code, Nat.not_lt.mpr h.length, h.version, h.path, hok, ht]

/-- A request out of its order is answered with ERROR. -/
theorem spdmPlain_refused {ok : Bool} {f : State → State} (h : Plain s via msg code) (hok : ok = false) :
    s.spdmPlain via msg code ok f = .next (RespondsError s s.bus.spdm 4) := by
  simp [State.spdmPlain, spdmUp_of_stage h.ready, h.code, Nat.not_lt.mpr h.length, h.version, hok, spdmError_eq]

theorem getVersion_gives (h : s.start.stage = 0x0C) (hlen : 4 ≤ msg.length) (hver : uAt msg 0 1 = 0x10)
    (hcode : uAt msg 1 1 = 0x84) :
    let rsp := le 1 0x10 ++ le 1 4 ++ le 3 0 ++ le 1 1 ++ le 2 0x1300
    Gives (.getVersion via msg) s (Responds s
      { Spdm.reset with version := true, path := via, vca := msg ++ rsp, ideKeys := s.bus.spdm.ideKeys, locks := s.bus.spdm.locks }
      rsp) := by
  show execGetVersion s via msg = _
  simp only [execGetVersion, spdmUp_of_stage h, hcode, Nat.not_lt.mpr hlen, hver]
  rfl

theorem getCapabilities_gives (h : Plain s via msg 0xE1) (hver : s.bus.spdm.version = true) (hcaps : s.bus.spdm.caps = false)
    (hlen : msg.length = 20) :
    let rsp := spdmMsg 0x61 0 0 (le 4 0 ++ le 4 0x62D6 ++ le 4 0x1200 ++ le 4 0x1200)
    Gives (.getCapabilities via msg) s (Responds s { s.bus.spdm with caps := true, vca := s.bus.spdm.vca ++ msg ++ rsp } rsp) := by
  show execGetCapabilities s via msg = _
  refine spdmPlain_taken h (by simp [hver, hcaps]) ?_
  rw [if_neg (fun hn => hn hlen)]
  rfl

theorem getCapabilities_refused (h : Plain s via msg 0xE1) (hver : s.bus.spdm.version = false) :
    Gives (.getCapabilities via msg) s (RespondsError s s.bus.spdm 4) := by
  show execGetCapabilities s via msg = _
  exact spdmPlain_refused h (by simp [hver])

/-- NEGOTIATE_ALGORITHMS takes offers that fill the message, and answers the others with ERROR. -/
theorem negotiateAlgorithms_gives {l : List (Nat × Nat)} (h : Plain s via msg 0xE3) (hcaps : s.bus.spdm.caps = true)
    (halgs : s.bus.spdm.algs = false)
    (hl : algTables (uAt msg 2 1) (msg.drop (32 + 4 * (uAt msg 28 1 + uAt msg 29 1))) = some l)
    (hlen : uAt msg 4 2 = msg.length) : Gives (.negotiateAlgorithms via msg) s
      (if uAt msg 8 4 &&& 0x80 ≠ 0 ∧ uAt msg 12 4 &&& 2 ≠ 0 ∧ offers l 2 0x10 = true ∧ offers l 3 2 = true then
        Responds s { s.bus.spdm with algs := true, vca := s.bus.spdm.vca ++ msg ++ algorithmsMsg l } (algorithmsMsg l)
      else RespondsError s s.bus.spdm 1) := by
  show execNegotiateAlgorithms via s msg = _
  refine spdmPlain_taken h (by simp [hcaps, halgs]) ?_
  dsimp only
  rw [hl]
  refine if_congr ?_ rfl rfl
  simp [hlen, and_assoc]

/-! ## Certificates -/

section
variable (halgs : s.bus.spdm.algs = true) (hchain : s.keys.chain ≠ [])
include halgs hchain

theorem showsChain_of_chain : s.showsChain = true := by
  simp [State.showsChain, halgs, hchain]

theorem getDigests_gives (h : Plain s via msg 0x81) :
    let rsp := spdmMsg 0x01 1 1 (sha384 s.keys.chain)
    Gives (.getDigests via msg) s (Responds s { s.bus.spdm with certs := s.bus.spdm.certs ++ msg ++ rsp } rsp) := by
  show execGetDigests s via msg = _
  exact spdmPlain_taken h (showsChain_of_chain halgs hchain) rfl

theorem getCertificate_gives {head body : Bytes} (hmsg : head ++ body = msg) (h : Plain s via msg 0x82) (hlen : msg.length = 8)
    (hslot : uAt msg 2 1 = 0) (hoff : uAt msg 4 2 < s.keys.chain.length) :
    let b := (s.keys.chain.drop (uAt msg 4 2)).take (uAt msg 6 2)
    let rsp := spdmMsg 0x02 0 0 (le 2 b.length ++ le 2 (s.keys.chain.length - uAt msg 4 2 - b.length) ++ b)
    Gives (.getCertificate via head body) s (Responds s { s.bus.spdm with certs := s.bus.spdm.certs ++ msg ++ rsp } rsp) := by
  subst hmsg
  show execGetCertificate via head body s = _
  rw [execGetCertificate]
  refine spdmPlain_taken h (showsChain_of_chain halgs hchain) ?_
  rw [if_neg (by simp [hslot, hlen, hoff])]
  rfl

theorem getCertificate_refused {head body : Bytes} (hmsg : head ++ body = msg) (h : Plain s via msg 0x82)
    (hslot : uAt msg 2 1 ≠ 0) : Gives (.getCertificate via head body) s (RespondsError s s.bus.spdm 1) := by
  subst hmsg
  show execGetCertificate via head body s = _
  rw [execGetCertificate]
  refine spdmPlain_taken h (showsChain_of_chain halgs hchain) ?_
  rw [if_pos (.inl hslot)]
  rfl

end

/-! ## Signed responses -/

theorem spdmDraws_of_signs (h : Signs s) : s.spdmDraws = true := by
  simp [State.spdmDraws, State.ready, Stage.ready, h.ready, h.safe, h.identity, h.draws]

/-- What a signed response draws, and the state after its draws. -/
theorem spdmDraw_eq (s : State) : s.spdmDraw =
    ({ nonce := drawBytes s.free 32, extra := drawBytes (s.free + 1) 32, mask := drawBytes (s.free + 2) 32 }, Drawn s) := rfl

theorem challenge_gives (halgs : s.bus.spdm.algs = true) (hchain : s.keys.chain ≠ []) (h : Plain s via msg 0x83)
    (hlen : msg.length = 44) (hslot : uAt msg 2 1 = 0) (hsig : Signs s) :
    let rsp := spdmMsg 0x03 0 1 (sha384 s.keys.chain ++ drawBytes s.free 32 ++ s.measureSummary (uAt msg 3 1) ++ le 2 0 ++
      bytesAt msg 36 8)
    Gives (.challenge via msg) s (Responds (Drawn s) { s.bus.spdm with certs := [] }
      (rsp ++ SignedBy s "responder-challenge_auth signing" (s.bus.spdm.vca ++ s.bus.spdm.certs ++ msg ++ rsp))) := by
  show execChallenge via msg s = _
  refine spdmPlain_taken h (showsChain_of_chain halgs hchain) ?_
  rw [if_neg (by simp [hslot, hlen]), if_neg (by simp [spdmDraws_of_signs hsig]), spdmDraw_eq]
  rfl

theorem keyExchange_gives (halgs : s.bus.spdm.algs = true) (hchain : s.keys.chain ≠ []) (h : Plain s via msg 0xE4)
    (hnone : s.bus.spdm.session = 0) (hslot : uAt msg 3 1 = 0) (hlen : msg.length = 138 + uAt msg 136 2)
    (hpub : curveP384.pointOk (4#8 :: bytesAt msg 40 96) = true) (hsig : Signs s) :
    let pub := 4#8 :: bytesAt msg 40 96
    let mask := drawBytes (s.free + 2) 32
    let secret := be 48 (curveP384.scalarOf (drawBytes (s.free + 3) 56))
    let base := s.bus.spdm.vca ++ sha384 s.keys.chain ++ msg
    let head := spdmMsg 0x64 0 0 (le 2 1 ++ le 1 0 ++ le 1 0 ++ drawBytes s.free 32 ++
      (curveP384.public mask secret).drop 1 ++ s.measureSummary (uAt msg 2 1) ++ le 2 0)
    let signed := head ++ SignedBy s "responder-key_exchange_rsp signing" (base ++ head)
    let hs := hkdfExtract 384 (List.replicate 48 0#8) (curveP384.ecdh mask secret pub)
    let keys := dirSecrets hs (base ++ signed) "req hs data" "rsp hs data"
    let rsp := signed ++ verifyData keys.2.secret (base ++ signed)
    Gives (.keyExchange via msg) s (Responds ((Drawn s).drawFrom 4 56).2
      { s.bus.spdm with session := 1, sessionId := uAt msg 4 2 + 2 ^ 16, th := base ++ rsp, master := hs
                        toDev := keys.1, toHost := keys.2, oldKey := none } rsp) := by
  show execKeyExchange via msg s = _
  refine spdmPlain_taken h (by simp [showsChain_of_chain halgs hchain, hnone]) ?_
  dsimp only
  rw [if_neg (by simp [hslot, hlen, hpub]), if_neg (by simp [spdmDraws_of_signs hsig]), spdmDraw_eq]
  rfl

theorem keyExchange_refused (h : Plain s via msg 0xE4) (hopen : s.bus.spdm.session ≠ 0) :
    Gives (.keyExchange via msg) s (RespondsError s s.bus.spdm 4) := by
  show execKeyExchange via msg s = _
  exact spdmPlain_refused h (by simp [hopen])

/-! ## Measurements -/

/-- The blocks that an operation of GET_MEASUREMENTS asks for. -/
theorem measureIndices_eq (op : Nat) :
    measureIndices op = if op = 0 then [] else if op = 255 then [1, 2, 3, 4, 5, 6, 7] else [op] := by
  unfold measureIndices
  by_cases h0 : op = 0
  · subst h0
    rfl
  · simp only [h0, if_false]
    rfl

/-- GET_MEASUREMENTS is answered with its blocks; a signed answer ends the transcript, an unsigned one joins it. -/
theorem getMeasurements_gives {head body : Bytes} (hmsg : head ++ body = msg) (h : Plain s via msg 0xE0)
    (halgs : s.bus.spdm.algs = true) (hop : uAt msg 3 1 ≤ 7 ∨ uAt msg 3 1 = 255) (hsig : Signs s)
    (hlen : msg.length = if bitOf (uAt msg 2 1) 0 = true then 45 else 12)
    (hslot : bitOf (uAt msg 2 1) 0 = true → uAt msg 36 1 = 0) {rsp : Bytes}
    (hrsp : s.measureMsg (uAt msg 3 1) (drawBytes s.free 32) (msg.drop (msg.length - 8)) = rsp) :
    Gives (.getMeasurements via head body) s
      (if bitOf (uAt msg 2 1) 0 = true then
        Responds (Drawn s) { s.bus.spdm with meas := [] }
          (rsp ++ SignedBy s "responder-measurements signing" (s.bus.spdm.vca ++ (s.bus.spdm.meas ++ msg ++ rsp)))
      else Responds (Drawn s) { s.bus.spdm with meas := s.bus.spdm.meas ++ msg ++ rsp } rsp) := by
  subst hmsg hrsp
  have hgood : ¬ ((head ++ body).length ≠ (if bitOf (uAt (head ++ body) 2 1) 0 = true then 45 else 12) ∨
      (7 < uAt (head ++ body) 3 1 ∧ uAt (head ++ body) 3 1 ≠ 255) ∨
      (bitOf (uAt (head ++ body) 2 1) 0 = true ∧ uAt (head ++ body) 36 1 ≠ 0)) :=
    not_or.mpr ⟨not_not.mpr hlen, not_or.mpr ⟨by omega, fun hn => hn.2 (hslot hn.1)⟩⟩
  show execGetMeasurements via head body s = _
  rw [execGetMeasurements]
  refine spdmPlain_taken h halgs ((if_neg hgood).trans ?_)
  rw [if_neg (by simp [spdmDraws_of_signs hsig]), spdmDraw_eq]
  rfl

/-! ## Requests in a record -/

/-- A record that opens leaves the responder's keys as the opening does, and nothing else changes. -/
theorem openRecord_frame (h : s.openRecord r = some (m, t)) : ∃ p, t = { s with bus := { s.bus with spdm := p } } := by
  unfold State.openRecord at h
  dsimp only at h
  split at h
  · cases h
    exact ⟨_, rfl⟩
  · split at h
    · cases h
    · obtain ⟨b, -, hb⟩ := Option.map_eq_some_iff.mp h
      cases hb
      exact ⟨_, rfl⟩

/-- A request of the row in its phase of the session is taken. -/
theorem inRecord_taken {mine : Bytes → Bool} {f : Bytes → State → State} {u : State} (h : InSession s via r phase m t)
    (hm : mine m = true) (hu : f m t = u) : s.inRecord via r phase mine f = .next u := by
  simp [State.inRecord, spdmUp_of_stage h.ready, h.running, h.path, h.opened, hm, h.version, h.inPhase, hu]

theorem inRecord_outside {mine : Bytes → Bool} {f : Bytes → State → State} (h : s.start.stage = 0x0C)
    (hs : s.bus.spdm.session = 0 ∨ s.bus.spdm.path ≠ via) (r : Bytes) :
    s.inRecord via r phase mine f = .next (RespondsError s s.bus.spdm 11) := by
  simp [State.inRecord, spdmUp_of_stage h, hs, spdmError_eq]

/-- A record that does not open ends the session. -/
theorem inRecord_unopened {mine : Bytes → Bool} {f : Bytes → State → State} (h : s.start.stage = 0x0C)
    (hsession : s.bus.spdm.session ≠ 0) (hpath : s.bus.spdm.path = via) (hr : s.openRecord r = none) :
    s.inRecord via r phase mine f = .next (s.endSession.spdmError 6) := by
  simp [State.inRecord, spdmUp_of_stage h, hsession, hpath, hr]

theorem hasCode_of_inSession (h : InSession s via r phase m t) (hc : uAt m 1 1 = code) : hasCode code m = true := by
  simp [hasCode, h.length, hc]

section
variable (h : InSession s via r 1 m t) (hcode : uAt m 1 1 = 0xE5) (hbit : bitOf (uAt m 2 1) 0 = false) (hlen : m.length = 52)
include h hcode hbit hlen

theorem finish_gives (hmac : m.drop 4 = verifyData t.bus.spdm.toDev.secret (t.bus.spdm.th ++ m.take 4)) :
    let q := t.bus.spdm
    let rsp := spdmMsg 0x65 0 0 []
    let keys := dirSecrets (masterSecret q.master) (q.th ++ m ++ rsp) "req app data" "rsp app data"
    Gives (.finish via r) s ((t.sendSecured rsp).setSpdm fun x =>
      { x with session := 2, master := masterSecret q.master, toDev := keys.1, toHost := keys.2, th := [] }) := by
  refine inRecord_taken h (hasCode_of_inSession h hcode) ?_
  dsimp only
  rw [if_neg (by simp [hbit, hlen]), if_neg (by simp [hmac])]

theorem finish_fails (hmac : m.drop 4 ≠ verifyData t.bus.spdm.toDev.secret (t.bus.spdm.th ++ m.take 4)) :
    Gives (.finish via r) s (t.sendSecured (spdmErrorMsg 6)).endSession := by
  refine inRecord_taken h (hasCode_of_inSession h hcode) ?_
  dsimp only
  rw [if_neg (by simp [hbit, hlen]), if_pos hmac]

end

section
variable (h : InSession s via r 2 m t)
include h

theorem endSession_gives (hcode : uAt m 1 1 = 0xEC) :
    Gives (.endSession via r) s (t.sendSecured (spdmMsg 0x6C 0 0 [])).endSession :=
  inRecord_taken h (hasCode_of_inSession h hcode) rfl

theorem heartbeat_gives (hcode : uAt m 1 1 = 0xE8) : Gives (.heartbeat via r) s (t.sendSecured (spdmMsg 0x68 0 0 [])) :=
  inRecord_taken h (hasCode_of_inSession h hcode) rfl

/-- KEY_UPDATE by its operation. -/
theorem keyUpdate_gives (hcode : uAt m 1 1 = 0xE9) :
    let q := t.bus.spdm
    let ack := fun k => spdmMsg 0x69 k (uAt m 3 1) []
    (uAt m 2 1 = 1 → Gives (.keyUpdate via r) s
      ((t.setSpdm fun x => { x with toDev := q.toDev.next, oldKey := some q.toDev }).sendSecured (ack 1))) ∧
    (uAt m 2 1 = 2 → Gives (.keyUpdate via r) s
      ((t.setSpdm fun x => { x with toDev := q.toDev.next, oldKey := some q.toDev, toHost := q.toHost.next }).sendSecured (ack 2))) ∧
    (uAt m 2 1 = 3 → Gives (.keyUpdate via r) s ((t.setSpdm fun x => { x with oldKey := none }).sendSecured (ack 3))) := by
  have hmine := hasCode_of_inSession h hcode
  refine ⟨fun hop => inRecord_taken h hmine ?_, fun hop => inRecord_taken h hmine ?_, fun hop => inRecord_taken h hmine ?_⟩
  · rw [hop, if_pos rfl]
    exact congrArg (State.sendSecured · _) (setSpdm_congr rfl)
  · rw [hop, if_neg (by decide), if_pos rfl]
    exact congrArg (State.sendSecured · _) (setSpdm_congr rfl)
  · rw [hop, if_neg (by decide), if_neg (by decide), if_pos rfl]

end

/-- The responder's part: each request by its row. -/
theorem spdmResponder : Claims.SpdmResponder := by
  intro s via hready p
  refine ⟨fun msg => getVersion_gives hready, fun msg h => ⟨getCapabilities_gives h, getCapabilities_refused h⟩,
    fun msg l h hcaps halgs hl hlen => ?_,
    fun halgs hchain => ⟨fun msg => getDigests_gives halgs hchain, fun head body => getCertificate_gives halgs hchain rfl,
      fun head body => getCertificate_refused halgs hchain rfl, fun msg => challenge_gives halgs hchain,
      fun msg h hnone hslot hlen => keyExchange_gives halgs hchain h hnone hslot hlen⟩,
    fun msg => keyExchange_refused, ?_,
    fun r m t h hcode hbit hlen => ⟨finish_gives h hcode hbit hlen, finish_fails h hcode hbit hlen⟩,
    fun r m t h => ⟨endSession_gives h, heartbeat_gives h, keyUpdate_gives h⟩, ?_, ?_⟩
  · have hgives := negotiateAlgorithms_gives h hcaps halgs hl hlen
    refine ⟨fun hsign hhash hkey haead => ?_, fun hmiss => ?_⟩
    · rwa [if_pos ⟨hsign, hhash, hkey, haead⟩] at hgives
    · rwa [if_neg fun ⟨hsign, hhash, hkey, haead⟩ => by simp_all] at hgives
  · intro head body msg h halgs hop hsig op block l rsp
    have hrsp : s.measureMsg op (drawBytes s.free 32) (msg.drop (msg.length - 8)) = rsp := by
      rw [State.measureMsg, measureIndices_eq]
      rfl
    have hgives := fun hlen hslot => getMeasurements_gives rfl h halgs hop hsig hlen hslot hrsp
    refine ⟨fun hbit hlen => ?_, fun hbit hlen hslot => ?_⟩
    · have hunsigned : ¬ bitOf (uAt msg 2 1) 0 = true := Bool.not_eq_true _ ▸ hbit
      have hanswer := hgives (hlen.trans (if_neg hunsigned).symm) fun hs => absurd hs hunsigned
      rwa [if_neg hunsigned] at hanswer
    · have hanswer := hgives (hlen.trans (if_pos hbit).symm) fun _ => hslot
      rwa [if_pos hbit] at hanswer
  · intro r hs
    refine ⟨?_, ?_, ?_, ?_⟩
    all_goals exact inRecord_outside hready hs r
  · intro r hsession hpath hr
    refine ⟨s.endSession.spdmError 6, ?_, ?_, ?_, ?_, rfl, rfl, rfl, rfl⟩
    all_goals exact inRecord_unopened hready hsession hpath hr

end
end Sys2Proof.Proofs
end

section
/-! # IDE keys and the security of interfaces (R120, R121, log 68) -/

namespace Sys2Proof.Proofs

open Sys2Proof Sys2Proof.Machine Sys2Proof.Claims

section
variable {s t : State} {r m a z : Bytes} {n : Nat} {y : Slice}

/-! ## IDE key management -/

/-- IDE_KM by the object of its message. -/
theorem ideKm_gives (h : InSession s .doe (a ++ z) 2 m t) (hm : vendorOf 0 m = true) :
    let b := m.drop 12
    let k := uAt b 3 1
    let key := t.bus.spdm.ideKeys.getD k 0
    (uAt b 0 1 = 0 → Gives (.ideKm a z) s (t.sendSecured (vendorMsg 0 (le 1 1 ++ le 1 0 ++ bytesAt b 2 1 ++ le 4 0 ++
      (List.range 8).flatMap fun k => le 1 (t.bus.spdm.ideKeys.getD k 0))))) ∧
    (uAt b 0 1 = 2 → b.length = 47 → uAt b 6 1 = 0 → k < 8 → Gives (.ideKm a z) s ((t.setIde k 1).sendSecured (ideAck 3 0 b))) ∧
    (uAt b 0 1 = 5 → k < 8 → Gives (.ideKm a z) s ((t.setIde k 0).sendSecured (ideAck 6 0 b))) ∧
    (uAt b 0 1 = 4 → k < 8 → key ≠ 0 → Gives (.ideKm a z) s ((t.setIde k 2).sendSecured (ideAck 6 0 b))) ∧
    (uAt b 0 1 = 4 → key = 0 → Gives (.ideKm a z) s (t.sendSecured (spdmErrorMsg 1))) := by
  intro b k key
  refine ⟨fun hobj => inRecord_taken h hm ?_, fun hobj hlen hport hk => inRecord_taken h hm ?_,
    fun hobj hk => inRecord_taken h hm ?_, fun hobj hk hkey => inRecord_taken h hm ?_, fun hobj hkey => inRecord_taken h hm ?_⟩
  all_goals
    dsimp only
    rw [hobj]
  · rfl
  · exact (if_neg (not_not.mpr hlen)).trans ((if_neg (not_not.mpr hport)).trans (if_neg (Nat.not_le.mpr hk)))
  · exact if_neg (Nat.not_le.mpr hk)
  · exact if_neg (not_or.mpr ⟨Nat.not_le.mpr hk, hkey⟩)
  · exact if_pos (.inr hkey)

/-! ## TDISP -/

/-- An INTERFACE_ID names its slice. -/
theorem interfaceSlice_eq (hz : zeroAt m 22 6 = true) (hlen : 28 ≤ m.length) :
    interfaceSlice (bytesAt m 16 12) = some (uAt m 20 2) := by
  have hat : ∀ i k, i + k ≤ 12 → bytesAt (bytesAt m 16 12) i k = bytesAt m (16 + i) k := fun i k hik => by
    rw [bytesAt, bytesAt, bytesAt, List.drop_take, List.take_take, List.drop_drop, Nat.min_eq_left (by omega)]
  have hn : (bytesAt m 16 12).length = 12 := by
    rw [bytesAt, List.length_take, List.length_drop]
    omega
  have hzero : zeroAt (bytesAt m 16 12) 6 6 = true := by
    rw [zeroAt, hat 6 6 (by omega)]
    exact hz
  have hslice : uAt (bytesAt m 16 12) 4 2 = uAt m 20 2 := by
    rw [uAt, hat 4 2 (by omega)]
    rfl
  rw [interfaceSlice, hzero, hn, hslice]
  rfl

/-- A TDISP request of version 1.0 within a session about the interface of slice `n`. -/
structure Tdisp (s t : State) (r m : Bytes) (type n : Nat) (y : Slice) : Prop where
  session : InSession s .doe r 2 m t
  vendor : vendorOf 1 m = true
  version : uAt m 12 1 = 0x10
  type : uAt m 13 1 = type
  interface : interfaceSlice (bytesAt m 16 12) = some n
  slice : s.slices.find n = some y

/-- A request of the row is taken. -/
theorem tdisp_taken {type : Nat} {f : Bytes → Nat → Slice → Bytes → State → State} {u : State} (h : Tdisp s t r m type n y)
    (hu : f (bytesAt m 16 12) n y (m.drop 28) t = u) : s.tdisp r type f = .next u := by
  obtain ⟨hsession, hvendor, hversion, htype, hid, hslice⟩ := h
  obtain ⟨p, hp⟩ := openRecord_frame hsession.opened
  have ht : t.slices.find n = some y := by rw [hp]; exact hslice
  refine inRecord_taken hsession (by simp [hvendor, htype]) ?_
  simp [hversion, hid, ht, hu]

/-- A record that opens leaves the responder able to sign. -/
theorem signs_of_opened (h : s.openRecord r = some (m, t)) (hs : Signs s) : Signs t := by
  obtain ⟨p, rfl⟩ := openRecord_frame h
  exact ⟨hs.ready, hs.safe, hs.identity, hs.draws⟩

theorem locked_of_tdi (h : y.tdi = .configLocked ∨ y.tdi = .run) : y.locked = true := by
  simpa [Slice.locked] using h

theorem not_locked_of_tdi (h : y.tdi = .configUnlocked ∨ y.tdi = .error) : y.locked = false := by
  rcases h with h | h <;> simp [Slice.locked, h]

/-- The report on an interface. -/
theorem interfaceReport_eq (t : State) (n : Nat) (y : Slice) : t.interfaceReport n y =
    le 12 0 ++ le 4 1 ++ le 8 ((y.winBase + uAt (t.bus.spdm.locks.getD n []) 32 8) / 4096) ++ le 4 (y.winSize / 4096) ++ le 8 0 := by
  have h12 : le 2 0 ++ le 2 0 ++ le 2 0 ++ le 2 0 ++ le 4 0 = le 12 0 := rfl
  have h8 : le 8 0 = le 4 0 ++ le 4 0 := rfl
  rw [State.interfaceReport, h12, h8, ← List.append_assoc]

theorem getDeviceInterfaceReport_gives (h : Tdisp s t r m 0x84 n y) (hlen : (m.drop 28).length = 4)
    (hoff : uAt (m.drop 28) 0 2 < 36) (hl : y.locked = true) :
    let b := m.drop 28
    let report := le 12 0 ++ le 4 1 ++ le 8 ((y.winBase + uAt (t.bus.spdm.locks.getD n []) 32 8) / 4096) ++ le 4 (y.winSize / 4096) ++
      le 8 0
    let p := (report.drop (uAt b 0 2)).take (uAt b 2 2)
    Gives (.getDeviceInterfaceReport r) s
      (t.sendSecured (tdispMsg 4 (bytesAt m 16 12) (le 2 p.length ++ le 2 (36 - uAt b 0 2 - p.length) ++ p))) := by
  intro b report p
  have hreport : t.interfaceReport n y = report := interfaceReport_eq ..
  have hbytes : report.length = 36 := by simp [report]
  have hasked : ¬ (b.length ≠ 4 ∨ 36 ≤ uAt b 0 2) := not_or.mpr ⟨not_not.mpr hlen, Nat.not_le.mpr hoff⟩
  show execGetDeviceInterfaceReport r s = _
  refine tdisp_taken h ?_
  dsimp only
  rw [hl, hreport, hbytes, if_neg hasked]
  rfl

theorem getDeviceInterfaceReport_refused (h : Tdisp s t r m 0x84 n y) (hl : y.locked = false) :
    Gives (.getDeviceInterfaceReport r) s (t.sendSecured (tdispErrorMsg (bytesAt m 16 12) 4)) := by
  show execGetDeviceInterfaceReport r s = _
  refine tdisp_taken h ?_
  dsimp only
  rw [hl]
  rfl

/-- LOCK binds an unlocked interface to a stream that has keys; otherwise it is answered with an error. -/
theorem lockInterfaceRequest_gives (h : Tdisp s t (a ++ z) m 0x83 n y) (hlen : (m.drop 28).length = 20) :
    let id := bytesAt m 16 12
    let b := m.drop 28
    let error := fun code => t.sendSecured (tdispErrorMsg id code)
    let k := uAt b 2 1
    let nonce := drawBytes t.free 32
    (y.tdi ≠ .configUnlocked → Gives (.lockInterfaceRequest a z) s (error 4)) ∧
    (y.tdi = .configUnlocked → 8 ≤ k ∨ t.bus.spdm.ideKeys.getD k 0 = 0 → Gives (.lockInterfaceRequest a z) s (error 1)) ∧
    (y.tdi = .configUnlocked → k < 8 → t.bus.spdm.ideKeys.getD k 0 ≠ 0 → Signs s →
      Gives (.lockInterfaceRequest a z) s ((((t.drawFrom 4 32).2.setSpdm fun x =>
        { x with locks := x.locks.put n (nonce ++ bytesAt b 4 8) }).setSlice n fun y =>
        { y with tdi := .configLocked, ideStream := some (BitVec.ofNat 3 k) }).sendSecured (tdispMsg 3 id nonce))) := by
  have hexec : exec (.lockInterfaceRequest a z) s = execLockInterfaceRequest a z s := rfl
  refine ⟨fun htdi => hexec.trans (tdisp_taken h ?_), fun htdi hk => hexec.trans (tdisp_taken h ?_),
    fun htdi hk hkey hsig => hexec.trans (tdisp_taken h ?_)⟩
  · exact if_pos htdi
  · exact (if_neg (not_not.mpr htdi)).trans (if_pos (.inr hk))
  · have hbody : ¬ ((m.drop 28).length ≠ 20 ∨ 8 ≤ uAt (m.drop 28) 2 1 ∨ t.ideKey (uAt (m.drop 28) 2 1) = 0) :=
      not_or.mpr ⟨not_not.mpr hlen, not_or.mpr ⟨Nat.not_le.mpr hk, hkey⟩⟩
    have hdraws := spdmDraws_of_signs (signs_of_opened h.session.opened hsig)
    dsimp only
    rw [if_neg (not_not.mpr htdi), if_neg hbody, hdraws]
    rfl

/-- START with the nonce of LOCK takes a locked interface to RUN. -/
theorem startInterfaceRequest_gives (h : Tdisp s t r m 0x86 n y) :
    let id := bytesAt m 16 12
    let b := m.drop 28
    let error := fun code => t.sendSecured (tdispErrorMsg id code)
    let lock := t.bus.spdm.locks.getD n []
    (y.tdi ≠ .configLocked → Gives (.startInterfaceRequest r) s (error 4)) ∧
    (y.tdi = .configLocked → b ≠ lock.take 32 → Gives (.startInterfaceRequest r) s (error 0x102)) ∧
    (y.tdi = .configLocked → b = lock.take 32 → Gives (.startInterfaceRequest r) s
      ((t.setSlice n fun y => { y with tdi := .run }).sendSecured (tdispMsg 6 id []))) := by
  have hexec : exec (.startInterfaceRequest r) s = execStartInterfaceRequest r s := rfl
  exact ⟨fun htdi => hexec.trans (tdisp_taken h (if_pos htdi)),
    fun htdi hb => hexec.trans (tdisp_taken h ((if_neg (not_not.mpr htdi)).trans (if_pos hb))),
    fun htdi hb => hexec.trans (tdisp_taken h ((if_neg (not_not.mpr htdi)).trans (if_neg (not_not.mpr hb))))⟩

theorem getTdispVersion_gives (h : Tdisp s t r m 0x81 n y) :
    Gives (.getTdispVersion r) s (t.sendSecured (tdispMsg 1 (bytesAt m 16 12) (le 1 1 ++ le 1 0x10))) := by
  show execGetTdispVersion r s = _
  exact tdisp_taken h rfl

theorem getTdispCapabilities_gives (h : Tdisp s t r m 0x82 n y) : Gives (.getTdispCapabilities r) s (t.sendSecured
    (tdispMsg 2 (bytesAt m 16 12) (le 4 0 ++ le 16 0xFE ++ le 2 0 ++ le 3 0 ++ le 1 64 ++ le 1 1 ++ le 1 1))) := by
  show execGetTdispCapabilities r s = _
  exact tdisp_taken h rfl

theorem getDeviceInterfaceState_gives (h : Tdisp s t r m 0x85 n y) :
    Gives (.getDeviceInterfaceState r) s (t.sendSecured (tdispMsg 5 (bytesAt m 16 12) (le 1 y.tdi.code))) := by
  show execGetDeviceInterfaceState r s = _
  exact tdisp_taken h rfl

theorem stopInterfaceRequest_gives (h : Tdisp s t r m 0x87 n y) :
    Gives (.stopInterfaceRequest r) s (((t.setSlice n fun y => { y with tdi := .configUnlocked, ideStream := none }).setSpdm
      fun x => { x with locks := x.locks.drop n }).sendSecured (tdispMsg 7 (bytesAt m 16 12) [])) := by
  show execStopInterfaceRequest r s = _
  exact tdisp_taken h rfl

theorem interfaceSecurity : Claims.InterfaceSecurity := by
  rintro s t r m a z hsession rfl
  refine ⟨ideKm_gives hsession, fun n y hvendor hversion hz hlen hn hy => ?_⟩
  have ht : ∀ type, uAt m 13 1 = type → Tdisp s t (a ++ z) m type n y := fun type htype =>
    ⟨hsession, hvendor, hversion, htype, hn ▸ interfaceSlice_eq hz hlen, hy⟩
  intro id b type error lock
  refine ⟨fun h => getTdispVersion_gives (ht _ h), fun h => getTdispCapabilities_gives (ht _ h),
    fun h => (getDeviceInterfaceState_gives (ht _ h)).trans ?_,
    fun h hlen hoff => ⟨fun hl => getDeviceInterfaceReport_gives (ht _ h) hlen hoff (locked_of_tdi hl),
      fun hl => getDeviceInterfaceReport_refused (ht _ h) (not_locked_of_tdi hl)⟩,
    fun h => lockInterfaceRequest_gives (ht _ h), fun h => startInterfaceRequest_gives (ht _ h),
    fun h => stopInterfaceRequest_gives (ht _ h)⟩
  cases y.tdi <;> rfl

/-- Settles O56: each request is taken in its order or within its session, and its answer is read off its branch. -/
theorem spdmAndInterfaces : Obligations.SpdmAndInterfaces := ⟨spdmResponder, interfaceSecurity⟩

end
end Sys2Proof.Proofs
end

section
/-! # The results of the lattice, hybrid, hash-based, code-based and survey commands (R126 to R141, R153 to R196, log 21) -/

namespace Sys2Proof.Proofs

open Sys2Proof Sys2Proof.Machine Sys2Proof.Claims

section
variable {s : State} {x o : Nat} {c : Ctx} {f : Ctx → State → Result}

/-- The model's test of a launched operation is the condition of the statements (log 21). -/
theorem allLaunched_iff (c : Ctx) : c.allLaunched = true ↔ Launched c := by
  simp [Ctx.allLaunched, Launched, and_assoc, or_iff_not_imp_left]

/-- A launched operation without a result is given one and is decided where its checks have passed. -/
theorem compute_settles (h : s.ctxs.find x = some c) (ho : c.opcode = o) (hl : Launched c) (hr : c.result = none) :
    s.compute x o f = (s.setCtx x fun d => { d with result := some (f c s) }).settle x := by
  simp only [State.compute, h]
  exact if_pos ⟨ho, (allLaunched_iff c).mpr hl, hr⟩

/-- What a row that computes `r` on its operation does: the result is given, and while a part has not passed it stays. -/
theorem givesResult_of_compute {i : Instr} {r : Computed}
    (hi : ∀ s, exec i s = .next (s.compute r.ctx r.opcode r.result)) : GivesResult i r := by
  intro s c h ho hl hr t
  have hsettle : Gives i s (t.settle r.ctx) := (hi s).trans (next_congr (compute_settles h ho hl hr))
  refine ⟨hsettle, fun hdrop hparts => ?_⟩
  have hstays : t.settle r.ctx = t := settle_stays (find_setCtx_some h) hdrop hparts
  exact hsettle.trans (next_congr hstays)

/-- The row of each scheme command computes its result on its operation. -/
theorem exec_of_schemeResult {i : Instr} {r : Computed} (h : schemeResult i = some r) (s : State) :
    exec i s = .next (s.compute r.ctx r.opcode r.result) := by
  unfold schemeResult at h
  split at h
  case h_33 => exact absurd h (Option.some_ne_none r).symm
  all_goals
    obtain rfl := Option.some.inj h
    rfl

/-! ## VERIFY_BEARING (R194 to R196) -/

/-- What the row answers on a bearing: its verdict against the anchor that it names, or a rejection where none is held. -/
def bearingResult (c : Ctx) (s : State) : Result :=
  match s.anchorHeld c.slice (c.payload.take 32) with
  | some a => Result.verdict (bearingOk a c.payload)
  | none => Result.bare St.inputRejected

/-- The anchor of an operation of the row becomes the most recently used before the result is formed (R195). -/
theorem execVerifyBearing_touches (h : s.ctxs.find x = some c) (ho : c.opcode = 0x1A03) :
    execVerifyBearing x s = .next ((s.touchAnchor c.slice (c.payload.take 32)).compute x 0x1A03 bearingResult) := by
  simp only [execVerifyBearing, h, if_pos ho]
  rfl

theorem verifyBearing_gives (h : s.ctxs.find x = some c) (ho : c.opcode = 0x1A03) (hl : Launched c) (hr : c.result = none) :
    let b := s.touchAnchor c.slice (c.payload.take 32)
    Gives (.verifyBearing x) s ((b.setCtx x fun d => { d with result := some (bearingResult c b) }).settle x) := by
  intro b
  have hctxs : b.ctxs.find x = some c := h
  exact (execVerifyBearing_touches h ho).trans (next_congr (compute_settles hctxs ho hl hr))

end

/-- Settles O8: each row computes on its operation, which is given the result and then settled. -/
theorem schemeResults : Obligations.SchemeResults :=
  ⟨fun _ _ h => givesResult_of_compute (exec_of_schemeResult h), fun _ _ _ h ho hl hr => verifyBearing_gives h ho hl hr⟩

end Sys2Proof.Proofs
end

section
/-! # Stateful keys: their generation, their trees and their reservations (R101, R160 to R163, R165, R166, R169) -/

namespace Sys2Proof.Proofs

open Sys2Proof Sys2Proof.Machine Sys2Proof.Claims

section
variable {s t : State} {i : Instr} {x o id level u v : Nat} {c : Ctx} {l : Leaves} {b : Build} {k : Tree} {ok : Bool}

/-! ## Generation -/

theorem exec_statefulKeygen (h : (i = .lmsKeygen x ∧ o = 0x1301) ∨ (i = .xmssKeygen x ∧ o = 0x1401)) :
    exec i s = .next (s.statefulKeygen x o) := by
  obtain ⟨rfl, rfl⟩ | ⟨rfl, rfl⟩ := h <;> rfl

/-- The generation whose slot is reserved takes the next KEY_ID and counters of which nothing is reserved yet. -/
theorem startStateful_reserved {a : State} {h : Nat} (htests : s.keyTests c = .ok a) (hroom : a.reserveFor x c = some t)
    (hctx : t.ctxs.find x = some { c with reserved := some h }) :
    let id := t.stateful.keyIdCtr + 1
    let m := t.statefulMaterial c id
    let n := totalLeaves (s.setOf c) m
    let l : Leaves := { next := 0, reservedEnd := 0, total := n, block := blockOf c.payload n
                        heights := heightsOf (s.setOf c) m, handle := h }
    s.startStateful x c =
      ({ t with stateful := { t.stateful with keyIdCtr := id, keys := t.stateful.keys.put id l } }).setCtx x fun d =>
        { d with phase := .running, leaf := some id, launchV := t.datum.v, launchTick := t.now, progress := t.now } := by
  simp only [State.startStateful, htests, hroom, hctx]
  rfl

/-- A generation under way, at each further boundary. -/
theorem statefulKeygen_running (h : s.ctxs.find x = some c) (ho : c.opcode = o) (hrun : c.phase = .running)
    (hserv : s.serving = true) (hset : s.unsettled = false) (hleaf : c.leaf = some id) :
    s.statefulKeygen x o = s.finishStateful x c id := by
  simp [State.statefulKeygen, h, ho, hrun, hserv, hset, hleaf]

/-- Once its trees are cached and the journal has room, the generation reserves its first block and deposits its key. -/
theorem finishStateful_deposits (hfind : s.stateful.keys.find id = some l) (hdrop : c.drop = false) (horph : c.orphaned = false)
    (htrees : s.treesCached id = true) (hroom : s.journalRoom = true) :
    let m := s.statefulMaterial c id
    let pub := statefulPub (s.setOf c) m
    let n := min l.block l.total
    8 + pub.length ≤ c.outLimit →
    let b := s.journalWrite id 0 n l.total l.block l.handle
    let b := { b with stateful := { b.stateful with keys := b.stateful.keys.put id { l with reservedEnd := n } } }
    s.finishStateful x c id = b.releaseResult x c (b.createdResult c m pub pub 16 id) := by
  intro m pub n hlimit
  simp only [State.finishStateful, hfind, hdrop, horph, htrees, hroom]
  exact if_neg (Nat.not_lt.mpr hlimit)

/-! ## What the trees of a key need next (R162, R163) -/

/-- The builds of a tree whose present leg is over. -/
abbrev overBuilds (s : State) (id level : Nat) : List Build := (s.buildsOf id level).filter (Build.over s.now)

/-- The trees of key `id`, whose counters are `l`, are served at this boundary. -/
structure Grows (s : State) (id : Nat) (l : Leaves) : Prop where
  found : s.stateful.keys.find id = some l
  serves : s.serving = true
  settled : s.unsettled = false

/-- A tree with an entry whose builds that are over have no further leg. -/
structure Rests (s : State) (id level : Nat) (k : Tree) : Prop where
  entry : s.tree id level = some k
  legs : ∀ b ∈ overBuilds s id level, b.left = []

theorem tree_key (h : s.tree id level = some k) : k.keyId = id ∧ k.level = level := by
  simpa using List.find?_some h

/-- A build found among those that are over belongs to the tree. -/
theorem build_key {f : Build → Bool} (h : (overBuilds s id level).find? f = some b) : b.id = id ∧ b.level = level := by
  have hmem := (List.mem_filter.mp (List.mem_of_find?_eq_some h)).1
  simpa [State.buildsOf] using (List.mem_filter.mp hmem).2

theorem Grows.passes (h : Grows s id l) : ¬ (!s.serving || s.unsettled) = true := by simp [h.serves, h.settled]

theorem treeOn_absent (h : Grows s id l) (hnone : s.tree id level = none) (hdue : s.treeDue id level l = true) :
    s.treeOn id level u ok = s.openTree id level l := by
  simp only [State.treeOn, h.found]
  rw [if_neg h.passes, hnone]
  exact if_pos hdue

theorem treeOn_leg (h : Grows s id l) (htree : s.tree id level = some k)
    (hb : (overBuilds s id level).find? (fun b => !b.left.isEmpty) = some b) : s.treeOn id level u ok = s.legBatch b l := by
  simp only [State.treeOn, h.found]
  rw [if_neg h.passes, htree]
  simp only [hb]

theorem Rests.no_leg (hr : Rests s id level k) : (overBuilds s id level).find? (fun b => !b.left.isEmpty) = none :=
  List.find?_eq_none.mpr fun b hb => by simp [hr.legs b hb]

/-- With no leg to go on, a check that ends comes first. -/
theorem treeOn_end (h : Grows s id l) (hr : Rests s id level k)
    (hb : (overBuilds s id level).find? (fun b => b.check.isSome) = some b) (hv : b.check = some v) :
    s.treeOn id level u ok = s.endBatch v b ok := by
  simp only [State.treeOn, h.found]
  rw [if_neg h.passes, hr.entry]
  simp only [hr.no_leg, hb, hv]
  rfl

theorem no_check (hc : ∀ b ∈ overBuilds s id level, b.check = none) :
    (overBuilds s id level).find? (fun b => b.check.isSome) = none :=
  List.find?_eq_none.mpr fun b hb => by simp [hc b hb]

section
variable (h : Grows s id l) (hr : Rests s id level k) (hc : ∀ b ∈ overBuilds s id level, b.check = none)
include h hr hc

/-- Then a batch of the sheet's region that awaits its check. -/
theorem treeOn_check
    (hb : (overBuilds s id level).find? (fun b => b.check.isNone && decide (unitRegion b.unit = unitRegion u)) = some b) :
    s.treeOn id level u ok = s.checkBatch u b k l := by
  simp only [State.treeOn, h.found]
  rw [if_neg h.passes, hr.entry]
  simp only [hr.no_leg, no_check hc, hb]

/-- Last, a new piece of the tree. -/
theorem treeOn_launch (hb : ∀ b ∈ overBuilds s id level, unitRegion b.unit ≠ unitRegion u) :
    s.treeOn id level u ok = s.launchBatch u k l := by
  have helse : (overBuilds s id level).find? (fun b => b.check.isNone && decide (unitRegion b.unit = unitRegion u)) = none :=
    List.find?_eq_none.mpr fun b hmem => by simp [hb b hmem]
  simp only [State.treeOn, h.found]
  rw [if_neg h.passes, hr.entry]
  simp only [hr.no_leg, no_check hc, helse]

end

/-! ## Turns of a slice (R101, log 116) -/

theorem exec_treeBatchLaunch (hu : u < 104) (h : Grows s id l) : exec (.treeBatchLaunch id level u ok) s =
    .next (s.inTurn (l.handle / 2 ^ 48) 0 u (s.treeTicks (s.treeOn id level u ok) u) (s.treeOn id level u ok)) := by
  show execTreeBatchLaunch id level u ok s = _
  rw [execTreeBatchLaunch, if_neg (Nat.not_le.mpr hu), h.found]

/-- What launches in its slice's turn moves beside its own effect the turns alone. -/
theorem treeBatch_served (hu : u < 104) (h : Grows s id l)
    (hturn : s.myTurn (l.handle / 2 ^ 48) 0 (unitRegion u) (unitKind u) = true) (ht : s.treeOn id level u ok = t) :
    ∃ y, Gives (.treeBatchLaunch id level u ok) s { t with turns := y } := by
  have hserved : ∀ ticks, ∃ y, s.inTurn (l.handle / 2 ^ 48) 0 u ticks t = { t with turns := y } := fun ticks => by
    simp only [State.inTurn, hturn, if_true]
    split <;> exact ⟨_, rfl⟩
  obtain ⟨y, hy⟩ := hserved (s.treeTicks t u)
  refine ⟨y, (exec_treeBatchLaunch hu h).trans (next_congr ?_)⟩
  rw [ht, hy]

/-- From `s` to `t` unit `u` takes no new work: its job stands or is over. -/
structure JobStands (s t : State) (u : Nat) : Prop where
  ends : (t.unitSt u).ends = (s.unitSt u).ends
  job : (t.unitSt u).job = (s.unitSt u).job ∨ (t.unitSt u).job = .idle

theorem JobStands.of_units (h : t.units = s.units) : JobStands s t u := by
  have hu : t.unitSt u = s.unitSt u := congrArg (Tab.getD · u UnitSt.reset) h
  exact ⟨congrArg UnitSt.ends hu, .inl (congrArg UnitSt.job hu)⟩

theorem JobStands.trans {r : State} (h : JobStands r s u) (k : JobStands s t u) : JobStands r t u where
  ends := k.ends.trans h.ends
  job := k.job.elim (fun hk => h.job.imp hk.trans hk.trans) .inr

/-- An update of a unit that keeps its time, and keeps its job or ends it. -/
theorem JobStands.setUnit {f : UnitSt → UnitSt} (hends : (f (s.unitSt v)).ends = (s.unitSt v).ends)
    (hjob : (f (s.unitSt v)).job = (s.unitSt v).job ∨ (f (s.unitSt v)).job = .idle) : JobStands s (s.setUnit v f) u := by
  by_cases h : u = v
  · subst h
    have hu := State.unitSt_setUnit s u f
    exact ⟨by rw [hu, hends], by rwa [hu]⟩
  · have hu := State.unitSt_setUnit_ne s f h
    exact ⟨by rw [hu], .inl (by rw [hu])⟩

/-- A step that gives the unit no work needs no turn. -/
theorem treeBatch_idle (hu : u < 104) (h : Grows s id l) (ht : s.treeOn id level u ok = t) (hs : JobStands s t u) :
    Gives (.treeBatchLaunch id level u ok) s t := by
  have hticks : s.treeTicks t u = 0 := by
    unfold State.treeTicks
    split
    · next hbatch =>
      have hsame : (t.unitSt u).job = (s.unitSt u).job := hs.job.resolve_right (by simp [hbatch])
      exact if_pos ⟨hsame, hs.ends⟩
    · rfl
  rw [Gives, exec_treeBatchLaunch hu h, ht, hticks]
  rfl

/-! ## The end of a batch (log 37) -/

theorem units_raise (s : State) (ev origin a b d e : Nat) : (s.raise ev origin a b d e).units = s.units := by
  obtain ⟨x, g, y, -, -, -, hr⟩ := s.raise_frame ev origin a b d e
  rw [hr]

/-- A charge leaves the work of every unit. -/
theorem jobStands_charge (s : State) (v row u : Nat) : JobStands s (s.charge v row) u := by
  have hmark : JobStands s (s.setUnit v fun x => { x with
      charges := (s.unitSt v).inWindow s.now ++ [s.now], mode := if x.mode = .inService then .suspect else x.mode
      needBench := true }) u := .setUnit rfl (.inl rfl)
  exact hmark.trans (.of_units (units_raise ..))

theorem freeTreeJob_frame (s : State) (v id : Nat) : ∃ y g, s.freeTreeJob v id = { s with units := y, cores := g } := by
  unfold State.freeTreeJob State.endUnit State.clearSheet
  repeat' split
  all_goals exact ⟨_, _, rfl⟩

theorem clearSheet_units (s : State) (v : Nat) : (s.clearSheet v).units = s.units := by
  unfold State.clearSheet
  split <;> rfl

theorem jobStands_freeTreeJob (s : State) (v id u : Nat) : JobStands s (s.freeTreeJob v id) u := by
  unfold State.freeTreeJob
  split
  · split
    · have hfree : JobStands s (s.freeUnit v) u := .setUnit rfl (.inr rfl)
      exact hfree.trans (.of_units (clearSheet_units ..))
    · exact .of_units rfl
  · exact .of_units rfl

theorem jobStands_endBatch (s : State) (v : Nat) (b : Build) (ok : Bool) (u : Nat) : JobStands s (s.endBatch v b ok) u := by
  have hfree : JobStands s ((s.freeTreeJob v b.id).setBuilds (·.erase b)) u :=
    (jobStands_freeTreeJob s v b.id u).trans (.of_units rfl)
  cases ok with
  | true => exact hfree.trans (.of_units rfl)
  | false => exact (hfree.trans (jobStands_charge ..)).trans (jobStands_charge ..)

/-- A batch whose check agrees leaves its tree one piece less. -/
theorem endBatch_true (s : State) (v : Nat) (b : Build) :
    (s.endBatch v b true).stateful.trees = s.stateful.trees.map (fun t =>
      if t.keyId = b.id ∧ t.level = b.level then { t with left := t.left - 1 } else t) ∧
    (s.endBatch v b true).stateful.builds = s.stateful.builds.erase b := by
  obtain ⟨y, g, hf⟩ := freeTreeJob_frame s v b.id
  simp only [State.endBatch, hf, if_true]
  exact ⟨rfl, rfl⟩

/-- A batch whose check disagrees is still to run, and both its sheets are charged. -/
theorem endBatch_false (s : State) (v : Nat) (b : Build) :
    (s.endBatch v b false).stateful.trees = s.stateful.trees ∧
    (s.endBatch v b false).integ.transients = min (min (s.integ.transients + 1) (2 ^ 32 - 1) + 1) (2 ^ 32 - 1) := by
  obtain ⟨y, g, hf⟩ := freeTreeJob_frame s v b.id
  obtain ⟨z, e, h, w, hch⟩ := charge_both_frame ((s.freeTreeJob v b.id).setBuilds (·.erase b)) b.unit v 1
  have he : s.endBatch v b false = (((s.freeTreeJob v b.id).setBuilds (·.erase b)).charge b.unit 1).charge v 1 := rfl
  rw [he, hch, hf]
  exact ⟨rfl, rfl⟩

/-! ## Legs, checks and launches of batches -/

/-- `t` is `s` with a leg of a batch started on unit `w`, and the builds changed by `f`. -/
structure Batched (s t : State) (id level w leg : Nat) (f : List Build → List Build) : Prop where
  job : (t.unitSt w).job = .treeBatch id level
  ends : (t.unitSt w).ends = s.now + leg
  builds : t.stateful.builds = f s.stateful.builds

/-- A job that starts where the time and the builds are those of `s`. -/
theorem batched_startJob {a : State} (hnow : a.now = s.now) (hsame : a.stateful = s.stateful) (id level w leg set : Nat)
    (f : List Build → List Build) (y : Tab (List Turn)) :
    Batched s { (a.startJob w (.treeBatch id level) leg set).setBuilds f with turns := y } id level w leg f := by
  have h : ({ (a.startJob w (.treeBatch id level) leg set).setBuilds f with turns := y } : State).unitSt w =
      (a.unitSt w).takes (.treeBatch id level) (a.now + leg) set :=
    State.unitSt_setUnit a w fun z => z.takes (.treeBatch id level) (a.now + leg) set
  exact ⟨congrArg UnitSt.job h, (congrArg UnitSt.ends h).trans (congrArg (· + leg) hnow),
    congrArg (fun x : Stateful => f x.builds) hsame⟩

theorem drawFor_keeps (s : State) (d u n : Nat) : (s.drawFor d u n).now = s.now ∧ (s.drawFor d u n).stateful = s.stateful := by
  obtain ⟨f, g, a, h⟩ := s.drawFor_frame d u n
  rw [h]
  exact ⟨rfl, rfl⟩

theorem freeTreeJob_keeps (s : State) (v id : Nat) : (s.freeTreeJob v id).now = s.now ∧ (s.freeTreeJob v id).free = s.free ∧
    (s.freeTreeJob v id).stateful = s.stateful := by
  obtain ⟨y, g, h⟩ := freeTreeJob_frame s v id
  rw [h]
  exact ⟨rfl, rfl, rfl⟩

/-- The next leg of a batch runs on the batch's own sheet. -/
theorem legBatch_goes (hmay : s.mayLaunch b.sheet = true) (hfree : s.jobFree b.sheet = true)
    (hbench : s.benchFirst b.sheet (b.left.headD 0) (s.buildSet l) = none) : s.legBatch b l =
      (s.startJob b.sheet (.treeBatch b.id b.level) (b.left.headD 0) (s.buildSet l)).setBuilds fun bs =>
        bs.map fun x => if x = b then { x with ends := s.now + b.left.headD 0, left := b.left.tail } else x := by
  simp only [State.legBatch, hmay, hfree, hbench]
  rfl

theorem treeDraw_serves {r : Nat} (h : s.drawState r = .serves) (l : Leaves) (go : State → State) : s.treeDraw r l go = go s := by
  simp only [State.treeDraw, h]

/-- The partner of a finished batch recomputes it under masks of its own. -/
theorem checkBatch_goes (hsame : unitRegion b.unit = unitRegion u) (hreg : s.meetsR19 (unitRegion b.unit) 0 = true)
    (hkind : unitKind u = 0) (hne : u ≠ b.unit) (hfree : s.unitFree u = true) (hpass : s.passedOver u b.unit = false)
    (hdraw : s.drawState (unitRegion b.unit) = .serves)
    (hbench : s.benchFirst u (firstLeg (s.pieceTicks l k.level k.left)).1 (s.buildSet l) = none) :
    let piece := firstLeg (s.pieceTicks l k.level k.left)
    let a := s.drawFor (unitRegion b.unit) u 32
    s.checkBatch u b k l =
      ((a.freeTreeJob b.unit b.id).startJob u (.treeBatch b.id b.level) piece.1 (s.buildSet l)).setBuilds fun bs =>
        bs.map fun x => if x = b then { x with check := some u, ends := s.now + piece.1, left := piece.2 } else x := by
  simp only [State.checkBatch, hreg]
  rw [if_neg (by simp), if_neg (by simp [hsame, hkind, hne, hfree, hpass]), treeDraw_serves hdraw]
  simp only [hbench, (drawFor_keeps ..).1]

/-- A tree takes a further piece: a batch while one remains beside those under way, or its join alone. -/
def TakesPiece (k : Tree) (busy : Nat) : Prop := (1 < k.left ∧ busy + 1 < k.left) ∨ (k.left = 1 ∧ busy = 0)

/-- A new batch, or the join, runs on a free sheet under masks of its own. -/
theorem launchBatch_goes (hpiece : TakesPiece k (s.buildsOf k.keyId k.level).length) (hkind : unitKind u = 0)
    (hfree : s.unitFree u = true) (hreg : s.meetsR19 (unitRegion u) 0 = true) (hdraw : s.drawState (unitRegion u) = .serves)
    (hbench : s.benchFirst u (firstLeg (s.pieceTicks l k.level k.left)).1 (s.buildSet l) = none) :
    let piece := firstLeg (s.pieceTicks l k.level k.left)
    let a := s.drawFor (unitRegion u) u 32
    s.launchBatch u k l =
      (a.startJob u (.treeBatch k.keyId k.level) piece.1 (s.buildSet l)).setBuilds fun bs =>
        bs ++ [{ id := k.keyId, level := k.level, unit := u, check := none, ends := s.now + piece.1, left := piece.2 }] := by
  unfold TakesPiece at hpiece
  simp only [State.launchBatch]
  rw [if_neg (by omega), if_neg (by simp [hkind, hfree, hreg]), treeDraw_serves hdraw]
  simp only [hbench, (drawFor_keeps ..).1]

/-! ## TREE_BATCH_LAUNCH -/

/-- A tree that is due takes its entry in the cache. -/
theorem treeBatch_opens {ts : List Tree} (hu : u < 104) (h : Grows s id l) (hnone : s.tree id level = none)
    (hdue : s.treeDue id level l = true) (hroom : s.treeRoom = some ts) :
    Gives (.treeBatchLaunch id level u ok) s { s with stateful := { s.stateful with
      trees := ts ++ [{ keyId := id, level := level, left := s.batchCount l level + 1 }] } } := by
  have hopen : s.openTree id level l = { s with stateful := { s.stateful with
      trees := ts ++ [{ keyId := id, level := level, left := s.batchCount l level + 1 }] } } := by
    rw [State.openTree, hroom]
  exact treeBatch_idle hu h ((treeOn_absent h hnone hdue).trans hopen) (.of_units rfl)

/-- The end of a check launches nothing, so it waits for no turn. -/
theorem treeBatch_ends (hu : u < 104) (h : Grows s id l) (hr : Rests s id level k)
    (hb : (overBuilds s id level).find? (fun b => b.check.isSome) = some b) (hv : b.check = some v) (ok : Bool) :
    Gives (.treeBatchLaunch id level u ok) s (s.endBatch v b ok) :=
  treeBatch_idle hu h (treeOn_end h hr hb hv) (jobStands_endBatch ..)

section
variable (hu : u < 104) (h : Grows s id l) (hturn : s.myTurn (l.handle / 2 ^ 48) 0 (unitRegion u) (unitKind u) = true)
include hu h hturn

/-- A batch between two legs goes on. -/
theorem treeBatch_goesOn (htree : s.tree id level = some k)
    (hb : (overBuilds s id level).find? (fun b => !b.left.isEmpty) = some b) (hmay : s.mayLaunch b.sheet = true)
    (hfree : s.jobFree b.sheet = true) (hbench : s.benchFirst b.sheet (b.left.headD 0) (s.buildSet l) = none) :
    ∃ t, Gives (.treeBatchLaunch id level u ok) s t ∧ Batched s t id level b.sheet (b.left.headD 0) (List.map fun x =>
      if x = b then { x with ends := s.now + b.left.headD 0, left := b.left.tail } else x) := by
  obtain ⟨rfl, rfl⟩ := build_key hb
  obtain ⟨y, hy⟩ := treeBatch_served (ok := ok) hu h hturn ((treeOn_leg h htree hb).trans (legBatch_goes hmay hfree hbench))
  exact ⟨_, hy, batched_startJob rfl rfl ..⟩

/-- The check of a finished batch launches in its region. -/
theorem treeBatch_checks (hr : Rests s id level k) (hc : ∀ b ∈ overBuilds s id level, b.check = none)
    (hb : (overBuilds s id level).find? (fun b => b.check.isNone && decide (unitRegion b.unit = unitRegion u)) = some b)
    (hreg : s.meetsR19 (unitRegion b.unit) 0 = true) (hkind : unitKind u = 0) (hne : u ≠ b.unit) (hfree : s.unitFree u = true)
    (hpass : s.passedOver u b.unit = false) (hdraw : s.drawState (unitRegion b.unit) = .serves)
    (hbench : s.benchFirst u (firstLeg (s.pieceTicks l level k.left)).1 (s.buildSet l) = none) :
    let piece := firstLeg (s.pieceTicks l level k.left)
    ∃ t, Gives (.treeBatchLaunch id level u ok) s t ∧ t.free = s.free + 1 ∧ Batched s t id level u piece.1 (List.map fun x =>
      if x = b then { x with check := some u, ends := s.now + piece.1, left := piece.2 } else x) := by
  have hsame : unitRegion b.unit = unitRegion u := by
    have hfound := List.find?_some hb
    exact of_decide_eq_true (Bool.and_eq_true_iff.mp hfound).2
  have hon := treeOn_check (ok := ok) h hr hc hb
  obtain ⟨rfl, rfl⟩ := build_key hb
  obtain ⟨-, hlevel⟩ := tree_key hr.entry
  rw [← hlevel] at hbench
  have hgoes := checkBatch_goes hsame hreg hkind hne hfree hpass hdraw hbench
  rw [hlevel] at hgoes
  obtain ⟨y, hy⟩ := treeBatch_served hu h hturn (hon.trans hgoes)
  obtain ⟨hnow, hdrawn, hstateful⟩ := freeTreeJob_keeps (s.drawFor (unitRegion b.unit) u 32) b.unit b.id
  obtain ⟨hnow', hstateful'⟩ := drawFor_keeps s (unitRegion b.unit) u 32
  exact ⟨_, hy, hdrawn.trans (drawFor_free ..), batched_startJob (hnow.trans hnow') (hstateful.trans hstateful') ..⟩

/-- A further piece launches on a sheet of a region where no batch of the tree awaits its check. -/
theorem treeBatch_launches (hr : Rests s id level k) (hc : ∀ b ∈ overBuilds s id level, b.check = none)
    (hb : ∀ b ∈ overBuilds s id level, unitRegion b.unit ≠ unitRegion u) (hkind : unitKind u = 0)
    (hfree : s.unitFree u = true) (hreg : s.meetsR19 (unitRegion u) 0 = true) (hdraw : s.drawState (unitRegion u) = .serves)
    (hpiece : TakesPiece k (s.buildsOf id level).length)
    (hbench : s.benchFirst u (firstLeg (s.pieceTicks l level k.left)).1 (s.buildSet l) = none) :
    let piece := firstLeg (s.pieceTicks l level k.left)
    ∃ t, Gives (.treeBatchLaunch id level u ok) s t ∧ t.free = s.free + 1 ∧ Batched s t id level u piece.1
      (· ++ [{ id := id, level := level, unit := u, check := none, ends := s.now + piece.1, left := piece.2 }]) := by
  have hon := treeOn_launch (ok := ok) h hr hc hb
  obtain ⟨rfl, rfl⟩ := tree_key hr.entry
  obtain ⟨y, hy⟩ := treeBatch_served hu h hturn (hon.trans (launchBatch_goes hpiece hkind hfree hreg hdraw hbench))
  obtain ⟨hnow, hstateful⟩ := drawFor_keeps s (unitRegion u) u 32
  exact ⟨_, hy, drawFor_free s (unitRegion u) u 32, batched_startJob hnow hstateful ..⟩

end

/-! ## Reservations (R169, log 36) -/

/-- Where the budget has room and nothing waits for it, a key whose block runs out reserves the next one. -/
theorem execJournalReserve_extends {r : JRec} (hfind : s.stateful.keys.find id = some l) (hserv : s.serving = true)
    (hdue : l.reserveDue = true) (hroom : s.journalRoom = true) (hrec : s.recOf id = some r) (hex : r.exhausted = false) :
    let stop := min (l.reservedEnd + l.block) l.total
    let b := s.journalWrite id r.flags stop l.total l.block l.handle
    execJournalReserve id s = .next
      { b with stateful := { b.stateful with keys := b.stateful.keys.put id { l with reservedEnd := stop } } } := by
  have howed : s.stateful.owed.isEmpty = true := (Bool.and_eq_true_iff.mp hroom).2
  have hres : s.reserves id = true := by simp [State.reserves, hrec, hex]
  simp only [execJournalReserve, howed, hfind, hserv, hdue, hroom, hres, hrec]
  rfl

/-- A write adds to the put of its record its place in the budget alone. -/
theorem journalNow_journal (s : State) (r : JRec) : (s.journalNow r).stateful.journal = (s.journalPut r).stateful.journal := by
  rw [State.journalNow]

section
variable {w : Nat} (hw : ((List.range 8192).map fun i => (s.stateful.ptr + i) % 8192).find?
  (fun w => !protectedWord s.stateful.records w) = some w)
include hw

/-- A record goes into the first open word from the pointer on, under the next SEQUENCE. -/
theorem journalPut_journal (r : JRec) : (s.journalPut r).stateful.journal =
    s.stateful.journal.put w { r with seq := s.stateful.seqBase + 1 }.bytes := by
  unfold State.journalPut
  dsimp only
  rw [hw]

/-- A record that the budget admits is written at once. -/
theorem find_journalWrite {flags next total block handle : Nat} (hroom : s.journalRoom = true) :
    (s.journalWrite id flags next total block handle).stateful.journal.find w =
      some (JRec.bytes ⟨flags, id, next, total, s.stateful.seqBase + 1, block, handle, false⟩) := by
  rw [State.journalWrite, if_pos hroom, journalNow_journal, journalPut_journal hw, Tab.find_put_same]

end

/-- A record that waits for the budget is written before any reservation. -/
theorem execJournalReserve_pays {r : JRec} {rs : List JRec} (howed : s.stateful.owed = r :: rs)
    (hroom : (s.stateful.recent s.now).length < 1024) : execJournalReserve id s =
      .next (({ s with stateful := { s.stateful with owed := rs } }).journalNow r) := by
  have hpay : s.payJournal = ({ s with stateful := { s.stateful with owed := rs } }).journalNow r := by
    simp only [State.payJournal, howed]
    exact if_pos hroom
  rw [execJournalReserve, if_pos (by simp [howed]), hpay]

end

/-- Settles O17: the generation by its two executions, the trees by the order in which TREE_BATCH_LAUNCH looks for work (builds
take the turn of queue 0 of the slice, log 116; a failed check starts its batch anew, log 37), and the journal by the record
that it writes, those that wait first (log 36). -/
theorem statefulKeys : Obligations.StatefulKeys := by
  refine ⟨fun i x o s c hi => ⟨fun a t h hrun htests hroom hctx => ?_,
      fun id l hfind ho hrun hleaf hst hsafe hset hkey hdrop horph htrees hroom hlimit => ?_⟩,
    fun id level u s l hu hkey hst hsafe hset => ?_, fun id s l r hkey hst hsafe hquarter hmore hroom hrec hex => ?_,
    fun id s r rs howed hroom => execJournalReserve_pays howed hroom⟩
  · exact (exec_statefulKeygen hi).trans (next_congr ((statefulKeygen_waiting hrun.found hrun.opcode hrun.waiting).trans
      ((runCore_mayRun hrun _).trans (startStateful_reserved htests hroom hctx))))
  · exact (exec_statefulKeygen hi).trans (next_congr ((statefulKeygen_running hfind ho hrun (serving_of_stage hst hsafe)
      hset hleaf).trans (finishStateful_deposits hkey hdrop horph htrees hroom hlimit)))
  · have h : Grows s id l := ⟨hkey, serving_of_stage hst hsafe, hset⟩
    refine ⟨fun ok ts => treeBatch_opens hu h, fun k htree => ?_⟩
    intro all mine piece set turn
    refine ⟨fun b hb hmay hfree hbench hturn ok => ?_, fun hlegs => ?_⟩
    · obtain ⟨t, ht, hbatch⟩ := treeBatch_goesOn (ok := ok) hu h hturn htree hb hmay hfree hbench
      exact ⟨t, ht, hbatch.job, hbatch.ends, hbatch.builds⟩
    have hr : Rests s id level k := ⟨htree, hlegs⟩
    refine ⟨fun b v hb hv => ?_, fun hc hkind hfree hbench hturn ok => ⟨?_, ?_⟩⟩
    · obtain ⟨htrees, hbuilds⟩ := endBatch_true s v b
      have hends := treeBatch_ends hu h hr hb hv
      exact ⟨hends true, htrees, hbuilds, hends false, endBatch_false s v b⟩
    · intro b hb hreg hne hpass hdraw
      obtain ⟨t, ht, hdrawn, hbatch⟩ :=
        treeBatch_checks (ok := ok) hu h hturn hr hc hb hreg hkind hne hfree hpass hdraw hbench
      exact ⟨t, ht, hbatch.job, hbatch.ends, hdrawn, hbatch.builds⟩
    · intro hb hreg hdraw _ _ hpiece
      have htakes : TakesPiece k (s.buildsOf id level).length :=
        hpiece.imp_right (And.imp_right List.length_eq_zero_iff.mpr)
      obtain ⟨t, ht, hdrawn, hbatch⟩ :=
        treeBatch_launches (ok := ok) hu h hturn hr hc hb hkind hfree hreg hdraw htakes hbench
      exact ⟨t, ht, hbatch.job, hbatch.ends, hdrawn, hbatch.builds⟩
  · have hdue : l.reserveDue = true := by simp [Leaves.reserveDue, hquarter, hmore]
    exact ⟨execJournalReserve_extends hkey (serving_of_stage hst hsafe) hdue hroom hrec hex,
      fun w hw => find_journalWrite hw hroom⟩

end Sys2Proof.Proofs
end

section
/-! # The bearings of a survey batch: their formation on the region core, and its mismatches (R188, R190, R191, R365) -/

namespace Sys2Proof.Proofs

open Sys2Proof Sys2Proof.Machine Sys2Proof.Claims

section
variable {s : State} {x b d n k m r e : Nat} {c : Ctx}

/-! ## The region core turns to a batch -/

/-- The core's turn to its next batch changes contexts alone. -/
theorem formNext_frame (s : State) (r e : Nat) : ∃ l, s.formNext r e = { s with ctxs := l } := by
  unfold State.formNext
  split <;> exact ⟨_, rfl⟩

/-- Of a context it sets at most when its formation ends. -/
theorem find_formNext (h : s.ctxs.find x = some c) :
    ∃ f p, (s.formNext r e).ctxs.find x = some { c with bearingEnd := f, progress := p } := by
  unfold State.formNext
  split
  · next j y _ =>
    by_cases hj : x = j
    · subst hj
      exact ⟨_, _, find_setCtx_some h⟩
    · exact ⟨_, _, (State.find_setCtx_ne s _ hj).trans h⟩
  · exact ⟨_, _, h⟩

/-! ## A fault of the region core (R365) -/

/-- The first fault of a core that is not retired is due with its reason from this boundary on. -/
theorem due_regionFault (hret : s.regionRetired r = false) (hdue : s.integ.due.find r = none) :
    (s.regionFault r n).integ.due.find r = some (n, s.now) := by
  rw [State.regionFault, if_neg (by simp [hret, hdue])]
  exact Tab.find_put_same ..

/-- The third mismatch of a batch: the core turns to the next batch, and this one ends with a fault of the core. -/
def formationFault (s : State) (x : Nat) (c : Ctx) : State :=
  ((s.formNext c.region s.now).failWith x St.unitFault).regionFault c.region 2

/-- A packet whose formation has failed is finished with ST_UNIT_FAULT alone: nothing is released (R191). -/
theorem find_formationFault (h : s.ctxs.find x = some c) (hrun : c.phase = .running) (hdrop : c.drop = false)
    (hb : c.batch = false) : ∃ y, (formationFault s x c).ctxs.find x = some y ∧ y.phase = .finished ∧
      y.result = some (Result.bare 0x0501) := by
  obtain ⟨f, p, hf⟩ := find_formNext (r := c.region) (e := s.now) h
  obtain ⟨g, hg⟩ := State.regionFault_frame ((s.formNext c.region s.now).failWith x St.unitFault) c.region 2
  rw [formationFault, hg]
  exact ⟨_, find_conclude hf (by rw [hrun]; rfl) hb _, rfl, by simp [concluded, outcomeOf, hdrop]⟩

theorem due_formationFault (hret : s.regionRetired c.region = false) (hdue : s.integ.due.find c.region = none) :
    (formationFault s x c).integ.due.find c.region = some (2, s.now) := by
  obtain ⟨l, hl⟩ := formNext_frame s c.region s.now
  obtain ⟨g, l', q, y, v, o, i, hc⟩ := conclude_frame (s.formNext c.region s.now) x (Result.bare St.unitFault)
  rw [formationFault, State.failWith, hc, hl]
  exact due_regionFault hret hdue

/-! ## The end of a formation (R190, R191) -/

/-- What the row answers on a batch whose formation ends at boundary `e` and that finds `m` entries to form again. -/
def formationAt (s : State) (x m : Nat) (c : Ctx) (e : Nat) : Out :=
  if c.bearingOk || decide (s.now < e) then .next s
  else if m = 0 then .next (s.endForming x c e)
  else if c.bearingTries < 2 then .next (s.formAgain x m)
  else .next (formationFault s x c)

theorem formationAt_idle (h : c.bearingOk = true ∨ s.now < e) : formationAt s x m c e = .next s :=
  if_pos (by simpa using h)

/-- At the end of its time a batch that is not yet compared goes by what its comparison shows. -/
theorem formationAt_compares (hok : c.bearingOk = false) (he : e ≤ s.now) : formationAt s x m c e =
    if m = 0 then .next (s.endForming x c e) else if c.bearingTries < 2 then .next (s.formAgain x m)
    else .next (formationFault s x c) :=
  if_neg (by simp [hok, he])

/-! ## BEARING_FORMATION_COMPLETE -/

section
variable (h : s.ctxs.find x = some c) (hj : c.joined = some b)
include h hj

theorem exec_formation_goesOn (hd : c.bearingEnd = some d) :
    exec (.bearingFormationComplete x n k) s = formationAt s x (n + k) c d := by
  show execBearingFormationComplete x n k s = _
  simp only [execBearingFormationComplete, h, hj, hd, Option.isSome_some, Bool.true_or, if_true, Option.bind_some]
  rfl

/-- A batch whose turn has come forms from the boundary of its join's check on. -/
theorem exec_formation_begins (hd : c.bearingEnd = none) (hfree : s.coreForms x b c = false) :
    exec (.bearingFormationComplete x n k) s = formationAt (s.beginForming x b c) x (n + k) c (b + s.formTicks c) := by
  have hf : (s.beginForming x b c).ctxs.find x = some { c with bearingEnd := some (b + s.formTicks c), progress := s.now } :=
    find_setCtx_some h
  show execBearingFormationComplete x n k s = _
  simp only [execBearingFormationComplete, h, hj, hd, hfree, hf, Option.isSome_none, Bool.or_false, Bool.false_eq_true, if_false,
    Option.bind_some]
  rfl

/-- While the core forms an earlier batch, this one waits. -/
theorem exec_formation_waits (hd : c.bearingEnd = none) (hbusy : s.coreForms x b c = true) :
    exec (.bearingFormationComplete x n k) s = .next s := by
  show execBearingFormationComplete x n k s = _
  simp only [execBearingFormationComplete, h, hj, hd, hbusy, Bool.or_true, if_true, Option.bind_some]

end

/-- Only a running batch has a join. -/
theorem running_of_joined (hj : c.joined = some b) : c.phase = .running := by
  unfold Ctx.joined at hj
  split at hj
  · next hrun => exact hrun.2
  · cases hj

end

/-- Settles O18: a batch that forms goes by its end and its comparison; one that does not begins where the core is free. A
third mismatch is a fault of the core with reason 2, and entries formed again take their 100 ns each again (log 41). -/
theorem bearingFormation : Obligations.BearingFormation := by
  intro x b n k s c h hj m e
  refine ⟨fun d hd => ⟨fun hidle => (exec_formation_goesOn h hj hd).trans (formationAt_idle hidle), fun hok hend => ?_⟩,
    fun hd hfree hok => ⟨fun hnow => (exec_formation_begins h hj hd hfree).trans (formationAt_idle (.inr hnow)),
      fun hend => ?_⟩,
    exec_formation_waits h hj⟩
  · have hrow : ∀ n k, exec (.bearingFormationComplete x n k) s = _ := fun n k =>
      (exec_formation_goesOn h hj hd).trans (formationAt_compares hok hend)
    refine ⟨(hrow 0 0).trans (if_pos rfl), fun hm htries => ?_, fun hm htries hdrop hb => ?_⟩
    · exact (hrow n k).trans ((if_neg hm).trans (if_pos htries))
    · obtain ⟨y, hy, hphase, hres⟩ := find_formationFault h (running_of_joined hj) hdrop hb
      exact ⟨_, y, (hrow n k).trans ((if_neg hm).trans (if_neg (by omega))), hy, hphase, hres, due_formationFault⟩
  · exact (exec_formation_begins h hj hd hfree).trans
      ((formationAt_compares (s := s.beginForming x b c) hok hend).trans (if_pos rfl))

end Sys2Proof.Proofs
end

section
/-! # The results of the classical, stream and key commands that units serve (R200 to R217, R226 to R240, R253 to R270, log 21) -/

namespace Sys2Proof.Proofs

open Sys2Proof Sys2Proof.Machine Sys2Proof.Claims

/-- The row of each service command computes its result on its operation. -/
theorem exec_of_serviceResult {i : Instr} {r : Computed} (h : serviceResult i = some r) (s : State) :
    exec i s = .next (s.compute r.ctx r.opcode r.result) := by
  unfold serviceResult at h
  split at h
  case h_31 => exact absurd h (Option.some_ne_none r).symm
  all_goals
    obtain rfl := Option.some.inj h
    rfl

section
variable {s : State} {x o : Nat} {c : Ctx} {y : Slot} {e : Session}

/-- A launched operation without a result is about to get one. -/
theorem due_of_launched (h : s.ctxs.find x = some c) (ho : c.opcode = o) (hl : Launched c) (hr : c.result = none) :
    s.due x o = true := by
  simp [State.due, h, ho, (allLaunched_iff c).mpr hl, hr]

/-! ## KEY_PERSIST (R264, R265) -/

/-- What the row answers on a key under a counter value: its blob, or that the key is gone. -/
def persistResult (ctr : Nat) (c : Ctx) (s : State) : Result :=
  match s.keys.slots.find (slotKey c.keyA) with
  | some y => Result.output (s.persistBlob c y ctr)
  | none => Result.bare St.keyOrphaned

theorem persistResult_of_slot {ctr : Nat} (hy : s.keys.slots.find (slotKey c.keyA) = some y) :
    persistResult ctr c s = Result.output (s.persistBlob c y ctr) := by
  simp only [persistResult, hy]

/-- The counter gives its next value before the blob is formed under it (R265). -/
theorem execKeyPersist_due (hdue : s.due x 0x4005 = true) :
    execKeyPersist x s = .next (s.nextPersist.2.compute x 0x4005 (persistResult s.nextPersist.1)) :=
  if_pos hdue

theorem keyPersist_gives (h : s.ctxs.find x = some c) (ho : c.opcode = 0x4005) (hl : Launched c) (hr : c.result = none)
    (hy : s.keys.slots.find (slotKey c.keyA) = some y) :
    let b := s.nextPersist.2
    Gives (.keyPersist x) s ((b.setCtx x fun d =>
      { d with result := some (Result.output (b.persistBlob c y s.keys.persistNext)) }).settle x) := by
  intro b
  have hctxs : b.ctxs.find x = some c := h
  have hslot : b.keys.slots.find (slotKey c.keyA) = some y := hy
  rw [← persistResult_of_slot hslot]
  exact (execKeyPersist_due (due_of_launched h ho hl hr)).trans (next_congr (compute_settles hctxs ho hl hr))

/-! ## KEY_RECEIVE_PREPARE (R268) -/

/-- The store once a session number has been taken. -/
def takeSession (s : State) : State :=
  { s with keys := { s.keys with nextSession := (s.keys.nextSession + 1) % 2 ^ 32 } }

/-- What the row answers under a session number: the signed head that names it. -/
def prepareResult (id : Nat) (c : Ctx) (s : State) : Result :=
  let head := prepareHead id s.keys.serial (pubOf 0x00100003 ((c.drawn 0x00100003).take 64))
  Result.output (head ++ s.identitySigBy c "MAELARN-KEYMOVE" head)

/-- The session number is taken before the head that names it is signed. -/
theorem execKeyReceivePrepare_due (hdue : s.due x 0x4007 = true) :
    execKeyReceivePrepare x s = .next ((takeSession s).compute x 0x4007 (prepareResult s.keys.nextSession)) :=
  if_pos hdue

theorem keyReceivePrepare_gives (h : s.ctxs.find x = some c) (ho : c.opcode = 0x4007) (hl : Launched c) (hr : c.result = none) :
    let b := takeSession s
    Gives (.keyReceivePrepare x) s ((b.setCtx x fun d =>
      { d with result := some (prepareResult s.keys.nextSession c b) }).settle x) := by
  intro b
  have hctxs : b.ctxs.find x = some c := h
  exact (execKeyReceivePrepare_due (due_of_launched h ho hl hr)).trans (next_congr (compute_settles hctxs ho hl hr))

/-! ## KEY_IMPORT (R268, R269) -/

/-- A peer's turn in the cache leaves the contexts as they are. -/
@[simp] theorem touchPeer_ctxs (s : State) (slice serial : Nat) : (s.touchPeer slice serial).ctxs = s.ctxs := by
  unfold State.touchPeer
  split <;> rfl

/-- An envelope that names no open session of its slice is rejected. -/
theorem keyImport_rejects (h : s.ctxs.find x = some c) (ho : c.opcode = 0x4009) (hl : Launched c) (hr : c.result = none)
    (hnone : s.receiveOf c = none) :
    Gives (.keyImport x) s (((s.touchPeer c.slice (uAt c.payload 8 8)).setCtx x fun d =>
      { d with result := some (Result.bare St.inputRejected) }).settle x) := by
  have hrow : execKeyImport x s =
      .next ((s.touchPeer c.slice (uAt c.payload 8 8)).compute x 0x4009 fun _ _ => Result.bare St.inputRejected) := by
    simp only [execKeyImport, due_of_launched h ho hl hr, h, hnone, if_true]
  have hctxs : (s.touchPeer c.slice (uAt c.payload 8 8)).ctxs.find x = some c := by rwa [touchPeer_ctxs]
  exact hrow.trans (next_congr (compute_settles hctxs ho hl hr))

/-- An envelope of an open session is deposited as a child of the parent that the session names. -/
theorem keyImport_deposits (h : s.ctxs.find x = some c) (ho : c.opcode = 0x4009) (hl : Launched c) (hr : c.result = none)
    (he : s.receiveOf c = some e) :
    let u := (s.touchPeer c.slice (uAt c.payload 8 8)).setCtx x fun d => { d with keyB := e.parent }
    Gives (.keyImport x) s ((u.setCtx x fun d =>
      { d with result := some (u.importResult { c with keyB := e.parent } e) }).settle x) := by
  intro u
  have hrow : execKeyImport x s = .next (u.compute x 0x4009 fun c s => s.importResult c e) := by
    simp only [execKeyImport, due_of_launched h ho hl hr, h, he, if_true]
    rfl
  have hctxs : u.ctxs.find x = some { c with keyB := e.parent } := find_setCtx_some (by rwa [touchPeer_ctxs])
  exact hrow.trans (next_congr (compute_settles hctxs ho hl hr))

end

/-- Settles O9: each row computes on its operation, once the counter, the session number or the parent has been taken. -/
theorem serviceResults : Obligations.ServiceResults :=
  ⟨fun _ _ h => givesResult_of_compute (exec_of_serviceResult h), fun _ _ _ _ h hl hr =>
    ⟨fun ho hy => keyPersist_gives h ho hl hr hy, fun ho => keyReceivePrepare_gives h ho hl hr, fun ho =>
      ⟨fun hnone => keyImport_rejects h ho hl hr hnone, fun _ he => keyImport_deposits h ho hl hr he⟩⟩⟩

end Sys2Proof.Proofs
end

section
/-! # Life-cycle requests, debug certificates, the JTAG port and the identity chain (R250, R412 to R416, R421 to R423, R440) -/

namespace Sys2Proof.Proofs

open Sys2Proof Sys2Proof.Machine Sys2Proof.Claims

section
variable {s : State} {x o st : Nat} {c : Ctx} {p : Bytes} {early : Ctx → State → Option Nat} {k : Ctx → State → State}

/-! ## A command whose signature a sheet verifies -/

/-- What the checks before the signature reject ends with their status. -/
theorem runVerified_rejects (h : MayRun s x o c) (hp : c.parts = []) (he : early c s = some st) :
    s.runVerified x o early k = s.refuse x st := by
  simp only [State.runVerified, ripe_of_atTurn h.toAtTurn, hp, List.isEmpty_nil, if_true, h.time, he]

/-- What they accept waits for the sheet. -/
theorem runVerified_waits (h : MayRun s x o c) (hp : c.parts = []) (he : early c s = none) : s.runVerified x o early k = s := by
  simp only [State.runVerified, ripe_of_atTurn h.toAtTurn, hp, List.isEmpty_nil, if_true, h.time, he]

/-- A command with a part goes on after its verification. -/
theorem runVerified_verified (h : AtTurn s x o c) (hp : c.parts ≠ []) : s.runVerified x o early k = Verified c x (k c s) := by
  simp only [State.runVerified, ripe_of_atTurn h, List.isEmpty_eq_false_iff.mpr hp, Bool.false_eq_true, if_false]
  rfl

/-! ## Requests (R414 to R416) -/

/-- On a queue only the way from DEPLOYED to ANALYSIS is open. -/
theorem requestEarly_denied (h : uAt p 0x14 4 ≠ 4 ∨ s.lcs.code ≠ 3) : s.requestEarly true p = some St.usageDenied :=
  if_pos (by simpa using h)

/-- Where the way is open, or no queue asks, the fields decide. -/
theorem requestEarly_open {b : Bool} (h : b = true → uAt p 0x14 4 = 4 ∧ s.lcs.code = 3) :
    s.requestEarly b p = if s.requestFieldsOk p then none else some St.inputRejected := by
  refine if_neg ?_
  cases b with
  | false => simp
  | true => simp [h rfl]

/-- A request is accepted where its fields and its signature are. -/
theorem requestStatus_eq {b : Bool} (h : b = true → uAt p 0x14 4 = 4 ∧ s.lcs.code = 3) :
    s.requestStatus b p = if s.requestFieldsOk p = true ∧ requestSigned p = true then St.ok else St.inputRejected := by
  rw [State.requestStatus, requestEarly_open h]
  cases s.requestFieldsOk p <;> simp

theorem requestStatus_ok {b : Bool} (h : b = true → uAt p 0x14 4 = 4 ∧ s.lcs.code = 3) (hf : s.requestFieldsOk p = true)
    (hs : requestSigned p = true) : s.requestStatus b p = St.ok :=
  (requestStatus_eq h).trans (if_pos ⟨hf, hs⟩)

theorem requestStatus_rejected {b : Bool} (h : b = true → uAt p 0x14 4 = 4 ∧ s.lcs.code = 3)
    (hn : s.requestFieldsOk p = false ∨ requestSigned p = false) : s.requestStatus b p = St.inputRejected := by
  refine (requestStatus_eq h).trans (if_neg fun ⟨hf, hs⟩ => ?_)
  rcases hn with hn | hn
  · exact absurd hf (hn ▸ Bool.false_ne_true)
  · exact absurd hs (hn ▸ Bool.false_ne_true)

/-- The request that a payload carries, with the digests of the three slots. -/
def requestOf (p : Bytes) : LcsReq :=
  { kind := uAt p 4 2, from_ := uAt p 0x10 4, to_ := uAt p 0x14 4
    digests := [bytesAt p 0x18 48, bytesAt p 0x48 48, bytesAt p 0x78 48] }

/-- An accepted request is the pending one, and its event waits to be recorded. -/
theorem acceptRequest_pending (s : State) (p : Bytes) :
    (s.acceptRequest p).lcs = { s.lcs with pending := some (requestOf p) } ∧
    (s.acceptRequest p).log.queue.length = s.log.queue.length + 1 := by
  obtain ⟨e, h, r, -, -, -, hr⟩ := State.raise_frame { s with lcs := { s.lcs with pending := some (requestOf p) } }
    Ev.lcsRequest Origin.atlas s.lcs.code (uAt p 0x14 4) 0 0
  have he : s.acceptRequest p = _ := hr
  rw [he]
  exact ⟨rfl, List.length_append⟩

theorem lcsRequest_unverified (h : MayRun s x 0x0150 c) (hp : c.parts = []) :
    (uAt c.payload 0x14 4 ≠ 4 ∨ s.lcs.code ≠ 3 → Gives (.lcsRequest (.queue x)) s (s.refuse x 0x0305)) ∧
    (uAt c.payload 0x14 4 = 4 → s.lcs.code = 3 → s.requestFieldsOk c.payload = false →
      Gives (.lcsRequest (.queue x)) s (s.refuse x 0x0201)) ∧
    (uAt c.payload 0x14 4 = 4 → s.lcs.code = 3 → s.requestFieldsOk c.payload = true → Idle (.lcsRequest (.queue x)) s) :=
  ⟨fun hd => next_congr (runVerified_rejects h hp (requestEarly_denied hd)),
   fun ht hc hf => next_congr (runVerified_rejects h hp ((requestEarly_open fun _ => ⟨ht, hc⟩).trans (by rw [hf]; rfl))),
   fun ht hc hf => next_congr (runVerified_waits h hp ((requestEarly_open fun _ => ⟨ht, hc⟩).trans (by rw [hf]; rfl)))⟩

theorem lcsRequest_verified (h : AtTurn s x 0x0150 c) (hp : c.parts ≠ []) (ht : uAt c.payload 0x14 4 = 4) (hc : s.lcs.code = 3)
    (hf : s.requestFieldsOk c.payload = true) :
    (requestSigned c.payload = true →
      Gives (.lcsRequest (.queue x)) s (Verified c x ((s.acceptRequest c.payload).answer x []))) ∧
    (requestSigned c.payload = false → Gives (.lcsRequest (.queue x)) s (Verified c x (s.refuse x 0x0201))) := by
  refine ⟨fun hs => next_congr ((runVerified_verified h hp).trans ?_), fun hs => next_congr ((runVerified_verified h hp).trans ?_)⟩
  · rw [requestStatus_ok (fun _ => ⟨ht, hc⟩) hf hs, if_pos rfl]
  · rw [requestStatus_rejected (fun _ => ⟨ht, hc⟩) (.inr hs), if_neg (by decide)]

/-! ## Certificates (R421, R422) -/

theorem debugInstall_unverified (h : MayRun s x 0x0151 c) (hp : c.parts = []) :
    (s.certEarly c.payload = false → Gives (.debugInstall (.queue x)) s (s.refuse x 0x0201)) ∧
    (s.certEarly c.payload = true → Idle (.debugInstall (.queue x)) s) :=
  ⟨fun he => next_congr (runVerified_rejects h hp (by rw [he]; rfl)),
   fun he => next_congr (runVerified_waits h hp (by rw [he]; rfl))⟩

theorem debugInstall_verified (h : AtTurn s x 0x0151 c) (hp : c.parts ≠ []) :
    (s.certStatus c.payload = 0 → Gives (.debugInstall (.queue x)) s (Verified c x ((s.acceptCert c.payload).answer x []))) ∧
    (s.certStatus c.payload ≠ 0 →
      Gives (.debugInstall (.queue x)) s (Verified c x (s.refuse x (s.certStatus c.payload)))) := by
  refine ⟨fun hs => next_congr ((runVerified_verified h hp).trans ?_), fun hs => next_congr ((runVerified_verified h hp).trans ?_)⟩
  · rw [if_pos hs]
  · rw [if_neg hs]

/-- An accepted certificate binds the device in its state, in a datum that proves it in time. -/
theorem certStatus_ok (h : s.certStatus p = 0) : s.datum.st = .trusted ∧ s.datum.v + s.unc < uAt p 0x10 8 ∧
    uAt p 8 8 = s.keys.serial ∧ uAt p 4 4 = s.lcs.code ∧ (s.lcs.code = 2 ∨ s.lcs.code = 3) ∧
    (uAt p 0x20 2 ≠ 0 → uAt p 0x18 8 < 16) := by
  unfold State.certStatus at h
  dsimp only at h
  split at h
  · exact absurd h (by decide)
  · next hok =>
    split at h
    · next htime =>
      have hgood : s.certEarly p = true ∧ s.certBinds (certOf p) = true := by simpa using hok
      obtain ⟨hearly, hbinds⟩ := hgood
      simp only [State.certTime, State.trusted, Bool.and_eq_true, decide_eq_true_eq] at htime
      simp only [State.certBinds, State.certBound, Bool.and_eq_true, Bool.or_eq_true, beq_iff_eq] at hbinds
      simp only [State.certEarly, Bool.and_eq_true, Bool.or_eq_true, beq_iff_eq, decide_eq_true_eq] at hearly
      obtain ⟨⟨⟨⟨hserial, hstate⟩, hcode⟩, -⟩, -⟩ := hbinds
      obtain ⟨⟨-, hrights⟩, -⟩ := hearly
      exact ⟨htime.1, htime.2, hserial, hstate, hcode, fun hn => hrights.resolve_left hn⟩
    · exact absurd h (by decide)

/-! ## SMBus (R406, R412) -/

/-- From READY on, outside the safe state, SMBus takes the commands of the life cycle. -/
theorem smbLife_ready (hp : s.start.perst = false) (hv : s.start.vddGood = true) (hst : s.start.stage = 0x0C)
    (hsafe : s.integ.safe = false) : s.smbOpen = true ∧ s.smbLifeOpen = true ∧ s.smbLife = none := by
  have ho : s.smbOpen = true := by
    simp only [State.smbOpen, State.started, hp, hv, hst]
    decide
  refine ⟨ho, by rw [State.smbLifeOpen, ho, Bool.true_or], ?_⟩
  rw [State.smbLife, hsafe, if_neg Bool.false_ne_true, if_neg (by rw [hst]; decide)]

/-- An answer without output. -/
theorem smbAnswer_bare (t : State) (st : Nat) :
    t.smbAnswer st = { t with bus := { t.bus with smbus := some (le 2 st ++ le 2 0) } } := by
  rw [State.smbAnswer, List.append_nil]

section
variable (ho : s.smbLifeOpen = true) (hl : s.smbLife = none)
include ho hl

theorem lcsRequest_smbus (hlen : p.length = 7395) : exec (.lcsRequest (.smbus p)) s =
    .next ((if s.requestStatus false p = St.ok then s.acceptRequest p else s).smbAnswer (s.requestStatus false p)) := by
  show execLcsRequest (.smbus p) s = _
  simp only [execLcsRequest, ho, hl, hlen, Bool.not_true, Bool.false_eq_true, ne_eq, not_true_eq_false, if_false]

theorem lcsRequest_smbus_malformed (hlen : p.length ≠ 7395) : exec (.lcsRequest (.smbus p)) s = .next (s.smbAnswer St.malformed) := by
  show execLcsRequest (.smbus p) s = _
  simp only [execLcsRequest, ho, hl, hlen, Bool.not_true, Bool.false_eq_true, ne_eq, not_false_eq_true, if_false, if_true]

theorem lcsCancel_smbus : exec (.lcsCancel (.smbus [])) s = .next (s.cancelLife.smbAnswer St.ok) := by
  show execLcsCancel (.smbus []) s = _
  simp only [execLcsCancel, ho, hl]
  rfl

end

theorem debugInstall_smbus (ho : s.smbOpen = true) (hl : s.smbLife = none) (hlen : p.length = 7259) :
    exec (.debugInstall (.smbus p)) s =
      .next ((if s.certStatus p = St.ok then s.acceptCert p else s).smbAnswer (s.certStatus p)) := by
  show execDebugInstall (.smbus p) s = _
  simp only [execDebugInstall, ho, hl, hlen, Bool.not_true, Bool.false_eq_true, ne_eq, not_true_eq_false, if_false]

/-- What SMBus answers to the commands of the life cycle from READY on. -/
theorem lifeCycle_smbus (hp : s.start.perst = false) (hv : s.start.vddGood = true) (hst : s.start.stage = 0x0C)
    (hsafe : s.integ.safe = false) (p : Bytes) :
    (p.length = 7395 → s.requestFieldsOk p = true → requestSigned p = true →
      Gives (.lcsRequest (.smbus p)) s ((s.acceptRequest p).smbAnswer 0)) ∧
    (p.length = 7395 → s.requestFieldsOk p = false ∨ requestSigned p = false →
      Gives (.lcsRequest (.smbus p)) s (s.smbAnswer 0x0201)) ∧
    (p.length ≠ 7395 → Gives (.lcsRequest (.smbus p)) s (s.smbAnswer 0x0101)) ∧
    (p = [] → Gives (.lcsCancel (.smbus p)) s (s.cancelLife.smbAnswer 0)) ∧
    (p.length = 7259 → s.certStatus p = 0 → Gives (.debugInstall (.smbus p)) s ((s.acceptCert p).smbAnswer 0)) ∧
    (p.length = 7259 → s.certStatus p ≠ 0 → Gives (.debugInstall (.smbus p)) s (s.smbAnswer (s.certStatus p))) := by
  obtain ⟨ho, hlo, hl⟩ := smbLife_ready hp hv hst hsafe
  have hfree : false = true → uAt p 0x14 4 = 4 ∧ s.lcs.code = 3 := fun h => absurd h Bool.false_ne_true
  refine ⟨fun hlen hf hs => (lcsRequest_smbus hlo hl hlen).trans ?_, fun hlen hn => (lcsRequest_smbus hlo hl hlen).trans ?_,
    lcsRequest_smbus_malformed hlo hl, fun he => he ▸ lcsCancel_smbus hlo hl,
    fun hlen h0 => (debugInstall_smbus ho hl hlen).trans ?_, fun hlen h0 => (debugInstall_smbus ho hl hlen).trans ?_⟩
  · rw [requestStatus_ok hfree hf hs, if_pos rfl]
  · rw [requestStatus_rejected hfree hn, if_neg (by decide)]
  · rw [h0, if_pos rfl]
  · rw [if_neg h0]

/-! ## The TAP (R412, R423, R440) -/

theorem jtagAccess_powered (hv : s.start.vddGood = true) (op : JtagOp) : exec (.jtagAccess op) s = match op with
    | .idcode => .next { s with lcs := { s.lcs with tdr := idcode } }
    | .bypass => .next { s with lcs := { s.lcs with tdr := 0 } }
    | .testLogicReset => .next s
    | .service n => if s.rightOpen n then .refused .jtagService else .next s :=
  if_neg (by rw [hv]; decide)

theorem jtagAccess_service (hv : s.start.vddGood = true) (n : Nat) :
    (s.rightOpen n = false → Idle (.jtagAccess (.service n)) s) ∧
    (s.rightOpen n = true → exec (.jtagAccess (.service n)) s = .refused .jtagService) := by
  have he := jtagAccess_powered hv (.service n)
  exact ⟨fun hn => he.trans (if_neg (hn ▸ Bool.false_ne_true)), fun hn => he.trans (if_pos hn)⟩

/-! ## Provisioning (R250, R412) -/

theorem identityChain_given (b : Bytes) (hp : s.start.perst = false) (hv : s.start.vddGood = true)
    (hf : s.start.fuseRead = true) :
    (s.lcs.code = 2 → Gives (.identityChainProvisioning b) s { s with keys := { s.keys with chain := b } }) ∧
    (s.lcs.code ≠ 2 → Idle (.identityChainProvisioning b) s) :=
  ⟨fun hc => if_pos ⟨by rw [State.started, hp, hv]; rfl, hf, hc⟩, fun hc => if_neg fun h => hc h.2.2⟩

end

/-- Settles O24: the checks before the signature, the verdict on a sheet, SMBus, the TAP and the chain, each by its tests. -/
theorem lifeCycle : Obligations.LifeCycle := by
  refine ⟨fun x s c h hp => lcsRequest_unverified h hp, fun x s c h hp ht hc hf => lcsRequest_verified h hp ht hc hf,
    fun p s => acceptRequest_pending s p, fun x s c h => next_congr (runCore_mayRun h _),
    fun x s c h hp => debugInstall_unverified h hp, fun x s c h hp => debugInstall_verified h hp, fun p s h => certStatus_ok h,
    fun p s hp hv hst hsafe => ?_, fun s hv => ⟨jtagAccess_powered hv .idcode, jtagAccess_powered hv .bypass,
      jtagAccess_powered hv .testLogicReset, fun n => (jtagAccess_service hv n).1, fun n => (jtagAccess_service hv n).2⟩,
    fun b s hp hv hf => identityChain_given b hp hv hf⟩
  have h := lifeCycle_smbus hp hv hst hsafe p
  simp only [smbAnswer_bare] at h
  exact h

end Sys2Proof.Proofs
end

section
/-! # What the stages of a start leave alone (R358 to R366, R395 to R405) -/

namespace Sys2Proof.Proofs

open Sys2Proof Sys2Proof.Machine Sys2Proof.Claims

section
variable {β : Type} {g : State → β}

/-- What both branches keep, their choice keeps. -/
theorem ite_keeps {p : Prop} [Decidable p] {s t u : State} (ht : g t = g s) (hu : g u = g s) : g (if p then t else u) = g s := by
  split
  · exact ht
  · exact hu

/-! ## Events -/

/-- What is read of a state does not heed the events that are raised. -/
structure EventBlind (g : State → β) : Prop where
  raised : ∀ s e h l, g { s with events := e, host := h, log := { s.log with queue := l } } = g s

namespace EventBlind
variable (hg : EventBlind g)
include hg

theorem raise (s : State) (code origin p0 p1 p2 p3 : Nat) : g (s.raise code origin p0 p1 p2 p3) = g s := by
  obtain ⟨e, h, r, -, -, -, hr⟩ := s.raise_frame code origin p0 p1 p2 p3
  rw [hr]
  exact hg.raised s e h _

theorem badRows (s : State) (code : Nat) (l : List (Nat × Nat)) : g (s.badRows code l) = g s :=
  foldl_keeps (fun t (p : Nat × Nat) => hg.raise t code Origin.atlas p.1 p.2 0 0) l s

/-- READY keeps what does not heed what it notes in the start. -/
theorem becomeReady (hr : ∀ s k n m d f, g { s with start :=
      { s.start with stage := k, stageFrom := n, readyMs := m, drsSent := d, svnFloor := f } } = g s) (s : State) :
    g s.becomeReady = g s :=
  (hg.raise ..).trans (hr s Stage.ready s.now ((s.now - s.start.t0) / 1000) true (max s.start.svnFloor s.bootBank.minSvn))

end EventBlind

/-! ## The stage and the banks -/

/-- Nor does it heed the stage of the start, its error and the graticule. -/
structure StageBlind (g : State → β) : Prop extends EventBlind g where
  progress : ∀ s a b c d f, g { s with start :=
    { s.start with stage := a, stageFrom := b, errCode := c, errDetail := d, grat := f } } = g s

namespace StageBlind
variable (hg : StageBlind g)
include hg

theorem enterStage (s : State) (k : Nat) : g (s.enterStage k) = g s :=
  hg.progress s k s.now s.start.errCode s.start.errDetail s.start.grat

theorem failStart (s : State) (c d : Nat) : g (s.failStart c d) = g s := hg.progress s Stage.failed s.now c d false

theorem lockStart (s : State) (c : Nat) : g (s.lockStart c) = g s := hg.progress s Stage.locked s.now c 0 false

end StageBlind

/-- The next stage keeps what it keeps where the start goes on. -/
theorem andThen_keeps {f : State → State} {s : State} (hf : g (f s) = g s) : g (s.andThen f) = g s := by
  unfold State.andThen
  split
  · exact hf
  · rfl

/-- Nor does it heed the bank records and the choice among them. -/
structure BankBlind (g : State → β) : Prop extends StageBlind g where
  banks : ∀ s a b c, g { s with start := { s.start with banks := a, bank := b, fallback := c } } = g s

namespace BankBlind
variable (hg : BankBlind g)
include hg

theorem setBank (s : State) (k : Nat) (b : Bank) : g (s.setBank k b) = g s :=
  hg.banks s (s.start.banks.set k b) s.start.bank s.start.fallback

theorem badBank (s : State) (k r : Nat) : g (s.badBank k r) = g s := (hg.raise ..).trans (hg.setBank ..)

/-- A start that falls back notes it. -/
theorem fallback (s : State) : g { s with start := { s.start with fallback := true } } = g s :=
  hg.banks s s.start.banks s.start.bank true

theorem readHeader (s : State) (e : StartEnv) (k : Nat) : g (s.readHeader e k) = g s :=
  ite_keeps (hg.setBank ..) (hg.badBank ..)

theorem tryBanks (e : StartEnv) (l : List Nat) (last : Nat) (s : State) : g (State.tryBanks e l last s) = g s := by
  induction l generalizing last s with
  | nil => exact hg.failStart s 5 last
  | cons k l ih =>
    unfold State.tryBanks
    split
    · exact hg.banks s s.start.banks k s.start.fallback
    · exact (ih _ _).trans ((hg.fallback _).trans (hg.badBank ..))

theorem stageVerify (s : State) (e : StartEnv) : g (s.stageVerify e) = g s :=
  (hg.tryBanks ..).trans ((hg.readHeader ..).trans ((hg.readHeader ..).trans (hg.enterStage ..)))

/-- BOOT keeps it where what follows VERIFY does. -/
theorem stageBoot {s : State} {e : StartEnv} (hh : g ((s.enterStage Stage.boot).stageVerify e).stageHbm =
      g ((s.enterStage Stage.boot).stageVerify e)) : g (s.stageBoot e) = g s := by
  unfold State.stageBoot
  dsimp only
  split
  · exact (andThen_keeps hh).trans ((hg.stageVerify ..).trans (hg.enterStage ..))
  · exact (hg.failStart ..).trans (hg.enterStage ..)

end BankBlind

/-! ## Units and the integrity block -/

/-- Nor the units and the integrity block. -/
structure GraticuleBlind (g : State → β) : Prop extends EventBlind g where
  graticule : ∀ s u i, g { s with units := u, integ := i } = g s

namespace GraticuleBlind
variable (hg : GraticuleBlind g)
include hg

theorem setUnit (s : State) (u : Nat) (f : UnitSt → UnitSt) : g (s.setUnit u f) = g s := hg.graticule s _ s.integ

theorem degradeTest (s : State) : g s.degradeTest = g s := by
  unfold State.degradeTest
  split
  · exact (hg.raise ..).trans (hg.graticule s s.units _)
  · rfl

theorem charge (s : State) (u row : Nat) : g (s.charge u row) = g s := (hg.raise ..).trans (hg.graticule s _ _)

theorem chargePairs (s : State) (n : Nat) (l : List Nat) : g (s.chargePairs n l) = g s :=
  foldl_keeps (fun t i => by
    split
    · exact (hg.charge ..).trans (hg.charge ..)
    · rfl) _ s

end GraticuleBlind

/-! ## LOAD -/

/-- Nor what LOAD writes: the policy, the image, the cores that leave reset. -/
structure LoadBlind (g : State → β) : Prop extends GraticuleBlind g where
  loaded : ∀ s n d r e k i b, g { s with
    free := n, datum := d, rng := r, events := e, cores := k, start := { s.start with image := i, loadDone := b } } = g s

namespace LoadBlind
variable (hg : LoadBlind g)
include hg

theorem curveDraws (s : State) (n next : Nat) : g (s.curveDraws n next) = g s :=
  hg.loaded s next s.datum _ s.events s.cores s.start.image s.start.loadDone

theorem loadRoute (b : Bytes) (s : State) (c : Nat) : g (s.loadRoute b c) = g s :=
  hg.loaded s s.free s.datum s.rng _ s.cores s.start.image s.start.loadDone

theorem applyPolicy (s : State) (b : Bytes) : g (s.applyPolicy b) = g s :=
  (foldl_keeps (fun t c => hg.loadRoute b t c) _ _).trans
    (hg.loaded s s.free _ _ s.events s.cores s.start.image s.start.loadDone)

theorem freeCores (s : State) : g s.freeCores = g s :=
  hg.loaded s s.free s.datum s.rng s.events _ s.start.image s.start.loadDone

theorem takeImage (s : State) (r : PackRun) : g (s.takeImage r) = g s := by
  have himage : ∀ t : State, g { t with start := { t.start with image := r.got.image } } = g t := fun t =>
    hg.loaded t t.free t.datum t.rng t.events t.cores r.got.image t.start.loadDone
  have hdone : ∀ t : State, g { t with start := { t.start with loadDone := true } } = g t := fun t =>
    hg.loaded t t.free t.datum t.rng t.events t.cores t.start.image true
  exact (hdone _).trans ((hg.freeCores _).trans ((hg.applyPolicy ..).trans ((hg.badRows ..).trans ((hg.badRows ..).trans
    (himage s)))))

theorem stageLoad (hb : BankBlind g) (e : StartEnv) (n : Nat) (s : State) : g (State.stageLoad e n s) = g s := by
  induction n generalizing s with
  | zero => rfl
  | succ n ih =>
    unfold State.stageLoad
    dsimp only
    split
    · exact (hg.takeImage ..).trans ((hg.curveDraws ..).trans ((hg.chargePairs ..).trans (hb.enterStage ..)))
    · refine (andThen_keeps (ih _)).trans ((hb.tryBanks ..).trans ((hb.enterStage ..).trans ((hb.fallback _).trans
        ((hb.badBank ..).trans (ite_keeps ?_ (hb.enterStage ..))))))
      exact (hg.curveDraws ..).trans ((hg.badRows ..).trans ((hg.chargePairs ..).trans (hb.enterStage ..)))

end LoadBlind

/-! ## Retirement of units -/

/-- What is read of a state does not heed what the retirement of a unit changes: the work in hand beside the graticule. -/
structure WorkBlind (g : State → β) : Prop extends Unheeding g, GraticuleBlind g where
  engines : ∀ s x, g { s with engines := x } = g s
  cleared : ∀ s u, g (s.clearSheet u) = g s
  lanes : ∀ s n p, g { s with keys := { s.keys with ctxSaves := n, preps := p } } = g s
  stateful : ∀ s x, g { s with stateful := x } = g s

namespace WorkBlind
variable (hg : WorkBlind g)
include hg

theorem setLane (s : State) (u l : Nat) (f : Lane → Lane) : g (s.setLane u l f) = g s := hg.setUnit s u _

theorem clearUnit (s : State) (u : Nat) : g (s.clearUnit u) = g s := by
  have he : g (s.endUnit u) = g s := (hg.cleared ..).trans (hg.setUnit ..)
  unfold State.clearUnit
  dsimp only
  split
  · exact (hg.engines _ _).trans he
  · exact he

theorem dropJob (s : State) (u i : Nat) : g (s.dropJob u i) = g s := by
  unfold State.dropJob
  split
  · exact hg.clearUnit s u
  · rfl

theorem freeLanes (s : State) (i : Nat) (p : Part) : g (s.freeLanes i p) = g s := by
  unfold State.freeLanes
  split
  · exact (hg.setLane ..).trans (hg.setLane ..)
  · rfl

theorem saveLane (s : State) (u l : Nat) : g (s.saveLane u l) = g s := by
  unfold State.saveLane
  dsimp only
  split
  · rfl
  · exact (hg.setLane ..).trans ((hg.queues _ _).trans (hg.lanes s (s.keys.ctxSaves + 1) s.keys.preps))

theorem toCheckpoint (s : State) (i u l : Nat) (c : Ctx) : g (s.toCheckpoint i u l c) = g s := by
  obtain ⟨z, hz⟩ := discardLater_frame (((reseated s i u l c).saveLane u l).dropCheckpoint i u l) c
  rw [toCheckpoint_eq, hz]
  exact (hg.ctxs _ z).trans ((hg.setLane ..).trans ((hg.saveLane ..).trans ((hg.setLane ..).trans
    (hg.graticule s _ s.integ))))

theorem withhold (s : State) (i k : Nat) : g (s.withhold i k) = g s := by
  unfold State.withhold
  split
  · rfl
  · split
    · rfl
    · split
      · exact hg.conclude ..
      · split
        · exact hg.conclude ..
        · exact hg.ctxs ..

theorem abandonPart (f : Part → Bool) (i : Nat) (s : State) (k : Nat) : g (State.abandonPart f i s k) = g s := by
  unfold State.abandonPart
  split
  · rfl
  · split
    · rfl
    · split
      · rfl
      · refine (hg.withhold ..).trans ?_
        split
        · exact (hg.toCheckpoint ..).trans (hg.freeLanes ..)
        · exact (foldl_keeps (fun t u => hg.dropJob t u i) _ _).trans (hg.graticule s _ s.integ)

theorem abandon (s : State) (f : Part → Bool) : g (s.abandon f) = g s :=
  foldl_keeps (fun t (p : Nat × Ctx) => foldl_keeps (fun t k => hg.abandonPart f p.1 t k) (List.range p.2.parts.length) t) _ s

theorem dropBuilds (s : State) (u : Nat) : g (s.dropBuilds u) = g s := by
  have hdrop : ∀ t p x, g { t with keys := { t.keys with preps := p }, stateful := x } = g t := fun t p x =>
    (hg.stateful { t with keys := { t.keys with preps := p } } x).trans (hg.lanes t t.keys.ctxSaves p)
  unfold State.dropBuilds
  dsimp only
  refine (hdrop _ _ _).trans (foldl_keeps (fun t (b : Build) =>
    foldl_keeps (fun t v => ?_) ([some b.unit, b.check].filterMap id) t) _ s)
  split
  · split
    · exact hg.clearUnit t v
    · rfl
  · split
    · exact hg.clearUnit t v
    · rfl
  · rfl

theorem abortUnit (s : State) (u : Nat) (f : Part → Bool) : g (s.abortUnit u f) = g s := by
  unfold State.abortUnit
  dsimp only
  refine (hg.clearUnit ..).trans (.trans (foldl_keeps (fun t i => ?_) _ _) ((hg.dropBuilds ..).trans (hg.abandon s f)))
  split
  · exact foldl_keeps (fun t k => hg.abandonPart _ i t k) _ t
  · rfl

theorem retireUnit (s : State) (u cause : Nat) : g (s.retireUnit u cause) = g s := by
  unfold State.retireUnit
  split
  · rfl
  · exact (hg.degradeTest _).trans ((hg.toGraticuleBlind.raise ..).trans ((hg.graticule _ _ _).trans ((hg.setUnit ..).trans
      ((foldl_keeps (fun t l => hg.saveLane t u l) _ _).trans (hg.abortUnit ..)))))

/-! ## SELFTEST -/

theorem advanceKey (s : State) (id : Nat) : g (s.advanceKey id) = g s := by
  unfold State.advanceKey
  split
  · split
    · rfl
    · obtain ⟨t, ht⟩ := s.journalWrite_frame id _ _ _ _ _
      rw [ht]
      exact hg.stateful s t
  · rfl

theorem scanJournal (s : State) (bad : List Nat) : g (s.scanJournal bad) = g s := by
  unfold State.scanJournal
  dsimp only
  split
  · exact (hg.stateful _ _).trans (hg.stateful s _)
  · exact (hg.toGraticuleBlind.raise ..).trans ((hg.stateful _ _).trans ((foldl_keeps (fun t id => hg.advanceKey t id) _ _).trans
      ((hg.stateful _ _).trans (hg.stateful s _))))

theorem stageSelftest (hs : StageBlind g) (s : State) (e : StartEnv) : g (s.stageSelftest e) = g s := by
  have hgrat : ∀ t : State, g { t with start := { t.start with grat := true } } = g t := fun t =>
    hs.progress t t.start.stage t.start.stageFrom t.start.errCode t.start.errDetail true
  exact (hg.scanJournal ..).trans ((foldl_keeps (fun t u => hg.retireUnit t u 4) _ _).trans
    ((foldl_keeps (fun t u => hg.retireUnit t u 3) _ _).trans ((foldl_keeps (fun t u => hg.setUnit t u _) _ _).trans
      ((hgrat _).trans (hs.enterStage ..)))))

end WorkBlind

end

end Sys2Proof.Proofs
end

section
/-! # The choice of a bank (R395, R403) -/

namespace Sys2Proof.Proofs

open Sys2Proof Sys2Proof.Machine Sys2Proof.Claims

section
variable {s : State} {e : StartEnv} {k : Nat}

/-! ## Headers -/

/-- A read error on a bank, at this start. -/
def readErrOf (e : StartEnv) (k : Nat) : Bool := if k = 0 then e.readErrA else e.readErrB

/-- The reason that the header of a bank gives, or 0. -/
def headerOf (s : State) (e : StartEnv) (k : Nat) : Nat := s.headerReason (s.flash k) (readErrOf e k)

/-- The reason that the full read of a bank gives, or 0. -/
def verdictOf (s : State) (e : StartEnv) (k : Nat) : Nat := verifyReason (s.flash k) (readErrOf e k)

/-- The record that reading a header leaves. -/
def headerRecord (s : State) (e : StartEnv) (k : Nat) : Bank :=
  if headerOf s e k = 0 then bankOf (s.flash k) else { Bank.erased with reason := headerOf s e k }

@[simp] theorem headerRecord_reason : (headerRecord s e k).reason = headerOf s e k := by
  unfold headerRecord
  split
  · next h => exact h.symm
  · rfl

theorem headerRecord_seq (h : headerOf s e k = 0) : (headerRecord s e k).seq = Bank.sequenceAt (s.flash k) := by
  rw [headerRecord, if_pos h]
  rfl

theorem badBank_frame (s : State) (k r : Nat) : ∃ ev h l, s.badBank k r =
    { s with start := { s.start with banks := s.start.banks.set k { Bank.erased with reason := r } }, events := ev, host := h
             log := { s.log with queue := l } } := by
  obtain ⟨ev, h, x, -, -, -, hr⟩ := State.raise_frame (s.setBank k { Bank.erased with reason := r }) Ev.cfgBankInvalid Origin.atlas k r 0 0
  exact ⟨ev, h, _, hr⟩

theorem readHeader_frame (s : State) (e : StartEnv) (k : Nat) : ∃ ev h l, s.readHeader e k =
    { s with start := { s.start with banks := s.start.banks.set k (headerRecord s e k) }, events := ev, host := h
             log := { s.log with queue := l } } := by
  have he : s.readHeader e k = if headerOf s e k = 0 then s.setBank k (bankOf (s.flash k)) else s.badBank k (headerOf s e k) := rfl
  by_cases h0 : headerOf s e k = 0
  · rw [he, if_pos h0, headerRecord, if_pos h0]
    exact ⟨_, _, _, rfl⟩
  · rw [he, if_neg h0, headerRecord, if_neg h0]
    exact badBank_frame ..

/-- VERIFY with the two records that the headers give. -/
def headed (s : State) (e : StartEnv) : State :=
  { s with start := { s.start with stage := Stage.verify, stageFrom := s.now, banks := [headerRecord s e 0, headerRecord s e 1] } }

/-- The reading of both headers changes the stage and the records, and raises events. -/
theorem headersRead (h2 : s.start.banks.length = 2) :
    ∃ ev h l, (((s.enterStage Stage.verify).readHeader e 0).readHeader e 1) =
      { headed s e with events := ev, host := h, log := { s.log with queue := l } } := by
  obtain ⟨a, b, hab⟩ := List.length_eq_two.mp h2
  obtain ⟨ev, h, l, h0⟩ := readHeader_frame (s.enterStage Stage.verify) e 0
  obtain ⟨ev', h', l', h1⟩ := readHeader_frame ((s.enterStage Stage.verify).readHeader e 0) e 1
  refine ⟨ev', h', l', h1.trans ?_⟩
  have hset : (s.start.banks.set 0 (headerRecord s e 0)).set 1 (headerRecord s e 1) = [headerRecord s e 0, headerRecord s e 1] := by
    rw [hab]
    rfl
  rw [h0, headed, ← hset]
  rfl

/-! ## The order of the candidates -/

/-- The candidates among two records: the higher SEQUENCE first, bank A on equal ones. -/
def ranked (r : Nat → Bank) : List Nat := (if (r 0).seq < (r 1).seq then [1, 0] else [0, 1]).filter fun k => (r k).reason == 0

section
variable {r : Nat → Bank}

theorem ranked_none (h0 : (r 0).reason ≠ 0) (h1 : (r 1).reason ≠ 0) : ranked r = [] := by
  unfold ranked
  split <;> simp [h0, h1]

/-- A lone candidate. -/
theorem ranked_only (hk : k < 2) (hgood : (r k).reason = 0) (hbad : (r (1 - k)).reason ≠ 0) : ranked r = [k] := by
  obtain rfl | rfl : k = 0 ∨ k = 1 := by omega
  · unfold ranked
    split <;> simp [hgood, hbad]
  · unfold ranked
    split <;> simp [hgood, hbad]

/-- The better of two candidates comes first. -/
theorem ranked_better (hk : k < 2) (hgood : (r k).reason = 0) (hother : (r (1 - k)).reason = 0)
    (hseq : (r (1 - k)).seq < (r k).seq ∨ (k = 0 ∧ (r 1).seq = (r 0).seq)) : ranked r = [k, 1 - k] := by
  obtain rfl | rfl : k = 0 ∨ k = 1 := by omega
  · have hn : ¬ (r 0).seq < (r 1).seq := by
      rcases hseq with hlt | ⟨-, heq⟩
      · exact Nat.lt_asymm hlt
      · omega
    simp [ranked, hn, hgood, hother]
  · have hlt : (r 0).seq < (r 1).seq := hseq.resolve_right fun h => absurd h.1 (by decide)
    simp [ranked, hlt, hgood, hother]

/-- Of two candidates either is first. -/
theorem ranked_both (hk : k < 2) (hgood : (r k).reason = 0) (hother : (r (1 - k)).reason = 0) :
    ranked r = [k, 1 - k] ∨ ranked r = [1 - k, k] := by
  obtain rfl | rfl : k = 0 ∨ k = 1 := by omega
  · rcases Nat.lt_or_ge (r 0).seq (r 1).seq with hlt | hge
    · exact .inr (ranked_better (k := 1) (by decide) hother hgood (.inl hlt))
    · exact .inl (ranked_better (k := 0) (by decide) hgood hother ((Nat.lt_or_eq_of_le hge).imp_right fun heq => ⟨rfl, heq⟩))
  · rcases Nat.lt_or_ge (r 0).seq (r 1).seq with hlt | hge
    · exact .inl (ranked_better (k := 1) (by decide) hgood hother (.inl hlt))
    · exact .inr (ranked_better (k := 0) (by decide) hother hgood ((Nat.lt_or_eq_of_le hge).imp_right fun heq => ⟨rfl, heq⟩))

end

/-- The candidates are those of the two records. -/
theorem candidates_eq {r : Nat → Bank} (hb : s.start.banks = [r 0, r 1]) : s.candidates = ranked r := by
  have h0 : s.start.banks.getD 0 Bank.erased = r 0 := by rw [hb]; rfl
  have h1 : s.start.banks.getD 1 Bank.erased = r 1 := by rw [hb]; rfl
  show (if (s.start.banks.getD 0 Bank.erased).seq < (s.start.banks.getD 1 Bank.erased).seq then [1, 0] else [0, 1]).filter
    (fun k => s.reason k == 0) = ranked r
  rw [h0, h1, ranked]
  refine List.filter_congr fun k hk => ?_
  obtain rfl | rfl : k = 0 ∨ k = 1 := by
    split at hk <;> simpa [or_comm] using hk
  · rw [State.reason, h0]
  · rw [State.reason, h1]

/-! ## The verification of the candidates -/

theorem tryBanks_good {t : List Nat} {last : Nat} (h : verdictOf s e k = 0) :
    State.tryBanks e (k :: t) last s = { s with start := { s.start with bank := k } } := by
  unfold State.tryBanks
  split
  · rfl
  · next hr => exact absurd h hr

/-- A candidate that does not verify leaves the flash and the stage as they were to the next one. -/
theorem tryBanks_bad {t : List Nat} {last : Nat} (h : verdictOf s e k ≠ 0) : ∃ u : State, u.flash = s.flash ∧
    u.start.stage = s.start.stage ∧ State.tryBanks e (k :: t) last s = State.tryBanks e t (verdictOf s e k) u := by
  obtain ⟨ev, ho, l, hb⟩ := badBank_frame s k (verdictOf s e k)
  refine ⟨{ s.badBank k (verdictOf s e k) with start := { (s.badBank k (verdictOf s e k)).start with fallback := true } }, ?_, ?_, ?_⟩
  · rw [hb]
    rfl
  · rw [hb]
  · rw [State.tryBanks]
    split
    · next hr => exact absurd hr h
    · rfl

/-! ## VERIFY -/

/-- VERIFY tries the candidates that the two headers give, on the flash as it is. -/
theorem stageVerify_eq (h2 : s.start.banks.length = 2) : ∃ v : State, v.flash = s.flash ∧ v.start.stage = Stage.verify ∧
    v.start.fallback = s.start.fallback ∧
    s.stageVerify e = State.tryBanks e (ranked (headerRecord s e)) (headerOf s e 1) v := by
  obtain ⟨ev, h, l, hr⟩ := headersRead (e := e) h2
  refine ⟨{ headed s e with events := ev, host := h, log := { s.log with queue := l } }, rfl, rfl, rfl, ?_⟩
  rw [State.stageVerify, hr, ← headerRecord_reason (s := s) (e := e) (k := 1)]
  exact congrFun (congrFun (congrArg _ (candidates_eq rfl)) _) _

/-- The verdict depends on the flash alone. -/
theorem verdictOf_congr {v : State} (h : v.flash = s.flash) (e : StartEnv) (k : Nat) : verdictOf v e k = verdictOf s e k := by
  rw [verdictOf, h, verdictOf]

/-- Without a candidate the start fails with bank B's reason. -/
theorem stageVerify_none (h2 : s.start.banks.length = 2) (h0 : headerOf s e 0 ≠ 0) (h1 : headerOf s e 1 ≠ 0) :
    (s.stageVerify e).start.stage = 0x0F ∧ (s.stageVerify e).start.errCode = 5 ∧
    (s.stageVerify e).start.errDetail = headerOf s e 1 := by
  obtain ⟨v, -, -, -, hs⟩ := stageVerify_eq (e := e) h2
  rw [hs, ranked_none (by simpa using h0) (by simpa using h1)]
  exact ⟨rfl, rfl, rfl⟩

/-- The best candidate is chosen where it verifies, and nothing has been fallen back to. -/
theorem stageVerify_best (h2 : s.start.banks.length = 2) (hk : k < 2) (hh : headerOf s e k = 0) (hv : verdictOf s e k = 0)
    (hbest : headerOf s e (1 - k) ≠ 0 ∨ Bank.sequenceAt (s.flash (1 - k)) < Bank.sequenceAt (s.flash k) ∨
      (k = 0 ∧ Bank.sequenceAt (s.flash 1) = Bank.sequenceAt (s.flash 0))) :
    (s.stageVerify e).start.stage = 0x05 ∧ (s.stageVerify e).start.bank = k ∧
    (s.stageVerify e).start.fallback = s.start.fallback := by
  obtain ⟨v, hflash, hstage, hfall, hs⟩ := stageVerify_eq (e := e) h2
  obtain ⟨t, ht⟩ : ∃ t, ranked (headerRecord s e) = k :: t := by
    by_cases hother : headerOf s e (1 - k) = 0
    · refine ⟨_, ranked_better hk (by simpa using hh) (by simpa using hother) ?_⟩
      rw [headerRecord_seq hh, headerRecord_seq hother]
      refine (hbest.resolve_left (not_not.mpr hother)).imp_right fun ⟨h0, heq⟩ => ⟨h0, ?_⟩
      subst h0
      rw [headerRecord_seq hh, headerRecord_seq hother, heq]
    · exact ⟨_, ranked_only hk (by simpa using hh) (by simpa using hother)⟩
  rw [hs, ht, tryBanks_good ((verdictOf_congr hflash e k).trans hv)]
  exact ⟨hstage, rfl, hfall⟩

/-- A candidate that verifies is chosen where the other does not. -/
theorem stageVerify_other (h2 : s.start.banks.length = 2) (hk : k < 2) (hh : headerOf s e k = 0) (hv : verdictOf s e k = 0)
    (hother : headerOf s e (1 - k) = 0) (hbad : verdictOf s e (1 - k) ≠ 0) :
    (s.stageVerify e).start.stage = 0x05 ∧ (s.stageVerify e).start.bank = k := by
  obtain ⟨v, hflash, hstage, -, hs⟩ := stageVerify_eq (e := e) h2
  rcases ranked_both (r := headerRecord s e) hk (by simpa using hh) (by simpa using hother) with ht | ht
  · rw [hs, ht, tryBanks_good ((verdictOf_congr hflash e k).trans hv)]
    exact ⟨hstage, rfl⟩
  · obtain ⟨u, hu, hustage, hb⟩ := tryBanks_bad (t := [k]) (last := headerOf s e 1)
      (ne_of_eq_of_ne (verdictOf_congr hflash e (1 - k)) hbad)
    rw [hs, ht, hb, tryBanks_good ((verdictOf_congr (hu.trans hflash) e k).trans hv)]
    exact ⟨hustage.trans hstage, rfl⟩

/-- A lone candidate that does not verify ends the start with its reason. -/
theorem stageVerify_last (h2 : s.start.banks.length = 2) (hk : k < 2) (hh : headerOf s e k = 0) (hv : verdictOf s e k ≠ 0)
    (hother : headerOf s e (1 - k) ≠ 0) :
    (s.stageVerify e).start.stage = 0x0F ∧ (s.stageVerify e).start.errCode = 5 ∧
    (s.stageVerify e).start.errDetail = verdictOf s e k := by
  obtain ⟨v, hflash, -, -, hs⟩ := stageVerify_eq (e := e) h2
  obtain ⟨u, -, -, hb⟩ := tryBanks_bad (t := []) (last := headerOf s e 1) (ne_of_eq_of_ne (verdictOf_congr hflash e k) hv)
  rw [hs, ranked_only hk (by simpa using hh) (by simpa using hother), hb, verdictOf_congr hflash]
  exact ⟨rfl, rfl, rfl⟩

/-! ## From BOOT to the wait for the HBM -/

/-- The HBM stage waits for the training. -/
theorem leaveHbm_untrained (h : s.start.hbmTrained = false) : s.leaveHbm = s := by
  unfold State.leaveHbm
  split
  · exact if_neg fun hc => absurd (h.symm.trans hc.2.1) Bool.false_ne_true
  · rfl

theorem hbmTrained_blind : BankBlind fun s => s.start.hbmTrained :=
  ⟨⟨⟨fun _ _ _ _ => rfl⟩, fun _ _ _ _ _ _ => rfl⟩, fun _ _ _ _ => rfl⟩

/-- Before the training, BOOT ends where VERIFY does, or in a wait for the HBM. -/
theorem stageBoot_untrained (hh : s.start.hbmTrained = false) (hf : e.flashAnswers = true) : s.stageBoot e =
    ((s.enterStage Stage.boot).stageVerify e).andThen (State.enterStage · Stage.hbm) := by
  have hkeep : ((s.enterStage Stage.boot).stageVerify e).start.hbmTrained = false :=
    (hbmTrained_blind.stageVerify (s.enterStage Stage.boot) e).trans hh
  rw [State.stageBoot, if_pos hf, State.andThen, State.andThen, State.stageHbm, leaveHbm_untrained]
  exact hkeep

/-- What does not heed the choice of a bank is kept from BOOT on, up to a wait for the HBM. -/
theorem BankBlind.stageBoot_waits {β : Type} {g : State → β} (hg : BankBlind g) (hh : s.start.hbmTrained = false) :
    g (s.stageBoot e) = g s := by
  have hkeep : ((s.enterStage Stage.boot).stageVerify e).start.hbmTrained = false :=
    (hbmTrained_blind.stageVerify (s.enterStage Stage.boot) e).trans hh
  refine hg.stageBoot ?_
  rw [State.stageHbm, leaveHbm_untrained (by exact hkeep)]
  exact hg.enterStage ..

end

end Sys2Proof.Proofs
end

section
/-! # Power, t0 and the stages up to the choice of a bank (R244, R245, R276, R364, R394 to R397, R403, R412, R417, R427, R433) -/

namespace Sys2Proof.Proofs

open Sys2Proof Sys2Proof.Machine Sys2Proof.Claims

section
variable {β : Type} {g : State → β} {s t : State} {e : StartEnv}

/-! ## An alarm before READY (R369 to R371, R397) -/

/-- An alarm's event and what it latches. -/
def alarmNoted (s : State) (cls cause : Nat) : State :=
  let first := !s.integ.safe
  let s := s.raise Ev.intAlarm Origin.atlas cls cause (s.datum.v % 2 ^ 32) (s.datum.v / 2 ^ 32)
  { s with integ := { s.integ with
    safe := true
    alarmOut := true
    classes := s.integ.classes ||| 2 ^ (cls - 1)
    firstClass := if first then cls else s.integ.firstClass
    cause := if first then cause else s.integ.cause
    alarmV := if first then (if s.trusted then s.datum.v else 0) else s.integ.alarmV } }

/-- The entry to the safe state at the first alarm. -/
def safeEntered (s : State) : State :=
  let s := s.abortUnits
  { s with
    ctxs := (Tab.keep (fun _ c => !c.batch) s.ctxs).mapVals fun _ c => alarmCtx s.now s.datum.v c
    collectors := []
    queues := s.queues.mapVals fun _ q => alarmQueue s.datum.v q
    log := { s.log with repeatFrom := none, unwritten := 0 }
    rng := { s.rng with fresh := [] }
    keys := { s.keys with ctxKey := [] }
    start := { s.start with commit := none } }

/-- The end of a start by an alarm. -/
def alarmEnded (s : State) (cls : Nat) : State :=
  if s.started && !s.ready && decide (s.start.stage ≠ Stage.locked) && decide (s.start.stage ≠ Stage.failed) then
    { s with start := { s.start with stage := Stage.failed, errCode := 7, errDetail := cls, grat := false } }
  else s

/-- An alarm that is no tamper, in its parts. -/
theorem alarm_eq {cls : Nat} (h : cls ≠ 1) (s : State) (cause : Nat) : s.alarm cls cause =
    alarmEnded (if !s.integ.safe then safeEntered (alarmNoted s cls cause) else alarmNoted s cls cause) cls := by
  have hcls : (if cls = 1 then (alarmNoted s cls cause).zeroise else alarmNoted s cls cause) = alarmNoted s cls cause := if_neg h
  rw [← hcls]
  rfl

/-- What heeds neither events, the integrity block nor the stage is kept by an alarm where the entry to the safe state keeps it. -/
theorem StageBlind.alarm (hg : StageBlind g) (hi : ∀ s i, g { s with integ := i } = g s) {cls : Nat} (hc : cls ≠ 1)
    (s : State) (cause : Nat) (hsafe : g (safeEntered (alarmNoted s cls cause)) = g (alarmNoted s cls cause)) :
    g (s.alarm cls cause) = g s := by
  have hend : ∀ u, g (alarmEnded u cls) = g u := fun u =>
    ite_keeps (hg.progress u Stage.failed u.start.stageFrom 7 cls false) rfl
  have hnoted : g (alarmNoted s cls cause) = g s := (hi _ _).trans (hg.raise ..)
  rw [alarm_eq hc, hend]
  exact (ite_keeps hsafe rfl).trans hnoted

/-- Before READY an alarm ends the start with code 7 and its class. -/
theorem alarm_fails (hs : s.started = true) (hstage : s.start.stage < 0x0C) {cls : Nat} (hc : cls ≠ 1) (cause : Nat) :
    (s.alarm cls cause).start.stage = 0x0F ∧ (s.alarm cls cause).start.errCode = 7 ∧
    (s.alarm cls cause).start.errDetail = cls := by
  have hraise : EventBlind State.start := ⟨fun _ _ _ _ => rfl⟩
  have hnoted : (alarmNoted s cls cause).start = s.start :=
    hraise.raise s Ev.intAlarm Origin.atlas cls cause (s.datum.v % 2 ^ 32) (s.datum.v / 2 ^ 32)
  have hall : ∀ u : State, u.start.perst = s.start.perst → u.start.vddGood = s.start.vddGood → u.start.stage = s.start.stage →
      alarmEnded u cls = { u with start := { u.start with stage := Stage.failed, errCode := 7, errDetail := cls, grat := false } } := by
    intro u hp hv hst
    have hn : s.start.stage ≠ 0x0C ∧ s.start.stage ≠ 0x0E ∧ s.start.stage ≠ 0x0F := by omega
    refine if_pos ?_
    rw [show u.started = true by rw [State.started, hp, hv]; exact hs, State.ready, hst]
    simp [hn]
  have hp := congrArg StartUp.perst hnoted
  have hv := congrArg StartUp.vddGood hnoted
  have hst := congrArg StartUp.stage hnoted
  rw [alarm_eq hc]
  split
  · rw [hall (safeEntered (alarmNoted s cls cause)) hp hv hst]
    exact ⟨rfl, rfl, rfl⟩
  · rw [hall (alarmNoted s cls cause) hp hv hst]
    exact ⟨rfl, rfl, rfl⟩

/-! ## The root (R244, R245, R412) -/

/-- Enrolment with a helper copy, by what the copy regenerates. -/
def enrolWith (s : State) (copy : Bytes) : Option Regenerated → State
  | some r => (({ s with free := s.free + 1, keys := { s.keys with helpA := copy, helpB := copy } } : State).helpers true true).rootFrom r
  | none => ({ s with free := s.free + 1, keys := { s.keys with helpA := copy, helpB := copy } } : State).lockStart 2

/-- An enrolment writes a helper copy of the response and goes by what the copy regenerates. It is a property of the
function, and the copy a variable of it, since the kernel evaluates the copy's decoding, octet by octet, as soon as it
compares an applied enrolment with its unfolded form. -/
def Enrols (f : State → StartEnv → State) : Prop :=
  ∀ s e copy, enrolCopy e.puf (drawBytes s.free 6240) = copy → f s e = enrolWith s copy (regenerate copy e.puf)

theorem enrols : Enrols State.enrol := by
  delta State.enrol
  refine @id (Enrols _) ?_
  intro s e copy hc
  beta_reduce
  rw [hc]
  dsimp only
  generalize regenerate copy e.puf = r
  cases r <;> rfl

theorem enrol_eq (s : State) (e : StartEnv) : ∃ copy, enrolCopy e.puf (drawBytes s.free 6240) = copy ∧
    s.enrol e = enrolWith s copy (regenerate copy e.puf) := ⟨_, rfl, enrols s e _ rfl⟩

/-- What is read of a state heeds neither the stage and the events nor the root and the helper copies. -/
structure PufBlind (g : State → β) : Prop extends StageBlind g where
  rooted : ∀ s n a b c d f h i j, g { s with free := n, keys := { s.keys with
    root := a, rootReady := b, maxCorrected := c, above28 := d, helperA := f, helperB := h, helpA := i, helpB := j } } = g s

namespace PufBlind
variable (hg : PufBlind g)
include hg

theorem helpers (s : State) (a b : Bool) : g (s.helpers a b) = g s :=
  hg.rooted s s.free s.keys.root s.keys.rootReady s.keys.maxCorrected s.keys.above28 a b s.keys.helpA s.keys.helpB

theorem helperCopies (s : State) (n : Nat) (a b : Bytes) :
    g { s with free := n, keys := { s.keys with helpA := a, helpB := b } } = g s :=
  hg.rooted s n s.keys.root s.keys.rootReady s.keys.maxCorrected s.keys.above28 s.keys.helperA s.keys.helperB a b

theorem rootFrom (s : State) (r : Regenerated) : g (s.rootFrom r) = g s := by
  have hroot : g { s with keys := { s.keys with root := r.root, rootReady := true, maxCorrected := r.most, above28 := r.above28 } } =
      g s := hg.rooted s s.free r.root true r.most r.above28 s.keys.helperA s.keys.helperB s.keys.helpA s.keys.helpB
  exact ite_keeps ((hg.raise ..).trans hroot) hroot

theorem enrol (s : State) (e : StartEnv) : g (s.enrol e) = g s := by
  obtain ⟨copy, -, he⟩ := enrol_eq s e
  rw [he]
  cases regenerate copy e.puf with
  | some r => exact (hg.rootFrom ..).trans ((hg.helpers ..).trans (hg.helperCopies ..))
  | none => exact (hg.lockStart ..).trans (hg.helperCopies ..)

theorem stagePuf (s : State) (e : StartEnv) : g (s.stagePuf e) = g s := by
  refine .trans ?_ (hg.enterStage s Stage.puf)
  unfold State.stagePuf
  dsimp only
  refine ite_keeps rfl (ite_keeps (hg.enrol ..) ?_)
  split
  · exact (hg.rootFrom ..).trans (hg.helpers ..)
  · exact (hg.raise ..).trans ((hg.rootFrom ..).trans ((hg.helpers ..).trans
      (hg.helperCopies _ s.free s.keys.helpA s.keys.helpA)))
  · exact (hg.raise ..).trans ((hg.rootFrom ..).trans ((hg.helpers ..).trans
      (hg.helperCopies _ s.free s.keys.helpB s.keys.helpB)))
  · exact hg.lockStart ..

end PufBlind

/-- A root that has been formed stands, in the stage as it is. -/
theorem rootFrom_ready (s : State) (r : Regenerated) :
    (s.rootFrom r).keys.rootReady = true ∧ (s.rootFrom r).start.stage = s.start.stage := by
  have hkeys : EventBlind fun s => (s.keys.rootReady, s.start.stage) := ⟨fun _ _ _ _ => rfl⟩
  have h : ((s.rootFrom r).keys.rootReady, (s.rootFrom r).start.stage) = (true, s.start.stage) := by
    unfold State.rootFrom
    dsimp only
    split
    · exact hkeys.raise ..
    · rfl
  exact Prod.mk.inj h

theorem enrolWith_ready {r : Option Regenerated} (copy : Bytes) (h : r.isSome = true) :
    (enrolWith s copy r).keys.rootReady = true ∧ (enrolWith s copy r).start.stage = s.start.stage := by
  cases r with
  | some r => exact rootFrom_ready ..
  | none => exact absurd h Bool.false_ne_true

/-- The PUF stage forms the root where a copy gives it, or the copy that enrolment writes does. -/
theorem stagePuf_ready (hcode : 1 ≤ s.lcs.code ∧ s.lcs.code ≤ 4)
    (hroot : if s.lcs.code = 1 ∧ s.keys.helpA = [] ∧ s.keys.helpB = [] then
        (regenerate (enrolCopy e.puf (drawBytes s.free 6240)) e.puf).isSome = true
      else (e.helperABad = false ∧ (regenerate s.keys.helpA e.puf).isSome = true) ∨
        (e.helperBBad = false ∧ (regenerate s.keys.helpB e.puf).isSome = true)) :
    (s.stagePuf e).keys.rootReady = true ∧ (s.stagePuf e).start.stage = Stage.puf := by
  have hkeys : EventBlind fun s => (s.keys.rootReady, s.start.stage) := ⟨fun _ _ _ _ => rfl⟩
  have hraised : ∀ (u : State) r c k, ((u.rootFrom r).raise c Origin.atlas k).keys.rootReady = true ∧
      ((u.rootFrom r).raise c Origin.atlas k).start.stage = u.start.stage := fun u r c k => by
    have h := Prod.mk.inj (hkeys.raise (u.rootFrom r) c Origin.atlas k 0 0 0)
    exact ⟨h.1.trans (rootFrom_ready u r).1, h.2.trans (rootFrom_ready u r).2⟩
  have hk : ¬ (s.lcs.code = 0 ∨ s.lcs.code = 5 ∨ s.lcs.code = 7) := by omega
  unfold State.stagePuf
  dsimp only
  rw [if_neg (by exact hk)]
  split at hroot
  · next henrol =>
    obtain ⟨copy, hc, he⟩ := enrol_eq (s.enterStage Stage.puf) e
    rw [show enrolCopy e.puf (drawBytes s.free 6240) = copy from hc] at hroot
    rw [if_pos (by exact henrol), he]
    exact enrolWith_ready copy hroot
  · next henrol =>
    rw [if_neg (by exact henrol)]
    split
    · exact rootFrom_ready ..
    · exact hraised ..
    · exact hraised ..
    · next hnone =>
      obtain ⟨ha, hb⟩ := Prod.mk.inj hnone
      rcases hroot with ⟨hbad, hsome⟩ | ⟨hbad, hsome⟩
      · rw [if_neg (by rw [hbad]; decide)] at ha
        exact absurd hsome (by rw [show regenerate s.keys.helpA e.puf = none from ha]; exact Bool.false_ne_true)
      · rw [if_neg (by rw [hbad]; decide)] at hb
        exact absurd hsome (by rw [show regenerate s.keys.helpB e.puf = none from hb]; exact Bool.false_ne_true)

/-! ## The retirement map (R364) -/

/-- A copy of the map passes at this start. -/
def mapCopyOk (s : State) (e : StartEnv) : Prop :=
  (e.mapAOk = true ∧ mapValid s.integ.mapCopyA = true) ∨ (e.mapBOk = true ∧ mapValid s.integ.mapCopyB = true)

/-- Which copies pass. -/
def mapTested (s : State) (e : StartEnv) : State :=
  { s with integ := { s.integ with
      mapA := e.mapAOk && mapValid s.integ.mapCopyA, mapB := e.mapBOk && mapValid s.integ.mapCopyB } }

theorem mapCopyOk_iff : mapCopyOk s e ↔
    ¬ (!(e.mapAOk && mapValid s.integ.mapCopyA) && !(e.mapBOk && mapValid s.integ.mapCopyB)) = true := by
  rw [mapCopyOk, ← Bool.not_or, Bool.not_eq_true', Bool.not_eq_false, Bool.or_eq_true, Bool.and_eq_true, Bool.and_eq_true]

/-- A map without a valid copy raises an alarm. -/
theorem readMap_alarm (h : ¬ mapCopyOk s e) : s.readMap e = (mapTested s e).alarm 5 0x64 :=
  if_pos (not_not.mp (mapCopyOk_iff.not.mp h))

/-- The reading of a valid copy keeps what heeds neither the units nor the integrity block. -/
theorem GraticuleBlind.readMap_valid (hg : GraticuleBlind g) (h : mapCopyOk s e) : g (s.readMap e) = g s := by
  unfold State.readMap
  dsimp only
  rw [if_neg (mapCopyOk_iff.mp h)]
  exact (hg.degradeTest _).trans ((hg.graticule _ _ _).trans ((foldl_keeps (fun t u => hg.setUnit t u _) _ _).trans
    (hg.graticule s s.units _)))

/-- A state without what the reading of the map writes. -/
def besideMap (s : State) : State :=
  { s with units := [], integ := Integrity.reset, events := EventCtl.reset, host := [], log := { s.log with queue := [] } }

theorem besideMap_blind : GraticuleBlind besideMap := ⟨⟨fun _ _ _ _ => rfl⟩, fun _ _ _ => rfl⟩

/-! ## FUSES (R412, R417) -/

/-- The FUSES stage before the map is read. -/
def fusesEntered (s : State) (e : StartEnv) : State :=
  { s with start := { s.start with stage := Stage.fuses, stageFrom := s.now, fuseRead := true }
           lcs := { s.lcs with vpp := decide (1750 ≤ e.vppMv ∧ e.vppMv ≤ 1890), burnDeferred := false } }

/-- With agreeing readings and no request the state of the counter decides how the start goes on. -/
theorem stageFuses_unpended (ha : e.fuseAgree = true) (hp : s.lcs.pending = none) (hm : mapCopyOk s e) :
    s.stageFuses e = ((fusesEntered s e).readMap e).leaveFuses e := by
  have hb := besideMap_blind.readMap_valid (s := fusesEntered s e) (e := e) hm
  have hstage : ((fusesEntered s e).readMap e).start.stage = Stage.fuses := congrArg (fun t : State => t.start.stage) hb
  have hpend : ((fusesEntered s e).readMap e).lcs.pending = none := (congrArg (fun t : State => t.lcs.pending) hb).trans hp
  have hgo : ((fusesEntered s e).readMap e).goesOn = true := by
    rw [State.goesOn, hstage]
    rfl
  unfold State.stageFuses
  dsimp only
  refine (if_pos hgo).trans ?_
  simp only [ha, Bool.not_true, Bool.false_eq_true, if_false]
  split
  · rfl
  · next hr => exact absurd (hpend.symm.trans hr) (Option.some_ne_none _).symm

/-- Without a valid copy of the map the start ends in the safe state. -/
theorem stageFuses_mapless (hm : ¬ mapCopyOk s e) (hs : s.started = true) :
    (s.stageFuses e).start.stage = 0x0F ∧ (s.stageFuses e).start.errCode = 7 ∧ (s.stageFuses e).start.errDetail = 5 ∧
    (s.stageFuses e).integ.safe = true := by
  obtain ⟨hstage, hcode, hdetail⟩ := alarm_fails (s := mapTested (fusesEntered s e) e) hs (by exact (by decide : (3 : Nat) < 0x0C))
    (by decide : 5 ≠ 1) 0x64
  have hmap := readMap_alarm (s := fusesEntered s e) hm
  have hgo : ((fusesEntered s e).readMap e).goesOn = false := by
    rw [State.goesOn, hmap, hstage]
    rfl
  have he : s.stageFuses e = (fusesEntered s e).readMap e :=
    if_neg (c := ((fusesEntered s e).readMap e).goesOn = true) (Bool.not_eq_true _ ▸ hgo)
  rw [he, hmap]
  exact ⟨hstage, hcode, hdetail, (State.alarm_safe _ _ _).1⟩

end

end Sys2Proof.Proofs
end

section
/-! # A start up to the wait for the HBM (R276, R394 to R397, R403, R412, R427, R433) -/

namespace Sys2Proof.Proofs

open Sys2Proof Sys2Proof.Machine Sys2Proof.Claims

section
variable {β : Type} {g : State → β} {s t b m : State} {e : StartEnv} {k : Nat}

/-! ## Power-up -/

/-- The rails come up with PERST_N asserted, and the entropy source starts. -/
theorem powerUp_starts (a : BitVec 2) (h : s.start.vddGood = false) : ∃ t, Gives (.powerUp a) s t ∧
    t.start = { s.start with vddGood := true, perst := true, smbAddr := a } ∧
    t.rng.stage = .balancing ∧ t.rng.started = s.now ∧ t.rng.drbgs = [] ∧ { t with start := s.start, rng := s.rng } = s := by
  refine ⟨({ s with start := { s.start with vddGood := true, perst := true, smbAddr := a } } : State).startSource,
    if_neg (by rw [h]; decide), rfl, rfl, rfl, rfl, rfl⟩

/-! ## t0 -/

/-- What the device is at t0, with the board's flash, the entropy source begun and the chief core out of reset. -/
def atT0 (s : State) (e : StartEnv) : State :=
  let l := ({ s.lose with start := { s.lose.start with flashA := flashAt s e 0, flashB := flashAt s e 1 } } : State).startSource
  { l with
    log := { l.log with powerCycles := l.log.powerCycles + 1 }
    cores := l.cores.put 0 { Core.reset with held := false }
    start := { l.start with perst := false, stage := Stage.clocks, t0 := l.now, stageFrom := l.now, env := some e } }

/-- The stages that PERST_N's release runs. -/
def started (s : State) (e : StartEnv) : State :=
  (((atT0 s e).stageClocks e).andThen (State.stagePuf · e)).andThen (State.stageFuses · e)

theorem programFlash_lose (s : State) (e : StartEnv) : s.lose.programFlash e =
    { s.lose with start := { s.lose.start with flashA := flashAt s e 0, flashB := flashAt s e 1 } } := by
  unfold State.programFlash flashAt
  cases e.program <;> rfl

theorem perstNDeassert_starts (hv : s.start.vddGood = true) (hp : s.start.perst = true) :
    Gives (.perstNDeassert e) s (started s e) := by
  show execPerstNDeassert e s = _
  rw [execPerstNDeassert, if_neg (by rw [hv, hp]; decide), programFlash_lose]
  rfl

/-- A start that has ended takes no further stage. -/
theorem andThen_ended {f : State → State} (h : s.start.stage = 0x0F ∨ s.start.stage = 0x0E) : s.andThen f = s :=
  if_neg (by rw [State.goesOn]; rcases h with h | h <;> rw [h] <;> decide)

/-- Any other does. -/
theorem andThen_goesOn {f : State → State} (h : s.start.stage < 0x0E) : s.andThen f = f s := by
  have hn : s.start.stage ≠ 0x0F ∧ s.start.stage ≠ 0x0E := by omega
  exact if_pos (by simp [State.goesOn, hn])

/-- References that lock lead to PUF and FUSES. -/
theorem started_locked (h25 : e.clk25 = true) (h100 : e.clk100 = true) (hpuf : ((atT0 s e).stagePuf e).start.stage < 0x0E) :
    started s e = ((atT0 s e).stagePuf e).stageFuses e := by
  have hclocks : (atT0 s e).stageClocks e = atT0 s e := by
    rw [State.stageClocks, h25, h100]
    rfl
  rw [started, hclocks, andThen_goesOn (s := atT0 s e) (by exact (by decide : (1 : Nat) < 0x0E)), andThen_goesOn hpuf]

/-- A reference that does not lock fails the start. -/
theorem started_unlocked {d : Nat} (h : (atT0 s e).stageClocks e = (atT0 s e).failStart 1 d) :
    (started s e).start.stage = 0x0F ∧ (started s e).start.errCode = 1 ∧ (started s e).start.errDetail = d := by
  rw [started, h, andThen_ended (.inl rfl), andThen_ended (.inl rfl)]
  exact ⟨rfl, rfl, rfl⟩

/-! ## What stands from t0 on -/

/-- What a start keeps up to the wait for the HBM. -/
structure Opening where
  perst : Bool
  t0 : Nat
  cycles : Nat
  ctxs : Tab Ctx
  slices : Tab Slice
  queues : Tab Queue
  slots : Tab Slot
  datum : DatumState
  held : Nat → Bool
  source : RngStage
  sourceFrom : Nat
  hbmTrained : Bool

def opening (s : State) : Opening :=
  { perst := s.start.perst, t0 := s.start.t0, cycles := s.log.powerCycles, ctxs := s.ctxs, slices := s.slices, queues := s.queues
    slots := s.keys.slots, datum := s.datum.st, held := fun c => (s.core c).held, source := s.rng.stage
    sourceFrom := s.rng.started, hbmTrained := s.start.hbmTrained }

theorem opening_bankBlind : BankBlind opening :=
  ⟨⟨⟨fun _ _ _ _ => rfl⟩, fun _ _ _ _ _ _ => rfl⟩, fun _ _ _ _ => rfl⟩

theorem opening_graticuleBlind : GraticuleBlind opening := ⟨⟨fun _ _ _ _ => rfl⟩, fun _ _ _ => rfl⟩

theorem opening_pufBlind : PufBlind opening :=
  ⟨⟨⟨fun _ _ _ _ => rfl⟩, fun _ _ _ _ _ _ => rfl⟩, fun _ _ _ _ _ _ _ _ _ _ => rfl⟩

/-- The entry to the safe state aborts commands and queues, of which there are none yet. -/
theorem opening_safeEntered (hc : s.ctxs = []) (hq : s.queues = []) : opening (safeEntered s) = opening s := by
  have hheld : (fun c => ((safeEntered s).core c).held) = fun c => (s.core c).held := by
    funext c
    show ((s.cores.mapVals fun i k => if i < 5 then k else k.endClear).getD c Core.reset).held = (s.cores.getD c Core.reset).held
    rw [Tab.getD, Tab.getD, Tab.find_mapVals]
    cases s.cores.find c with
    | none => rfl
    | some k => exact apply_ite Core.held (c < 5) k k.endClear |>.trans (ite_self _)
  have hctxs : (safeEntered s).ctxs = (Tab.keep (fun _ c => !c.batch) s.ctxs).mapVals fun _ c => alarmCtx s.now s.datum.v c := rfl
  have hqueues : (safeEntered s).queues = s.queues.mapVals fun _ q => alarmQueue s.datum.v q := rfl
  rw [hc] at hctxs
  rw [hq] at hqueues
  unfold opening
  rw [hheld, hctxs, hqueues, hc, hq]
  rfl

theorem opening_readMap (hc : s.ctxs = []) (hq : s.queues = []) : opening (s.readMap e) = opening s := by
  by_cases hm : mapCopyOk s e
  · exact opening_graticuleBlind.readMap_valid hm
  · rw [readMap_alarm hm]
    refine opening_bankBlind.toStageBlind.alarm (fun _ _ => rfl) (by decide) (mapTested s e) 0x64 ?_
    have hnoted : opening (alarmNoted (mapTested s e) 5 0x64) = opening s := opening_bankBlind.raise (mapTested s e) ..
    exact opening_safeEntered ((congrArg Opening.ctxs hnoted).trans hc) ((congrArg Opening.queues hnoted).trans hq)

theorem opening_wipeFor (s : State) (r : LcsReq) : opening (s.wipeFor r) = opening s := by
  unfold State.wipeFor
  split
  · rfl
  · dsimp only
    split <;> rfl

/-- LOCKED, or BOOT up to the wait for the HBM, keeps what does not heed the choice of a bank. -/
theorem BankBlind.leaveFuses_waits (hg : BankBlind g) (hh : s.start.hbmTrained = false) : g (s.leaveFuses e) = g s :=
  ite_keeps (hg.lockStart ..) (ite_keeps (hg.lockStart ..) (hg.stageBoot_waits hh))

theorem opening_stageFuses (hh : s.start.hbmTrained = false) (hc : s.ctxs = []) (hq : s.queues = []) :
    opening (s.stageFuses e) = opening s := by
  have hread : opening ((fusesEntered s e).readMap e) = opening s := opening_readMap (s := fusesEntered s e) hc hq
  have hwaits : ∀ u : State, opening u = opening s → opening (u.leaveFuses e) = opening s := fun u hu =>
    (opening_bankBlind.leaveFuses_waits ((congrArg Opening.hbmTrained hu).trans hh)).trans hu
  refine (andThen_keeps (s := (fusesEntered s e).readMap e) (.trans ?_ hread.symm)).trans hread
  refine ite_keeps ((opening_bankBlind.lockStart ..).trans hread) ?_
  split
  · exact hwaits _ hread
  · next r _ =>
    have hwipe := (opening_wipeFor ((fusesEntered s e).readMap e) r).trans hread
    exact ite_keeps (hwaits _ ((opening_bankBlind.raise ..).trans hread)) (ite_keeps hwipe (hwaits _ hwipe))

/-- A start keeps what stands at t0 up to the wait for the HBM. -/
theorem opening_started (s : State) (e : StartEnv) : opening (started s e) = opening (atT0 s e) := by
  have hclocks : opening ((atT0 s e).stageClocks e) = opening (atT0 s e) :=
    ite_keeps (opening_bankBlind.failStart ..) (ite_keeps (opening_bankBlind.failStart ..) rfl)
  have hpuf : opening (((atT0 s e).stageClocks e).andThen (State.stagePuf · e)) = opening (atT0 s e) :=
    (andThen_keeps (opening_pufBlind.stagePuf ..)).trans hclocks
  exact (andThen_keeps (opening_stageFuses (congrArg Opening.hbmTrained hpuf) (congrArg Opening.ctxs hpuf)
    (congrArg Opening.queues hpuf))).trans hpuf

/-! ## What t0 leaves -/

theorem core_atT0 (s : State) (e : StartEnv) :
    ((atT0 s e).core 0).held = false ∧ ∀ c, c ≠ 0 → ((atT0 s e).core c).held = true := by
  have hcore : ∀ c, (atT0 s e).core c = Tab.getD (Tab.put [] 0 { Core.reset with held := false }) c Core.reset := fun _ => rfl
  refine ⟨by rw [hcore, Tab.getD_put_same], fun c hc => ?_⟩
  rw [hcore, Tab.getD_put_ne _ _ _ hc]
  rfl

/-- The octets that eMRAM holds of the record count the power cycles as they were. -/
theorem stored_powerCycles (l : Recorder) : l.stored.powerCycles = l.powerCycles := by
  unfold Recorder.stored
  split
  · rfl
  · split
    · rfl
    · rfl

/-- What every start shows. -/
theorem started_stands (s : State) (e : StartEnv) :
    let t := started s e
    t.start.perst = false ∧ t.start.t0 = s.now ∧ t.log.powerCycles = s.log.powerCycles + 1 ∧ t.ctxs = [] ∧ t.slices = [] ∧
    t.queues = [] ∧ t.keys.slots = [] ∧ t.datum.st = .unset ∧ (t.core 0).held = false ∧ (∀ c, c ≠ 0 → (t.core c).held = true) ∧
    t.rng.stage = .balancing ∧ t.rng.started = s.now ∧ t.start.hbmTrained = false := by
  intro t
  have h := opening_started s e
  have hheld : ∀ c, (t.core c).held = ((atT0 s e).core c).held := congrFun (congrArg Opening.held h)
  exact ⟨congrArg Opening.perst h, congrArg Opening.t0 h,
    (congrArg Opening.cycles h).trans (congrArg (· + 1) (stored_powerCycles s.log)), congrArg Opening.ctxs h,
    congrArg Opening.slices h, congrArg Opening.queues h, congrArg Opening.slots h, congrArg Opening.datum h,
    (hheld 0).trans (core_atT0 s e).1, fun c hc => (hheld c).trans ((core_atT0 s e).2 c hc), congrArg Opening.source h,
    congrArg Opening.sourceFrom h, congrArg Opening.hbmTrained h⟩

/-! ## Starts without a root (R412) -/

/-- In BLANK, SCRAPPED and with a torn counter the PUF stage forms nothing. -/
theorem stagePuf_rootless (h : s.lcs.code = 0 ∨ s.lcs.code = 5 ∨ s.lcs.code = 7) : s.stagePuf e = s.enterStage Stage.puf :=
  if_pos h

theorem started_rootless (h25 : e.clk25 = true) (h100 : e.clk100 = true) (h : s.lcs.code = 0 ∨ s.lcs.code = 5 ∨ s.lcs.code = 7) :
    started s e = ((atT0 s e).enterStage Stage.puf).stageFuses e := by
  have hpuf := stagePuf_rootless (s := atT0 s e) (e := e) h
  rw [started_locked h25 h100 (by rw [hpuf]; exact (by decide : (2 : Nat) < 0x0E)), hpuf]

/-- Such a start ends in LOCKED. -/
theorem leaveFuses_locked {d : Nat} (h : (s.lcs.code = 7 ∧ d = 3) ∨ ((s.lcs.code = 0 ∨ s.lcs.code = 5) ∧ d = 0)) :
    s.leaveFuses e = s.lockStart d := by
  rcases h with ⟨hc, rfl⟩ | ⟨hc, rfl⟩
  · exact if_pos hc
  · exact (if_neg (by omega)).trans (if_pos hc)

theorem started_locks {d : Nat} (h25 : e.clk25 = true) (h100 : e.clk100 = true) (ha : e.fuseAgree = true) (hm : mapCopyOk s e)
    (hp : s.lcs.pending = none) (h : (s.lcs.code = 7 ∧ d = 3) ∨ ((s.lcs.code = 0 ∨ s.lcs.code = 5) ∧ d = 0)) :
    (started s e).start.stage = 0x0E ∧ (started s e).start.errCode = d ∧ (started s e).keys.rootReady = false := by
  have hread := besideMap_blind.readMap_valid (s := fusesEntered ((atT0 s e).enterStage Stage.puf) e) (e := e) hm
  have hlcs := congrArg (fun t : State => t.lcs.code) hread
  have hkeys := congrArg State.keys hread
  have hrootless : s.lcs.code = 0 ∨ s.lcs.code = 5 ∨ s.lcs.code = 7 := by omega
  have hcode : ((fusesEntered ((atT0 s e).enterStage Stage.puf) e).readMap e).lcs.code = s.lcs.code := hlcs
  rw [← hcode] at h
  have he := leaveFuses_locked (e := e) h
  rw [started_rootless h25 h100 hrootless, stageFuses_unpended ha (by exact hp) (by exact hm), he]
  exact ⟨rfl, rfl, congrArg KeyStore.rootReady hkeys⟩

/-- Without a valid copy of the map it ends in the safe state. -/
theorem started_mapless (h25 : e.clk25 = true) (h100 : e.clk100 = true) (hm : ¬ mapCopyOk s e)
    (h : s.lcs.code = 0 ∨ s.lcs.code = 5 ∨ s.lcs.code = 7) (hv : s.start.vddGood = true) :
    (started s e).start.stage = 0x0F ∧ (started s e).start.errCode = 7 ∧ (started s e).start.errDetail = 5 ∧
    (started s e).integ.safe = true := by
  rw [started_rootless h25 h100 h]
  exact stageFuses_mapless hm (by rw [State.started]; exact hv)

/-! ## Starts that reach BOOT (R244, R245, R403) -/

/-- What the choice of a bank goes by. -/
structure BootInputs where
  groups : List Fuse
  revoked : List Fuse
  signers : List (Option Bytes)
  pending : Option LcsReq
  svnFloor : Nat
  flashA : Bytes
  flashB : Bytes
  banks : List Bank
  fallback : Bool
  hbmTrained : Bool

def bootInputs (s : State) : BootInputs :=
  { groups := s.lcs.groups, revoked := s.lcs.revoked, signers := s.lcs.signers, pending := s.lcs.pending
    svnFloor := s.start.svnFloor, flashA := s.start.flashA, flashB := s.start.flashB, banks := s.start.banks
    fallback := s.start.fallback, hbmTrained := s.start.hbmTrained }

theorem bootInputs_pufBlind : PufBlind bootInputs :=
  ⟨⟨⟨fun _ _ _ _ => rfl⟩, fun _ _ _ _ _ _ => rfl⟩, fun _ _ _ _ _ _ _ _ _ _ => rfl⟩

theorem bootInputs_graticuleBlind : GraticuleBlind bootInputs := ⟨⟨fun _ _ _ _ => rfl⟩, fun _ _ _ => rfl⟩

section
variable (h : bootInputs t = bootInputs s)
include h

theorem code_congr : t.lcs.code = s.lcs.code := by
  have hg : t.lcs.groups = s.lcs.groups := congrArg BootInputs.groups h
  rw [LifeCycle.code, LifeCycle.torn, hg, LifeCycle.code, LifeCycle.torn]

theorem flash_congr : t.flash = s.flash := by
  have ha : t.start.flashA = s.start.flashA := congrArg BootInputs.flashA h
  have hb : t.start.flashB = s.start.flashB := congrArg BootInputs.flashB h
  funext k
  rw [State.flash, ha, hb, State.flash]

theorem signerOk_congr (b : Bytes) : t.signerOk b = s.signerOk b := by
  have hs : t.lcs.signers = s.lcs.signers := congrArg BootInputs.signers h
  have hr : t.lcs.revoked = s.lcs.revoked := congrArg BootInputs.revoked h
  rw [State.signerOk, LifeCycle.signerKey, hs, hr, code_congr h, State.signerOk, LifeCycle.signerKey]

theorem headerReason_congr (b : Bytes) (r : Bool) : t.headerReason b r = s.headerReason b r := by
  have hf : t.start.svnFloor = s.start.svnFloor := congrArg BootInputs.svnFloor h
  rw [State.headerReason, signerOk_congr h, hf, State.headerReason]

theorem headerOf_congr (e : StartEnv) (k : Nat) : headerOf t e k = headerOf s e k := by
  rw [headerOf, headerReason_congr h, flash_congr h, headerOf]

end

/-- The flash at t0 is what the board left. -/
theorem flash_atT0 (s : State) (e : StartEnv) (k : Nat) : (atT0 s e).flash k = flashAt s e k := by
  show (if k = 0 then flashAt s e 0 else flashAt s e 1) = flashAt s e k
  split
  · next h0 => rw [h0]
  · next h0 => simp [flashAt, h0]

theorem headerOf_atT0 (s : State) (e : StartEnv) (k : Nat) : headerOf (atT0 s e) e k = headerAt s e k := by
  rw [headerOf, flash_atT0]
  rfl

theorem verdictOf_atT0 (s : State) (e : StartEnv) (k : Nat) : verdictOf (atT0 s e) e k = verifyAt s e k := by
  rw [verdictOf, flash_atT0]
  rfl

/-- A start that boots reaches BOOT with its root, on the flash of the board. -/
theorem started_boots (h : Boots s e) : ∃ m, bootInputs m = bootInputs (atT0 s e) ∧ m.keys.rootReady = true ∧
    m.start.fuseRead = true ∧ started s e = m.stageBoot e := by
  obtain ⟨hagree, hpend, hmap⟩ := h.fuses
  obtain ⟨hready, hstage⟩ := stagePuf_ready (s := atT0 s e) (e := e) h.state h.root
  have hinteg : PufBlind State.integ := ⟨⟨⟨fun _ _ _ _ => rfl⟩, fun _ _ _ _ _ _ => rfl⟩, fun _ _ _ _ _ _ _ _ _ _ => rfl⟩
  have hin := bootInputs_pufBlind.stagePuf (atT0 s e) e
  have hcopies : mapCopyOk (fusesEntered ((atT0 s e).stagePuf e) e) e := by
    have hi : (fusesEntered ((atT0 s e).stagePuf e) e).integ = (atT0 s e).integ := hinteg.stagePuf (atT0 s e) e
    rw [mapCopyOk, hi]
    exact hmap
  have hread := besideMap_blind.readMap_valid hcopies
  have hm := (bootInputs_graticuleBlind.readMap_valid hcopies).trans hin
  have hcode := (code_congr hm).trans (show (atT0 s e).lcs.code = s.lcs.code from rfl)
  have hk := h.state
  refine ⟨_, hm, (congrArg (fun t : State => t.keys.rootReady) hread).trans hready,
    congrArg (fun t : State => t.start.fuseRead) hread, ?_⟩
  rw [started_locked h.clocks.1 h.clocks.2 (by rw [hstage]; decide),
    stageFuses_unpended hagree ((congrArg BootInputs.pending hin).trans hpend) hcopies]
  exact (if_neg (by omega)).trans (if_neg (by omega))

/-- A start that boots ends where VERIFY ends, or waits for the HBM with the bank that VERIFY chose. -/
theorem boots_verified (h : Boots s e) : ∃ v, bootInputs v = bootInputs (atT0 s e) ∧ v.start.banks.length = 2 ∧
    v.start.fallback = false ∧ started s e = (v.stageVerify e).andThen (State.enterStage · Stage.hbm) ∧
    (started s e).keys.rootReady = true ∧ (started s e).start.fuseRead = true := by
  obtain ⟨m, hm, hready, hfuse, he⟩ := started_boots h
  have hroot : BankBlind fun s => (s.keys.rootReady, s.start.fuseRead) :=
    ⟨⟨⟨fun _ _ _ _ => rfl⟩, fun _ _ _ _ _ _ => rfl⟩, fun _ _ _ _ => rfl⟩
  have hh : m.start.hbmTrained = false := congrArg BootInputs.hbmTrained hm
  have hkeep := Prod.mk.inj (hroot.stageBoot_waits (e := e) hh)
  have hb : m.start.banks = s.start.banks := congrArg BootInputs.banks hm
  refine ⟨m.enterStage Stage.boot, hm, (congrArg List.length hb).trans h.flash.2, congrArg BootInputs.fallback hm,
    he.trans (stageBoot_untrained hh h.flash.1), ?_, ?_⟩
  · rw [he]
    exact hkeep.1.trans hready
  · rw [he]
    exact hkeep.2.trans hfuse

/-- The choice of a bank, by the headers and the verdicts of the board's flash. -/
theorem boots_choose (h : Boots s e) :
    let t := started s e
    (headerAt s e 0 ≠ 0 → headerAt s e 1 ≠ 0 →
      t.start.stage = 0x0F ∧ t.start.errCode = 5 ∧ t.start.errDetail = headerAt s e 1) ∧
    (∀ k, k < 2 → headerAt s e k = 0 → verifyAt s e k = 0 →
      (headerAt s e (1 - k) ≠ 0 ∨ Bank.sequenceAt (flashAt s e (1 - k)) < Bank.sequenceAt (flashAt s e k) ∨
        (k = 0 ∧ Bank.sequenceAt (flashAt s e 1) = Bank.sequenceAt (flashAt s e 0))) →
      t.start.stage = 0x06 ∧ t.start.bank = k ∧ t.start.fallback = false) ∧
    (∀ k, k < 2 → headerAt s e k = 0 → verifyAt s e k = 0 → headerAt s e (1 - k) = 0 → verifyAt s e (1 - k) ≠ 0 →
      t.start.stage = 0x06 ∧ t.start.bank = k) ∧
    (∀ k, k < 2 → headerAt s e k = 0 → verifyAt s e k ≠ 0 → headerAt s e (1 - k) ≠ 0 →
      t.start.stage = 0x0F ∧ t.start.errCode = 5 ∧ t.start.errDetail = verifyAt s e k) := by
  intro t
  obtain ⟨v, hv, h2, hfall, he, -, -⟩ := boots_verified h
  have hheader : ∀ k, headerAt s e k = headerOf v e k := fun k =>
    (headerOf_atT0 s e k).symm.trans (headerOf_congr hv e k).symm
  have hverdict : ∀ k, verifyAt s e k = verdictOf v e k := fun k =>
    (verdictOf_atT0 s e k).symm.trans (verdictOf_congr (flash_congr hv) e k).symm
  have hflash : ∀ k, flashAt s e k = v.flash k := fun k =>
    (flash_atT0 s e k).symm.trans (congrFun (flash_congr hv) k).symm
  have hfailed : (v.stageVerify e).start.stage = 0x0F → t = v.stageVerify e := fun hst => he.trans (andThen_ended (.inl hst))
  have hchosen : (v.stageVerify e).start.stage = 0x05 → t = (v.stageVerify e).enterStage Stage.hbm := fun hst =>
    he.trans (andThen_goesOn (by omega))
  simp only [hheader, hverdict, hflash]
  refine ⟨fun h0 h1 => ?_, fun k hk hh hg hbest => ?_, fun k hk hh hg ho hb => ?_, fun k hk hh hb ho => ?_⟩
  · have hout := stageVerify_none h2 h0 h1
    rw [hfailed hout.1]
    exact hout
  · obtain ⟨hst, hbank, hback⟩ := stageVerify_best h2 hk hh hg hbest
    rw [hchosen hst]
    exact ⟨rfl, hbank, hback.trans hfall⟩
  · obtain ⟨hst, hbank⟩ := stageVerify_other h2 hk hh hg ho hb
    rw [hchosen hst]
    exact ⟨rfl, hbank⟩
  · have hout := stageVerify_last h2 hk hh hb ho
    rw [hfailed hout.1]
    exact hout

end

/-! ## The claim -/

theorem startsAndBanks : Claims.StartsAndBanks := by
  refine ⟨fun a s h => powerUp_starts a h, fun e s hv hp => ⟨started s e, perstNDeassert_starts hv hp, ?_⟩,
    fun e s h => ⟨started s e, perstNDeassert_starts h.power.1 h.power.2, ?_⟩⟩
  · obtain ⟨hperst, ht0, hcycles, hctxs, hslices, hqueues, hslots, hdatum, h0, hheld, hsource, hfrom, htrained⟩ :=
      started_stands s e
    refine ⟨hperst, ht0, hcycles, hctxs, hslices, hqueues, hslots, hdatum, h0, hheld, hsource, hfrom, htrained,
      fun h25 => started_unlocked (if_pos (by rw [h25]; rfl)),
      fun h25 h100 => started_unlocked ((if_neg (by rw [h25]; decide)).trans (if_pos (by rw [h100]; rfl))),
      fun h25 h100 ha hmA hvA hpend => ⟨fun hc => ?_, fun hc => ?_⟩, fun h25 h100 hA hB hc => ?_⟩
    · exact started_locks h25 h100 ha (.inl ⟨hmA, hvA⟩) hpend (.inr ⟨hc, rfl⟩)
    · exact started_locks h25 h100 ha (.inl ⟨hmA, hvA⟩) hpend (.inl ⟨hc, rfl⟩)
    · refine started_mapless h25 h100 ?_ hc hv
      rintro (⟨ha, hva⟩ | ⟨hb, hvb⟩)
      · simp [ha, hva] at hA
      · simp [hb, hvb] at hB
  · obtain ⟨-, -, -, -, -, hready, hfuse⟩ := boots_verified h
    exact ⟨hready, hfuse, boots_choose h⟩

end Sys2Proof.Proofs
end

section
/-! # What the burn of fuses and the stages from LOAD on leave alone (R395, R396, R404, R405, R417) -/

namespace Sys2Proof.Proofs

open Sys2Proof Sys2Proof.Machine Sys2Proof.Claims

section
variable {β : Type} {g : State → β} {s : State} {e : StartEnv}

/-! ## From ENTROPY to READY -/

/-- What heeds neither the stage nor the events nor what READY notes is kept by the last stages. -/
theorem StageBlind.seeded (hg : StageBlind g) (hr : ∀ s k n m d f, g { s with start :=
      { s.start with stage := k, stageFrom := n, readyMs := m, drsSent := d, svnFloor := f } } = g s) (s : State) :
    g s.seeded = g s :=
  ite_keeps (ite_keeps ((hg.becomeReady hr _).trans (hg.enterStage ..)) (hg.enterStage ..)) rfl

/-- READY notes its time and the SVN floor, and raises DEV_READY. -/
theorem becomeReady_frame (s : State) : ∃ ev h r, r.code = Ev.devReady ∧ s.becomeReady =
    { s with
      start := { s.start with
        stage := Stage.ready, stageFrom := s.now, readyMs := (s.now - s.start.t0) / 1000, drsSent := true
        svnFloor := max s.start.svnFloor s.bootBank.minSvn }
      events := ev, host := h, log := { s.log with queue := s.log.queue ++ [r] } } := by
  obtain ⟨ev, h, r, hcode, -, -, hr⟩ := State.raise_frame
    { s with start := { s.start with
        stage := Stage.ready, stageFrom := s.now, readyMs := (s.now - s.start.t0) / 1000, drsSent := true
        svnFloor := max s.start.svnFloor s.bootBank.minSvn } }
    Ev.devReady Origin.atlas ((s.now - s.start.t0) / 1000) s.start.bank s.bootBank.svn 0
  exact ⟨ev, h, r, hcode, hr⟩

theorem becomeReady_stage (s : State) : s.becomeReady.start.stage = Stage.ready := by
  obtain ⟨ev, h, r, -, hr⟩ := becomeReady_frame s
  rw [hr]

/-- From ENTROPY a start waits for entropy, waits for a token, or is ready. -/
theorem seeded_stage (h : s.start.stage = Stage.entropy) : 0x0A ≤ s.seeded.start.stage ∧ s.seeded.start.stage ≤ 0x0C := by
  unfold State.seeded State.enterDatum
  dsimp only
  split
  · split
    · rw [becomeReady_stage]
      decide
    · exact (by decide : (0x0A : Nat) ≤ 0x0B ∧ (0x0B : Nat) ≤ 0x0C)
  · rw [h]
    decide

/-! ## From LOAD to the wait for entropy -/

/-- The stages from LOAD on. -/
def loadOn (s : State) (e : StartEnv) : State :=
  ((State.stageLoad e 2 s).andThen State.stageMeasure).andThen fun s => ((s.stageSelftest e).enterStage Stage.entropy).seeded

/-- The device with its keys made, and its memory filled anew. -/
def keyed (s : State) : State := ({ s with hbm := [], window := [] } : State).makeKeys

theorem afterHbm_eq (s : State) (e : StartEnv) : s.afterHbm e = loadOn (keyed s) e := rfl

/-- What is read of a state does not heed the stages from LOAD to READY. -/
structure ImageBlind (g : State → β) : Prop extends WorkBlind g, LoadBlind g, BankBlind g where
  measured : ∀ s, g s.stageMeasure = g s
  readied : ∀ s k n m d f, g { s with start :=
    { s.start with stage := k, stageFrom := n, readyMs := m, drsSent := d, svnFloor := f } } = g s

theorem ImageBlind.loadOn (hg : ImageBlind g) (s : State) (e : StartEnv) : g (loadOn s e) = g s := by
  have htail : ∀ u : State, g ((u.stageSelftest e).enterStage Stage.entropy).seeded = g u := fun u =>
    (hg.toStageBlind.seeded hg.readied _).trans ((hg.toStageBlind.enterStage ..).trans
      (hg.toWorkBlind.stageSelftest hg.toStageBlind u e))
  exact (andThen_keeps (htail _)).trans ((andThen_keeps (hg.measured _)).trans (hg.toLoadBlind.stageLoad hg.toBankBlind e 2 s))

/-! ## The burn of the fuses (R417, R418) -/

/-- The groups, the request and the burn in hand. -/
structure FuseView where
  groups : List Fuse
  revoked : List Fuse
  pending : Option LcsReq
  burning : List Nat
  burnFrom : Nat

def fuseView (s : State) : FuseView :=
  { groups := s.lcs.groups, revoked := s.lcs.revoked, pending := s.lcs.pending, burning := s.start.burning
    burnFrom := s.start.burnFrom }

theorem fuseView_clearSheet (s : State) (u : Nat) : fuseView (s.clearSheet u) = fuseView s := ite_keeps rfl rfl

theorem fuseView_imageBlind : ImageBlind fuseView where
  ctxs _ _ := rfl
  queues _ _ := rfl
  slots _ _ := rfl
  memory _ _ _ := rfl
  raised _ _ _ _ := rfl
  graticule _ _ _ := rfl
  engines _ _ := rfl
  cleared := fuseView_clearSheet
  lanes _ _ _ := rfl
  stateful _ _ := rfl
  loaded _ _ _ _ _ _ _ _ := rfl
  progress _ _ _ _ _ _ := rfl
  banks _ _ _ _ := rfl
  measured _ := rfl
  readied _ _ _ _ _ _ := rfl

theorem fuseView_pufBlind : PufBlind fuseView where
  toStageBlind := fuseView_imageBlind.toStageBlind
  rooted _ _ _ _ _ _ _ _ _ _ := rfl

theorem fuseView_stageHbm (s : State) : fuseView s.stageHbm = fuseView s := by
  unfold State.stageHbm State.leaveHbm
  split
  · refine ite_keeps ?_ rfl
    exact fuseView_imageBlind.loadOn (keyed (s.enterStage Stage.hbm)) _
  · rfl

theorem fuseView_leaveFuses (s : State) (e : StartEnv) : fuseView (s.leaveFuses e) = fuseView s :=
  ite_keeps rfl (ite_keeps rfl (fuseView_imageBlind.stageBoot (fuseView_stageHbm _)))

theorem fuseView_safeEntered (s : State) : fuseView (safeEntered s) = fuseView s := rfl

theorem fuseView_readMap (s : State) (e : StartEnv) : fuseView (s.readMap e) = fuseView s := by
  by_cases hm : mapCopyOk s e
  · exact fuseView_imageBlind.toGraticuleBlind.readMap_valid hm
  · rw [readMap_alarm hm]
    exact fuseView_imageBlind.toStageBlind.alarm (fun _ _ => rfl) (by decide) (mapTested s e) 0x64 (fuseView_safeEntered _)

/-- Without a request, FUSES begins no burn. -/
theorem fuseView_stageFuses (h : s.lcs.pending = none) : fuseView (s.stageFuses e) = fuseView s := by
  have hread : fuseView ((fusesEntered s e).readMap e) = fuseView s := fuseView_readMap (fusesEntered s e) e
  refine (andThen_keeps (s := (fusesEntered s e).readMap e) ?_).trans hread
  refine ite_keeps (fuseView_imageBlind.toStageBlind.lockStart ..) ?_
  split
  · exact fuseView_leaveFuses ..
  · next r hr =>
    exact absurd ((congrArg FuseView.pending hread).trans h) (by exact ne_of_eq_of_ne hr (Option.some_ne_none r))

/-- After a burn the start goes on with the fuses as they are. -/
theorem fuseView_resumed (c : Prop) [Decidable c] (h : s.lcs.pending = none) :
    fuseView (if c then (s.stagePuf e).andThen (State.stageFuses · e) else s.leaveFuses e) = fuseView s := by
  have hpuf := fuseView_pufBlind.stagePuf s e
  exact ite_keeps ((andThen_keeps (fuseView_stageFuses ((congrArg FuseView.pending hpuf).trans h))).trans hpuf)
    (fuseView_leaveFuses ..)

/-- The end of a burn deletes the request and leaves the groups as read. -/
theorem fuseView_burnt (s : State) (e : StartEnv) (r : LcsReq) : fuseView (s.burnt e r) = { fuseView s with pending := none } := by
  have hraise : ∀ (u : State) a b, fuseView (u.raise Ev.lcsTransition Origin.atlas a b) = fuseView u := fun u a b =>
    fuseView_imageBlind.toStageBlind.raise u ..
  exact (fuseView_resumed _ (congrArg FuseView.pending (hraise _ _ _))).trans (hraise _ _ _)

/-- What the reading of a group changes. -/
theorem burn_fields (l : LifeCycle) (g n : Nat) :
    (l.burn g n).groups = (if g ≤ 5 then l.groups.set (g - 1) (fuseOf n) else l.groups) ∧
    (l.burn g n).revoked = (if 6 ≤ g then l.revoked.set (g - 6) (fuseOf n) else l.revoked) ∧
    (l.burn g n).pending = l.pending := by
  unfold LifeCycle.burn
  by_cases h : g ≤ 5
  · simp [h, show ¬ 6 ≤ g by omega]
  · simp [h, show 6 ≤ g by omega]

end

end Sys2Proof.Proofs
end

section
/-! # The end of a fuse group's burn (R417, R418) -/

namespace Sys2Proof.Proofs

open Sys2Proof Sys2Proof.Machine Sys2Proof.Claims

section
variable {s : State} {e : StartEnv} {n g : Nat} {l : List Nat} {r : LcsReq}

/-- The device once the group at the head of a burn has been read back. -/
def groupRead (s : State) (g n : Nat) (l : List Nat) : State :=
  { s with lcs := s.lcs.burn g n, start := { s.start with burning := l, burnFrom := s.now } }

/-- A burn that waits for its margin. -/
def burnPut (s : State) : State := { s with lcs := { s.lcs with burnDeferred := true } }

/-- The burn goes on: the device is in FUSES and no alarm has been raised. -/
def burnRuns (s : State) : Bool := !s.start.perst && decide (s.start.stage = Stage.fuses) && !s.integ.safe

theorem burnRuns_iff : burnRuns s = true ↔ s.start.perst = false ∧ s.start.stage = 0x03 ∧ s.integ.safe = false := by
  simp [burnRuns, and_assoc, Stage.fuses]

theorem fuseView_burnPut (s : State) : fuseView (burnPut s) = fuseView s := rfl

/-- The fuses after a group that was read while the burn ran. -/
def burnView (s : State) (e : StartEnv) (g n : Nat) (l : List Nat) : FuseView :=
  { groups := (s.lcs.burn g n).groups, revoked := (s.lcs.burn g n).revoked, burnFrom := s.now
    pending := if 6 ≤ n ∧ l = [] then none else s.lcs.pending
    burning := if 6 ≤ n ∧ burnMargin e = true then l else [] }

theorem fuseOf_burnt_iff : fuseOf n = .burnt ↔ 6 ≤ n := by
  unfold fuseOf
  by_cases h : 6 ≤ n
  · simp [h]
  · by_cases h1 : n ≤ 1 <;> simp [h, h1]

theorem fuseView_groupRead (s : State) (g n : Nat) (l : List Nat) : fuseView (groupRead s g n l) =
    { groups := (s.lcs.burn g n).groups, revoked := (s.lcs.burn g n).revoked, pending := s.lcs.pending, burning := l
      burnFrom := s.now } := by
  rw [← (burn_fields s.lcs g n).2.2]
  rfl

section
variable (hb : s.start.burning = g :: l) (hd : s.start.burnFrom + 12000 ≤ s.now)
include hb hd

/-- A burn without a request, or one that a reset or an alarm has cut, ends with the group. -/
theorem burn_rests (h : ∀ e r, s.start.env = some e → s.lcs.pending = some r → burnRuns s = false) :
    Gives (.fuseGroupBurnComplete n) s (groupRead s g n []) := by
  show execFuseGroupBurnComplete n s = _
  have hp := (burn_fields s.lcs g n).2.2
  simp only [execFuseGroupBurnComplete, hb, Nat.not_lt.2 hd, if_false, hp]
  split
  · next e r he hr => exact if_pos (by rw [Bool.not_eq_true']; exact h e r he hr)
  · rfl

section
variable (he : s.start.env = some e) (hr : s.lcs.pending = some r) (hrun : burnRuns s = true)
include he hr hrun

/-- A burn that runs goes by the reading of its group. -/
theorem burn_reads : Gives (.fuseGroupBurnComplete n) s
    (if fuseOf n ≠ .burnt then (groupRead s g n []).leaveFuses e
     else if l.isEmpty then (groupRead s g n l).burnt e r
     else if burnMargin e then groupRead s g n l
     else (burnPut (groupRead s g n [])).leaveFuses e) := by
  show execFuseGroupBurnComplete n s = _
  unfold execFuseGroupBurnComplete
  rw [hb]
  dsimp only
  rw [if_neg (Nat.not_lt.2 hd)]
  split
  · next e' r' he' hr' =>
    obtain rfl : e = e' := Option.some.inj (he.symm.trans he')
    obtain rfl : r = r' := Option.some.inj (hr.symm.trans ((burn_fields s.lcs g n).2.2.symm.trans hr'))
    refine (if_neg (by rw [Bool.not_eq_true', Bool.not_eq_false]; exact hrun)).trans ?_
    simp only [apply_ite Host.Outcome.next]
    rfl
  · next hnone => exact absurd ((burn_fields s.lcs g n).2.2.trans hr) (hnone e r he)

end

/-- What a group's end leaves of the burn. -/
theorem burn_leaves : ∃ t, Gives (.fuseGroupBurnComplete n) s t ∧ t.lcs.groups = (s.lcs.burn g n).groups ∧
    t.lcs.revoked = (s.lcs.burn g n).revoked ∧ (burnRuns s = false → t.start.burning = [] ∧ t.lcs.pending = s.lcs.pending) ∧
    (∀ e r, s.start.env = some e → s.lcs.pending = some r → burnRuns s = true → fuseView t = burnView s e g n l) := by
  by_cases hall : ∃ e r, s.start.env = some e ∧ s.lcs.pending = some r ∧ burnRuns s = true
  · obtain ⟨e, r, he, hr, hrun⟩ := hall
    have hview : ∀ t, fuseView t = burnView s e g n l → t.lcs.groups = (s.lcs.burn g n).groups ∧
        t.lcs.revoked = (s.lcs.burn g n).revoked ∧ (burnRuns s = false → t.start.burning = [] ∧ t.lcs.pending = s.lcs.pending) ∧
        (∀ e r, s.start.env = some e → s.lcs.pending = some r → burnRuns s = true → fuseView t = burnView s e g n l) :=
      fun t h => ⟨congrArg FuseView.groups h, congrArg FuseView.revoked h, fun hf => absurd (hf.symm.trans hrun) Bool.false_ne_true,
        fun e' _ he' _ _ => Option.some.inj (he.symm.trans he') ▸ h⟩
    refine ⟨_, burn_reads hb hd he hr hrun, hview _ ?_⟩
    by_cases hn : 6 ≤ n
    · rw [if_neg (not_not.mpr (fuseOf_burnt_iff.mpr hn))]
      by_cases hl : l = []
      · rw [if_pos (by rw [hl]; rfl), fuseView_burnt, fuseView_groupRead, burnView]
        simp [hn, hl]
      · rw [if_neg (by rw [List.isEmpty_iff]; exact hl)]
        by_cases hm : burnMargin e = true
        · rw [if_pos hm, fuseView_groupRead, burnView]
          simp [hn, hl, hm]
        · rw [if_neg hm, fuseView_leaveFuses, fuseView_burnPut, fuseView_groupRead, burnView]
          simp [hl, hm]
    · rw [if_pos (fuseOf_burnt_iff.not.mpr hn), fuseView_leaveFuses, fuseView_groupRead, burnView]
      simp [hn]
  · have hrest := burn_rests (n := n) hb hd fun e r he hr => Bool.not_eq_true _ ▸ fun h => hall ⟨e, r, he, hr, h⟩
    exact ⟨_, hrest, rfl, rfl, fun _ => ⟨rfl, (burn_fields s.lcs g n).2.2⟩, fun e r he hr hrun => absurd ⟨e, r, he, hr, hrun⟩ hall⟩

/-- The end of a group as the claim states it. -/
theorem fuseGroup_burns (n : Nat) :
    let r : Fuse := if 6 ≤ n then .burnt else if n ≤ 1 then .unburnt else .torn
    ∃ t, Gives (.fuseGroupBurnComplete n) s t ∧
      t.lcs.groups = (if g ≤ 5 then s.lcs.groups.set (g - 1) r else s.lcs.groups) ∧
      t.lcs.revoked = (if 6 ≤ g then s.lcs.revoked.set (g - 6) r else s.lcs.revoked) ∧
      (s.start.perst = true → t.start.burning = [] ∧ t.lcs.pending = s.lcs.pending) ∧
      (∀ e q, s.start.env = some e → s.lcs.pending = some q → s.start.perst = false → s.start.stage = 0x03 →
        s.integ.safe = false →
        (6 ≤ n → l ≠ [] → 780 ≤ e.vddAonMv → 1750 ≤ e.vppMv → e.vppMv ≤ 1890 → t.start.burning = l ∧ t.start.burnFrom = s.now) ∧
        (6 ≤ n → l = [] → t.lcs.pending = none ∧ t.start.burning = []) ∧
        (n < 6 → t.lcs.pending = s.lcs.pending ∧ t.start.burning = [])) := by
  intro r
  obtain ⟨t, hgives, hgroups, hrevoked, hrest, hruns⟩ := burn_leaves (n := n) hb hd
  obtain ⟨hg, hv, -⟩ := burn_fields s.lcs g n
  refine ⟨t, hgives, hgroups.trans hg, hrevoked.trans hv, fun hp => hrest (by simp [burnRuns, hp]),
    fun e q he hq hp hst hsafe => ?_⟩
  have hview := hruns e q he hq (burnRuns_iff.mpr ⟨hp, hst, hsafe⟩)
  have hburning : t.start.burning = _ := congrArg FuseView.burning hview
  have hpending : t.lcs.pending = _ := congrArg FuseView.pending hview
  have hfrom : t.start.burnFrom = s.now := congrArg FuseView.burnFrom hview
  refine ⟨fun hn hl ha hlo hhi => ⟨hburning.trans ?_, hfrom⟩, fun hn hl => ⟨hpending.trans ?_, hburning.trans ?_⟩,
    fun hn => ⟨hpending.trans ?_, hburning.trans ?_⟩⟩
  · exact if_pos ⟨hn, by simp [burnMargin, ha, hlo, hhi]⟩
  · exact if_pos ⟨hn, hl⟩
  · simp [burnView, hl]
  · exact if_neg fun h => Nat.not_le.2 hn h.1
  · exact if_neg fun h => Nat.not_le.2 hn h.1

end
end

end Sys2Proof.Proofs
end

section
/-! # A start from the trained HBM to READY (R246, R290, R395 to R397, R404, R405) -/

namespace Sys2Proof.Proofs

open Sys2Proof Sys2Proof.Machine Sys2Proof.Claims

section
variable {s : State} {e : StartEnv}

/-! ## The end of the HBM's training (R395, R397) -/

/-- The device with a trained HBM. -/
def trained (s : State) : State := { s with start := { s.start with hbmTrained := true } }

/-- Before its end the training is heard. -/
theorem execHbmTraining_heard (hp : s.start.perst = false) (hv : s.start.vddGood = true) (hh : s.start.hbmTrained = false)
    (h0 : 0 < s.start.stage) (h6 : s.start.stage ≤ 0x06) (ok : Bool) :
    execHbmTrainingComplete ok s = if !ok then .next (s.failStart 6 0) else .next (trained s).leaveHbm := by
  refine if_neg ?_
  have hlt : ¬ Stage.hbm < s.start.stage := Nat.not_lt.2 h6
  simp [State.started, hp, hv, hh, hlt, Nat.ne_of_gt h0]

theorem leaveHbm_early (h : s.start.stage ≠ Stage.hbm ∨ s.atlasSeeded = false) : s.leaveHbm = s := by
  unfold State.leaveHbm
  split
  · refine if_neg ?_
    rintro ⟨hst, -, hseed⟩
    rcases h with h | h
    · exact h hst
    · exact Bool.false_ne_true (h.symm.trans hseed)
  · rfl

theorem leaveHbm_afterHbm (he : s.start.env = some e) (hst : s.start.stage = Stage.hbm) (hh : s.start.hbmTrained = true)
    (hseed : s.atlasSeeded = true) : s.leaveHbm = s.afterHbm e := by
  unfold State.leaveHbm
  rw [he]
  exact if_pos ⟨hst, hh, hseed⟩

/-- The memory and the keys that are made once the HBM has trained. -/
structure HbmView where
  trained : Bool
  hbm : Tab Byte
  window : Tab Byte
  vaultKey : Bytes
  tagKey : Bytes
  ctxKey : Bytes

def hbmView (s : State) : HbmView :=
  { trained := s.start.hbmTrained, hbm := s.hbm, window := s.window, vaultKey := s.keys.vaultKey, tagKey := s.keys.tagKey
    ctxKey := s.keys.ctxKey }

theorem hbmView_imageBlind : ImageBlind hbmView where
  ctxs _ _ := rfl
  queues _ _ := rfl
  slots _ _ := rfl
  memory _ _ _ := rfl
  raised _ _ _ _ := rfl
  graticule _ _ _ := rfl
  engines _ _ := rfl
  cleared _ _ := ite_keeps rfl rfl
  lanes _ _ _ := rfl
  stateful _ _ := rfl
  loaded _ _ _ _ _ _ _ _ := rfl
  progress _ _ _ _ _ _ := rfl
  banks _ _ _ _ := rfl
  measured _ := rfl
  readied _ _ _ _ _ _ := rfl

/-- The memory is filled anew, and three draws give the keys. -/
theorem hbmView_keyed (s : State) : hbmView (keyed s) =
    { trained := s.start.hbmTrained, hbm := [], window := [], vaultKey := drawBytes s.free 32
      tagKey := drawBytes (s.free + 1) 32, ctxKey := drawBytes (s.free + 2) 32 } := rfl

/-! ## LOAD and MEASURE (R246, R290, R395, R404) -/

/-- What MEASURE goes by. -/
structure Sources where
  stage : Nat
  bank : Nat
  flashA : Bytes
  flashB : Bytes
  root : Bytes

def sources (s : State) : Sources :=
  { stage := s.start.stage, bank := s.start.bank, flashA := s.start.flashA, flashB := s.start.flashB, root := s.keys.root }

theorem sources_loadBlind : LoadBlind sources where
  raised _ _ _ _ := rfl
  graticule _ _ _ := rfl
  loaded _ _ _ _ _ _ _ _ := rfl

/-- The cores 1 to `n` that leave reset. -/
theorem freed_cores (t : Tab Core) (n c : Nat) (h1 : 1 ≤ c) (hn : c ≤ n) :
    ((List.range n).foldl (fun (t : Tab Core) i => t.put (i + 1) { Core.reset with held := false }) t).getD c Core.reset =
      { Core.reset with held := false } := by
  induction n with
  | zero => omega
  | succ n ih =>
    rw [List.range_succ, List.foldl_append]
    by_cases hc : c = n + 1
    · rw [hc]
      exact Tab.getD_put_same ..
    · exact (Tab.getD_put_ne _ _ _ hc).trans (ih (by omega))

theorem freeCores_held (s : State) (c : Nat) (h1 : 1 ≤ c) (hc : c < 69) : (s.freeCores.cores.getD c Core.reset).held = false := by
  unfold State.freeCores
  rw [freed_cores s.cores 68 c h1 (Nat.le_of_lt_succ hc)]

/-- The end of LOAD. -/
def loadEnded (s : State) : State := { s with start := { s.start with loadDone := true } }

theorem loadEnded_fields (s : State) : (loadEnded s).cores = s.cores ∧ (loadEnded s).start.loadDone = true := ⟨rfl, rfl⟩

/-- An image is in once the cores have left reset. -/
theorem takeImage_frees (s : State) (r : PackRun) : ∃ u : State, s.takeImage r = loadEnded u.freeCores := ⟨_, rfl⟩

theorem takeImage_leaves (s : State) (r : PackRun) : (s.takeImage r).start.loadDone = true ∧
    ∀ c, 1 ≤ c → c < 69 → ((s.takeImage r).core c).held = false := by
  obtain ⟨u, hu⟩ := takeImage_frees s r
  rw [hu]
  refine ⟨(loadEnded_fields _).2, fun c h1 hc => ?_⟩
  rw [State.core, (loadEnded_fields _).1]
  exact freeCores_held u c h1 hc

/-- What the packs of the chosen bank give. -/
def imageRun (s : State) : PackRun := loadImage s.lcs s.free (s.flash s.start.bank)

/-- The device once the curve rows of the chosen bank have been checked. -/
def imageChecked (s : State) (e : StartEnv) : State :=
  let n := (checkedCurves s.lcs (s.flash s.start.bank)).length
  (s.chargePairs n e.curveMismatch).curveDraws n (imageRun s).draw

/-- A bank that loads leaves the device in LOAD with its image. -/
theorem stageLoad_good {n : Nat}
    (h : loadReason s.free (s.flash s.start.bank) (if s.start.bank = 0 then e.secondDiffA else e.secondDiffB) = 0) :
    let t := State.stageLoad e (n + 1) s
    sources t = { sources s with stage := Stage.load } ∧ t.start.loadDone = true ∧ ∀ c, 1 ≤ c → c < 69 → (t.core c).held = false := by
  intro t
  have hsrc : sources (imageChecked (s.enterStage Stage.load) e) = { sources s with stage := Stage.load } :=
    (sources_loadBlind.curveDraws ..).trans (sources_loadBlind.chargePairs (s.enterStage Stage.load) _ _)
  have ht : t = (imageChecked (s.enterStage Stage.load) e).takeImage (imageRun (s.enterStage Stage.load)) := by
    show State.stageLoad e (n + 1) s = _
    unfold State.stageLoad
    dsimp only
    split
    · rfl
    · next hbad => exact absurd h hbad
  rw [ht]
  exact ⟨(sources_loadBlind.takeImage ..).trans hsrc, takeImage_leaves ..⟩

/-- What a device has measured, and what of it has been loaded. -/
structure Measured where
  digests : List Bytes
  measure : Bytes
  cdiX : Bytes
  svn : Nat
  loadDone : Bool
  held : Nat → Bool

def measuredView (s : State) : Measured :=
  { digests := s.keys.digests, measure := s.keys.measure, cdiX := s.keys.cdiX, svn := s.keys.svn, loadDone := s.start.loadDone
    held := fun c => (s.core c).held }

/-- The clearing of a sheet holds no core and frees none. -/
theorem clearSheet_held (s : State) (u c : Nat) : ((s.clearSheet u).core c).held = (s.core c).held := by
  unfold State.clearSheet
  split
  · show ((s.cores.modify (sheetCore u) Core.endClear).getD c Core.reset).held = (s.cores.getD c Core.reset).held
    unfold Tab.getD
    by_cases hc : c = sheetCore u
    · rw [hc, Tab.find_modify_same]
      cases s.cores.find (sheetCore u) <;> rfl
    · rw [Tab.find_modify_ne _ _ hc]
  · rfl

theorem measuredView_workBlind : WorkBlind measuredView where
  ctxs _ _ := rfl
  queues _ _ := rfl
  slots _ _ := rfl
  memory _ _ _ := rfl
  raised _ _ _ _ := rfl
  graticule _ _ _ := rfl
  engines _ _ := rfl
  cleared s u := by
    have hheld : (fun c => ((s.clearSheet u).core c).held) = fun c => (s.core c).held := funext (clearSheet_held s u)
    have hrest : ((s.clearSheet u).keys, (s.clearSheet u).start) = (s.keys, s.start) :=
      ite_keeps (g := fun t : State => (t.keys, t.start)) rfl rfl
    obtain ⟨hk, hs⟩ := Prod.mk.inj hrest
    rw [measuredView, hheld, hk, hs, measuredView]
  lanes _ _ _ := rfl
  stateful _ _ := rfl

theorem measuredView_stageBlind : StageBlind measuredView where
  raised _ _ _ _ := rfl
  progress _ _ _ _ _ _ := rfl

/-- MEASURE chains its digests and derives the compound identifier from the root. -/
theorem stageMeasure_leaves (s : State) :
    let m := measuredView s.stageMeasure
    m.measure = measureChain 0 (List.replicate 48 0) m.digests ∧ m.cdiX = kmac256 32 s.keys.root m.measure "MAELARN-CDI-X" ∧
    m.svn = Bank.svnAt (s.flash s.start.bank) ∧ m.loadDone = s.start.loadDone ∧ m.held = fun c => (s.core c).held :=
  ⟨rfl, rfl, rfl, rfl, rfl⟩

/-- From a bank that loads the start goes on to ENTROPY, DATUM or READY, measured. -/
theorem loadOn_good
    (h : loadReason s.free (s.flash s.start.bank) (if s.start.bank = 0 then e.secondDiffA else e.secondDiffB) = 0) :
    let t := loadOn s e
    0x0A ≤ t.start.stage ∧ t.start.stage ≤ 0x0C ∧ t.start.loadDone = true ∧ (∀ c, 1 ≤ c → c < 69 → (t.core c).held = false) ∧
    t.keys.measure = measureChain 0 (List.replicate 48 0) t.keys.digests ∧
    t.keys.cdiX = kmac256 32 s.keys.root t.keys.measure "MAELARN-CDI-X" ∧ t.keys.svn = Bank.svnAt (s.flash s.start.bank) := by
  intro t
  obtain ⟨hsrc, hdone, hheld⟩ := stageLoad_good (e := e) (n := 1) h
  generalize hL : State.stageLoad e 2 s = L at hsrc hdone hheld
  have hst : L.start.stage = Stage.load := congrArg Sources.stage hsrc
  have hroot : L.keys.root = s.keys.root := congrArg Sources.root hsrc
  have hflash : L.flash L.start.bank = s.flash s.start.bank := by
    have hbank : L.start.bank = s.start.bank := congrArg Sources.bank hsrc
    have ha : L.start.flashA = s.start.flashA := congrArg Sources.flashA hsrc
    have hb : L.start.flashB = s.start.flashB := congrArg Sources.flashB hsrc
    rw [State.flash, ha, hb, hbank, State.flash]
  have ht : t = ((L.stageMeasure.stageSelftest e).enterStage Stage.entropy).seeded := by
    show ((State.stageLoad e 2 s).andThen State.stageMeasure).andThen _ = _
    rw [hL, andThen_goesOn (s := L) (by rw [hst]; decide)]
    exact andThen_goesOn (s := L.stageMeasure) (by exact (by decide : (0x08 : Nat) < 0x0E))
  have hview : measuredView t = measuredView L.stageMeasure := by
    rw [ht]
    exact (measuredView_stageBlind.seeded (fun _ _ _ _ _ _ => rfl) _).trans ((measuredView_stageBlind.enterStage ..).trans
      (measuredView_workBlind.stageSelftest measuredView_stageBlind ..))
  obtain ⟨hmeasure, hcdi, hsvn, hload, hcores⟩ := stageMeasure_leaves L
  rw [← hview] at hmeasure hcdi hsvn hload hcores
  obtain ⟨hlo, hhi⟩ := seeded_stage (s := (L.stageMeasure.stageSelftest e).enterStage Stage.entropy) rfl
  rw [← ht] at hlo hhi
  exact ⟨hlo, hhi, hload.trans hdone, fun c h1 hc => (congrFun hcores c).trans (hheld c h1 hc), hmeasure,
    hcdi.trans (by rw [hroot]; rfl), hsvn.trans (by rw [hflash])⟩

/-- What the stages after the HBM's leave. -/
theorem afterHbm_leaves (hh : s.start.hbmTrained = true) :
    let t := s.afterHbm e
    t.start.hbmTrained = true ∧ t.hbm = [] ∧ t.window = [] ∧ t.keys.vaultKey = drawBytes s.free 32 ∧
    t.keys.tagKey = drawBytes (s.free + 1) 32 ∧ t.keys.ctxKey = drawBytes (s.free + 2) 32 := by
  intro t
  have h : hbmView t = _ := (hbmView_imageBlind.loadOn (keyed s) e).trans (hbmView_keyed s)
  exact ⟨(congrArg HbmView.trained h).trans hh, congrArg HbmView.hbm h, congrArg HbmView.window h, congrArg HbmView.vaultKey h,
    congrArg HbmView.tagKey h, congrArg HbmView.ctxKey h⟩

/-! ## READY (R395, R396, R404, R405) -/

/-- The datum's time has passed without a token in hand. -/
theorem datumAcqExpire_ready (hst : s.start.stage = 0x0B) (hd : s.start.stageFrom + 1000 * s.datum.acqMs ≤ s.now)
    (ht : s.datum.tokens = []) : Gives .datumAcqExpire s s.becomeReady := if_pos ⟨hst, hd, ht⟩

theorem becomeReady_leaves (s : State) :
    let t := s.becomeReady
    t.start.stage = 0x0C ∧ t.start.readyMs = (s.now - s.start.t0) / 1000 ∧ t.start.drsSent = true ∧
    t.start.svnFloor = max s.start.svnFloor (s.start.banks.getD s.start.bank Bank.erased).minSvn ∧
    ∃ r, t.log.queue = s.log.queue ++ [r] ∧ r.code = 0x01 := by
  intro t
  obtain ⟨ev, h, r, hcode, hr⟩ := becomeReady_frame s
  rw [show t = _ from hr]
  exact ⟨rfl, rfl, rfl, rfl, r, rfl, hcode⟩

end

/-! ## The claim -/

theorem startGoesOn : Claims.StartGoesOn := by
  refine ⟨fun n g l s hb hd _ _ => fuseGroup_burns hb hd n, fun s hp hv hh h0 h6 => ?_, fun s hst hd ht =>
    ⟨s.becomeReady, datumAcqExpire_ready hst hd ht, becomeReady_leaves s⟩⟩
  have hheard := execHbmTraining_heard hp hv hh h0 h6
  refine ⟨⟨s.failStart 6 0, hheard false, rfl, rfl, rfl⟩, fun hlt => (hheard true).trans ?_, fun e _ _ hseed => (hheard true).trans ?_,
    fun e hst he hseed => ⟨(trained s).afterHbm e, (hheard true).trans ?_, ?_⟩⟩
  · exact congrArg Host.Outcome.next (leaveHbm_early (s := trained s) (.inl (Nat.ne_of_lt hlt)))
  · exact congrArg Host.Outcome.next (leaveHbm_early (s := trained s) (.inr hseed))
  · exact congrArg Host.Outcome.next (leaveHbm_afterHbm (s := trained s) he hst rfl hseed)
  · obtain ⟨htrained, hhbm, hwindow, hvault, htag, hctx⟩ := afterHbm_leaves (s := trained s) (e := e) rfl
    exact ⟨htrained, hhbm, hwindow, hvault, htag, hctx, fun hbad => loadOn_good (s := keyed (trained s)) hbad⟩

/-- Settles O55: a start up to the choice of a bank, and its later events up to READY. -/
theorem startUp : Obligations.StartUp := ⟨startsAndBanks, startGoesOn⟩

end Sys2Proof.Proofs
end

section
/-! # Entropy: health failures, the source's stages, and the DRBGs (R272 to R285) -/

namespace Sys2Proof.Proofs

open Sys2Proof Sys2Proof.Machine Sys2Proof.Claims

section
variable {s t : State} {x cell d n : Nat} {c : Ctx} {test : HealthTest}

/-! ## What the ends of commands and events leave of the entropy source -/

theorem rng_unheeding : Unheeding State.rng :=
  ⟨fun _ _ => rfl, fun _ _ => rfl, fun _ _ => rfl, fun _ _ _ => rfl, fun _ _ _ _ => rfl⟩

theorem rng_stageBlind : StageBlind State.rng := ⟨⟨fun _ _ _ _ => rfl⟩, fun _ _ _ _ _ _ => rfl⟩

@[simp] theorem raise_rng (s : State) (code origin p0 p1 p2 p3 : Nat) : (s.raise code origin p0 p1 p2 p3).rng = s.rng :=
  rng_unheeding.raise ..

theorem seeded_rng (s : State) : s.seeded.rng = s.rng := rng_stageBlind.seeded (fun _ _ _ _ _ _ => rfl) s

/-! ## Random service halts (R285) -/

/-- What the halt does to one command: it ends where it waits for randomness. -/
def failOne (t : State) (p : Nat × Ctx) : State :=
  if !p.2.awaits then t
  else if p.2.phase = .waiting then t.refuse p.1 St.entropyFailed
  else t.failWith p.1 St.entropyFailed

theorem failWaiting_eq (s : State) : s.failWaiting = s.ctxs.foldl failOne s := rfl

theorem ends_failOne (t : State) (p : Nat × Ctx) : Ends t (failOne t p) := by
  unfold failOne
  split
  · exact .refl t
  · split
    · exact ends_refuse ..
    · exact ends_conclude ..

theorem rng_failWaiting (s : State) : s.failWaiting.rng = s.rng :=
  foldl_keeps (g := State.rng) (f := failOne) (fun _ _ =>
    ite_keeps rfl (ite_keeps (rng_unheeding.refuse ..) (rng_unheeding.conclude ..))) s.ctxs s

/-- A finished packet stays finished while commands end. -/
theorem Ends.finished (h : Ends s t) {d : Ctx} (hd : s.ctxs.find x = some d) (hb : d.batch = false) (hf : d.phase = .finished) :
    ∃ e, t.ctxs.find x = some e ∧ e.phase = .finished := by
  obtain ⟨e, he, hde⟩ := h.ctxs x d hd hb
  obtain ⟨-, hfin | ⟨hphase, -⟩⟩ := hde hb
  · exact ⟨e, he, hfin⟩
  · exact ⟨e, he, hphase.trans hf⟩

/-- A waiting packet that has at most ended since is finished by its turn. -/
theorem failOne_finishes {d : Ctx} (haw : c.awaits = true) (hb : c.batch = false) (hd : t.ctxs.find x = some d)
    (hcd : CtxEnds c d) :
    ∃ e, (failOne t (x, c)).ctxs.find x = some e ∧ e.batch = false ∧ e.phase = .finished := by
  obtain ⟨hdb, hphase⟩ := hcd hb
  obtain ⟨-, hund⟩ : c.waitFrom.isSome = true ∧ c.phase.decided = false := by simpa [Ctx.awaits] using haw
  obtain ⟨e, he, hde⟩ := (ends_failOne t (x, c)).ctxs x d hd hdb
  have hfin : ∃ e, (failOne t (x, c)).ctxs.find x = some e ∧ e.phase = .finished := by
    rcases hphase with hfin | ⟨hsame, -⟩
    · exact (ends_failOne t (x, c)).finished hd hdb hfin
    · have hdu : d.phase.decided = false := by rw [hsame]; exact hund
      simp only [failOne, haw, Bool.not_true, Bool.false_eq_true, if_false]
      split
      · exact find_refuse hd hdu hdb _
      · exact ⟨_, find_conclude hd hdu hdb _, rfl⟩
  obtain ⟨e', he', hf⟩ := hfin
  rw [he] at he'
  cases he'
  exact ⟨e, he, (hde hdb).1, hf⟩

/-- Every packet that waits for randomness is finished, however often its number is listed. -/
theorem failWaiting_finishes (hc : s.ctxs.find x = some c) (haw : c.awaits = true) (hb : c.batch = false) :
    ∃ d, s.failWaiting.ctxs.find x = some d ∧ d.phase = .finished := by
  obtain ⟨before, after, hl⟩ := List.append_of_mem (mem_of_find hc)
  obtain ⟨d, hd, hcd⟩ := (ends_foldl failOne before ends_failOne s).ctxs x c hc hb
  obtain ⟨e, he, heb, hf⟩ := failOne_finishes haw hb hd hcd
  rw [failWaiting_eq, hl, List.foldl_append, List.foldl_cons]
  exact (ends_foldl failOne after ends_failOne _).finished he heb hf

/-- The device once random service has halted, before the event is raised. -/
def serviceHalted (s : State) : State :=
  let t := (s.setRng fun g => { g with stage := .halted, restart := false, fresh := [] }).failWaiting
  { t with integ := { t.integ with alarmOut := true } }

theorem haltRandom_frame (s : State) (n : Nat) :
    ∃ e h l, s.haltRandom n = { serviceHalted s with events := e, host := h, log := l } := by
  obtain ⟨e, h, r, -, -, -, hr⟩ := State.raise_frame (serviceHalted s) Ev.rngHalted Origin.atlas n 0 0 0
  exact ⟨e, h, _, hr⟩

theorem haltRandom_rng (s : State) (n : Nat) :
    (s.haltRandom n).rng = { s.rng with stage := .halted, restart := false, fresh := [] } :=
  (raise_rng ..).trans (rng_failWaiting _)

theorem haltRandom_alarmOut (s : State) (n : Nat) : (s.haltRandom n).integ.alarmOut = true := by
  obtain ⟨e, h, l, hr⟩ := haltRandom_frame s n
  rw [hr]
  rfl

theorem haltRandom_finishes (n : Nat) (hc : s.ctxs.find x = some c) (haw : c.awaits = true) (hb : c.batch = false) :
    ∃ d, (s.haltRandom n).ctxs.find x = some d ∧ d.phase = .finished := by
  obtain ⟨e, h, l, hr⟩ := haltRandom_frame s n
  rw [hr]
  exact failWaiting_finishes (s := s.setRng _) hc haw hb

/-- A DRBG fault halts random service; ALARM_OUT_N is asserted where it had not halted before (R279, R285). -/
theorem drbgFault_halts (s : State) (d : Nat) : (s.drbgFault d).rng.drbgFault = true ∧ (s.drbgFault d).rng.stage = .halted ∧
    (s.rng.stage ≠ .halted → (s.drbgFault d).integ.alarmOut = true) := by
  rw [State.drbgFault]
  generalize hf : (s.setRng fun g => { g with drbgFault := true }).raise _ _ _ = f
  have hrng : f.rng = { s.rng with drbgFault := true } := by
    rw [← hf, raise_rng]
    rfl
  by_cases hs : s.rng.stage = .halted
  · simp [State.rngHalted, hrng, hs]
  · simp [State.rngHalted, hrng, hs, haltRandom_rng, haltRandom_alarmOut]

/-! ## A health failure (R274 to R276, R283, R284) -/

/-- The health failures within 1,000 ms, this one among them. -/
def recentFailures (s : State) : List Nat := s.rng.recent s.now ++ [s.now]

/-- The device with the bits in hand discarded and the failure counted. -/
def failureCounted (s : State) (test : HealthTest) : State :=
  s.discardBits.setRng fun g => { g.count test with failures := recentFailures s }

/-- The device with the failure noted, before the source restarts or halts. -/
def failureNoted (s : State) (test : HealthTest) (cell : Nat) : State :=
  (failureCounted s test).raise Ev.rngTestFail Origin.atlas (testCode test) cell (recentFailures s).length

/-- The source balances again, from the trims that its cells have. -/
def sourceRestarted (s : State) : State :=
  s.setRng fun g => { g with
    stage := .balancing, restart := true, stageFrom := s.now
    cells := g.cells.mapVals fun _ x => { x with balanced := false, since := s.now } }

theorem healthFail_eq (s : State) (test : HealthTest) (cell : Nat) : s.healthFail test cell =
    let n := failureNoted s test cell
    if n.rng.mode then n.haltRandom 0 else if 3 ≤ (recentFailures s).length then n.haltRandom 1 else sourceRestarted n := rfl

theorem failureNoted_rng (s : State) (test : HealthTest) (cell : Nat) :
    (failureNoted s test cell).rng = { s.discardBits.rng.count test with failures := recentFailures s } := raise_rng ..

theorem failureNoted_frame (s : State) (test : HealthTest) (cell : Nat) :
    ∃ g e h l, failureNoted s test cell = { s with rng := g, events := e, host := h, log := l } := by
  obtain ⟨e, h, r, -, -, -, hr⟩ := (failureCounted s test).raise_frame Ev.rngTestFail Origin.atlas (testCode test) cell
    (recentFailures s).length 0
  exact ⟨_, e, h, _, hr⟩

theorem failureNoted_mode (s : State) (test : HealthTest) (cell : Nat) : (failureNoted s test cell).rng.mode = s.rng.mode := by
  rw [failureNoted_rng]
  cases test <;> rfl

theorem healthFail_restarts (test : HealthTest) (cell : Nat) (hm : s.rng.mode = false) (hl : (recentFailures s).length < 3) :
    s.healthFail test cell = sourceRestarted (failureNoted s test cell) := by
  simp [healthFail_eq, failureNoted_mode, hm, Nat.not_le.mpr hl]

theorem healthFail_halts (test : HealthTest) (cell : Nat) (h : s.rng.mode = true ∨ 3 ≤ (recentFailures s).length) :
    ∃ n, s.healthFail test cell = (failureNoted s test cell).haltRandom n := by
  simp only [healthFail_eq, failureNoted_mode]
  split
  · exact ⟨0, rfl⟩
  · next hm => exact ⟨1, if_pos (h.resolve_left hm)⟩

/-- Neither outcome of a failure touches what the failure was noted in, nor the DRBGs. -/
theorem healthFail_rng (s : State) (test : HealthTest) (cell : Nat) : ∃ st again k cells fresh, (s.healthFail test cell).rng =
    { (failureNoted s test cell).rng with stage := st, restart := again, stageFrom := k, cells := cells, fresh := fresh } := by
  by_cases h : s.rng.mode = true ∨ 3 ≤ (recentFailures s).length
  · obtain ⟨n, hn⟩ := healthFail_halts test cell h
    exact ⟨_, _, _, _, _, by rw [hn, haltRandom_rng]⟩
  · obtain ⟨hm, hl⟩ := not_or.mp h
    exact ⟨_, _, _, _, _, by rw [healthFail_restarts test cell (Bool.eq_false_iff.mpr hm) (Nat.not_le.mp hl)]; rfl⟩

theorem drbg_discardBits (s : State) (d : Nat) : s.discardBits.drbg d = { s.drbg d with got := 0 } := by
  unfold State.drbg Tab.getD
  rw [show s.discardBits.rng.drbgs = s.rng.drbgs.mapVals fun _ x => { x with got := 0 } from rfl, Tab.find_mapVals]
  cases s.rng.drbgs.find d <;> rfl

/-- A failure is counted by its test, and no DRBG keeps bits in hand. -/
theorem healthFail_notes (s : State) (test : HealthTest) (cell : Nat) :
    let t := s.healthFail test cell
    t.rng.failures = recentFailures s ∧
      t.rng.rct = (if test = .rct then min (s.rng.rct + 1) 255 else s.rng.rct) ∧
      t.rng.apt = (if test = .apt then min (s.rng.apt + 1) 255 else s.rng.apt) ∧
      t.rng.balance = (if test = .balance then min (s.rng.balance + 1) 255 else s.rng.balance) ∧
      ∀ d, t.drbg d = { s.drbg d with got := 0 } := by
  intro t
  obtain ⟨st, again, k, cells, fresh, hrng⟩ := healthFail_rng s test cell
  have ht : t.rng = _ := hrng
  have hdrbg : ∀ d, t.drbg d = { s.drbg d with got := 0 } := fun d => by
    rw [← drbg_discardBits, State.drbg, ht, failureNoted_rng]
    cases test <;> rfl
  rw [ht, failureNoted_rng]
  cases test <;> exact ⟨rfl, rfl, rfl, rfl, hdrbg⟩

/-- What a test of a cell shows is a health failure where the test runs and fails. -/
theorem execHealthFailure_fails {value : Nat} (hcell : cell < 8) (hrun : s.testsRun test = true)
    (hfail : s.testFails test cell value = true) : execHealthFailure test cell s value = .next (s.healthFail test cell) := by
  simp [execHealthFailure, Nat.not_le.mpr hcell, hrun, hfail]

theorem testsRun_iff : s.testsRun test = true ↔
    s.rng.stage ≠ .off ∧ s.rng.stage ≠ .halted ∧ (test = .balance ∨ s.rng.stage ≠ .balancing) := by
  simp [State.testsRun, State.sourceOn, and_assoc]

theorem testFails_iff {value : Nat} : s.testFails test cell value = true ↔
    (test = .rct ∧ 61 ≤ value) ∨ (test = .apt ∧ 811 ≤ value ∧ value ≤ 1024) ∨
      (test = .balance ∧ ((s.rng.cells.getD cell RngCell.reset).trim = 0 ∨ (s.rng.cells.getD cell RngCell.reset).trim = 4095)) := by
  cases test <;> simp [State.testFails]

theorem healthFail_restarted (hm : s.rng.mode = false) (hl : (recentFailures s).length < 3) (test : HealthTest) (cell : Nat) :
    let t := s.healthFail test cell
    t.rng.stage = .balancing ∧ t.rng.restart = true ∧ t.rng.stageFrom = s.now ∧
      (∀ c x, t.rng.cells.find c = some x → x.balanced = false ∧ x.since = s.now) ∧ t.ctxs = s.ctxs := by
  intro t
  obtain ⟨g, e, h, l, hn⟩ := failureNoted_frame s test cell
  have ht : t = sourceRestarted { s with rng := g, events := e, host := h, log := l } :=
    (healthFail_restarts test cell hm hl).trans (congrArg sourceRestarted hn)
  rw [ht]
  refine ⟨rfl, rfl, rfl, fun c x hx => ?_, rfl⟩
  rw [sourceRestarted, State.setRng, Tab.find_mapVals] at hx
  obtain ⟨y, -, rfl⟩ := Option.map_eq_some_iff.mp hx
  exact ⟨rfl, rfl⟩

theorem healthFail_halted (h : s.rng.mode = true ∨ 3 ≤ (recentFailures s).length) (test : HealthTest) (cell : Nat) :
    let t := s.healthFail test cell
    t.rng.stage = .halted ∧ t.integ.alarmOut = true ∧ t.rng.fresh = [] ∧
      ∀ x c, s.ctxs.find x = some c → c.waitFrom.isSome = true → c.batch = false → c.phase.decided = false →
        ∃ d, t.ctxs.find x = some d ∧ d.phase = .finished := by
  intro t
  obtain ⟨n, hn⟩ := healthFail_halts test cell h
  have ht : t = _ := hn
  rw [ht, haltRandom_rng]
  refine ⟨rfl, haltRandom_alarmOut .., rfl, fun x c hc hw hb hd => ?_⟩
  obtain ⟨g, e, h, l, hnoted⟩ := failureNoted_frame s test cell
  exact haltRandom_finishes n (by rw [hnoted]; exact hc) (by simp [Ctx.awaits, hw, hd]) hb

/-! ## The windows and the stages of the source (R272, R275, R276) -/

theorem newTrim_eq (s : State) (x : RngCell) (ones : Nat) : s.newTrim x ones =
    (if ones = 512 then x.trim else (Config.freeWord s.free).toNat % 4096,
      { s with free := if ones = 512 then s.free else s.free + 1 }) := by
  unfold State.newTrim
  split <;> rfl

theorem balancedOut_eq (s : State) : s.balancedOut = decide (s.rng.stage = .balancing ∧ s.rng.stageFrom + 36000 ≤ s.now) :=
  (Bool.decide_and ..).symm

/-- The device after a window of a cell, which has shown `x`. -/
def windowEnded (s : State) (cell ones : Nat) (x : RngCell) : State :=
  { s with
    free := if ones = 512 then s.free else s.free + 1
    rng := { s.rng with cells := s.rng.cells.put cell x } }

/-- A window of a source that runs, 1,024 ticks after the one before it, ends. -/
theorem execBalanceWindow_ends {ones : Nat} (hcell : cell < 8) (hoff : s.rng.stage ≠ .off) (hhalt : s.rng.stage ≠ .halted)
    (hones : ones ≤ 1024) (hdue : (s.rng.cells.getD cell RngCell.reset).since + 1024 ≤ s.now) :
    execBalanceWindow cell ones s =
      let x := s.rng.cells.getD cell RngCell.reset
      let trim := if ones = 512 then x.trim else (Config.freeWord s.free).toNat % 4096
      let late := s.rng.stage = .balancing ∧ s.rng.stageFrom + 36000 ≤ s.now
      let y : RngCell := { trim := trim, ones := ones, balanced := x.balanced || decide (¬ late), since := s.now }
      if 1 ≤ trim ∧ trim ≤ 4094 then .next (windowEnded s cell ones y)
      else .next ((windowEnded s cell ones { y with balanced := false }).healthFail .balance cell) := by
  have hgo : (!s.sourceOn || decide (1024 < ones) ||
      decide (s.now < (s.rng.cells.getD cell RngCell.reset).since + 1024)) = false := by
    simp [State.sourceOn, hoff, hhalt, hones, hdue]
  rw [execBalanceWindow, if_neg (Nat.not_le.mpr hcell)]
  simp only [hgo, Bool.false_eq_true, if_false, newTrim_eq, Machine.inRange, decide_eq_true_eq, balancedOut_eq, decide_not]
  rfl

theorem execBalanceTimeout_fails (hcell : cell < 8) (hst : s.rng.stage = .balancing) (hlate : s.rng.stageFrom + 36000 ≤ s.now)
    (h : (s.rng.cells.getD cell RngCell.reset).balanced = false ∨ s.rng.stageFrom + 36000 < s.now) :
    execBalanceTimeout cell s = .next (s.healthFail .balance cell) := by
  have hfail : s.balancedOut ∧ (!(s.rng.cells.getD cell RngCell.reset).balanced ∨ s.rng.stageFrom + 36000 < s.now) := by
    simpa [balancedOut_eq, hst, hlate] using h
  rw [execBalanceTimeout, if_neg (Nat.not_le.mpr hcell), if_pos hfail]

theorem execSourceStageComplete_balanced (hst : s.rng.stage = .balancing) (hconv : s.converged = true)
    (hnow : s.now ≤ s.rng.stageFrom + 36000) (f : Option Nat) : execSourceStageComplete s f =
      .next { s with rng := { s.rng with stage := .startupTest, stageFrom := s.now } } := by
  simp [execSourceStageComplete, hst, hconv, hnow, State.setRng]

theorem execSourceStageComplete_failed (hst : s.rng.stage = .startupTest) (hdue : s.rng.stageFrom + 1024 ≤ s.now) (d : Nat) :
    execSourceStageComplete s (some d) = .next (s.drbgFault (if d < 13 then d else 4)) := by
  simp [execSourceStageComplete, hst, Nat.not_lt.mpr hdue]

/-- The source's state once its start-up tests have passed. -/
def sourceRunning (s : State) : Rng :=
  { s.rng with
    stage := .running, restart := false, stageFrom := s.now, blockFrom := s.now
    restarts := if s.rng.restart = true then min (s.rng.restarts + 1) 255 else min s.rng.restarts 255
    restartsTotal := s.rng.restartsTotal + b2n s.rng.restart }

theorem execSourceStageComplete_passed (hst : s.rng.stage = .startupTest) (hdue : s.rng.stageFrom + 1024 ≤ s.now) :
    ∃ t, execSourceStageComplete s none = .next t ∧ t.rng = sourceRunning s := by
  have hrng : { s.rng with
      stage := .running, restart := false, stageFrom := s.now, blockFrom := s.now
      restarts := satAdd 8 s.rng.restarts (b2n s.rng.restart)
      restartsTotal := s.rng.restartsTotal + b2n s.rng.restart } = sourceRunning s := by
    unfold sourceRunning
    cases s.rng.restart <;> rfl
  unfold execSourceStageComplete
  simp only [hst, Nat.not_lt.mpr hdue, if_false]
  refine ⟨_, rfl, .trans ?_ hrng⟩
  split
  · exact raise_rng ..
  · rfl

theorem entropySource : Claims.EntropySource := by
  refine ⟨fun test cell value s hcell hoff hhalt hrun hfail => ?_, fun cell ones s hcell hoff hhalt hones hdue => ?_,
    fun cell s hcell hst hlate => execBalanceTimeout_fails hcell hst hlate,
    fun s => ⟨execSourceStageComplete_balanced, fun hst hdue =>
      ⟨execSourceStageComplete_failed hst hdue, execSourceStageComplete_passed hst hdue⟩⟩⟩
  · obtain ⟨hl, hrct, hapt, hbalance, hdrbg⟩ := healthFail_notes s test cell
    refine ⟨s.healthFail test cell,
      execHealthFailure_fails hcell (testsRun_iff.mpr ⟨hoff, hhalt, hrun⟩) (testFails_iff.mpr hfail),
      hl, hrct, hapt, hbalance, fun d => by rw [hdrbg], fun d => by rw [hdrbg],
      fun hm hlen => healthFail_restarted hm hlen test cell, fun h => healthFail_halted h test cell⟩
  · have hends := execBalanceWindow_ends hcell hoff hhalt hones hdue
    exact ⟨fun hlo hhi => hends.trans (if_pos ⟨hlo, hhi⟩), fun hlimit => hends.trans (if_neg (by omega))⟩

/-! ## Blocks and the DRBGs that they serve (R277, R278, R280, R281) -/

/-- A DRBG that is not listed, or that the list passes over, keeps its entry while others are served. -/
theorem find_serveList_other {now : Nat} {p : Drbg → Bool} {a : Nat} (l : List Nat) (n : Nat) (t : Tab Drbg)
    (h : a ∉ l ∨ p (t.getD a Drbg.reset) = false) : (serveList now p l n t).2.find a = t.find a := by
  induction l generalizing n t with
  | nil => rfl
  | cons d l ih =>
    rw [serveList]
    dsimp only
    split
    · next hp =>
      have hne : a ≠ d := by
        rintro rfl
        rcases h with h | h
        · exact h List.mem_cons_self
        · exact Bool.false_ne_true (h.symm.trans hp)
      rw [ih _ _ (by rw [Tab.getD_put_ne _ _ _ hne]; exact h.imp_left fun h hm => h (List.mem_cons_of_mem _ hm)),
        Tab.find_put_ne _ _ hne]
    · exact ih _ _ (h.imp_left fun h hm => h (List.mem_cons_of_mem _ hm))

/-- The first DRBG of the list is served first. -/
theorem find_serveList_first {now : Nat} {p : Drbg → Bool} {a : Nat} {l : List Nat} (n : Nat) {t : Tab Drbg}
    (hp : p (t.getD a Drbg.reset) = true) (hl : a ∉ l) :
    (serveList now p (a :: l) n t).2.find a = some ((t.getD a Drbg.reset).take now n).1 := by
  rw [serveList]
  dsimp only
  rw [if_pos hp, find_serveList_other _ _ _ (.inl hl), Tab.find_put_same]

/-- What a block leaves for fresh output, and the DRBGs after it: instantiations are served before reseeds. -/
def servedBlock (s : State) : Nat × Tab Drbg :=
  let order := [4, 0, 1, 2, 3, 5, 6, 7, 8, 9, 10, 11, 12]
  let m := serveList s.now (fun x => !x.seeded) order 256 s.rng.drbgs
  serveList s.now (fun x => x.seeded && x.due) order m.1 m.2

/-- The device with a block given out, before the events and the stages that may follow. -/
def blockServed (s : State) : State :=
  s.setRng fun g => { g with drbgs := (servedBlock s).2, fresh := serveFresh g.fresh (servedBlock s).1, blockFrom := s.now }

theorem execConditionedBlock_serves (hrun : s.rng.stage = .running) (hdue : s.rng.blockFrom + 96 ≤ s.now)
    (hstage : s.start.stage ≠ 0x06) : ∃ b : State, execConditionedBlock s = .next b.seeded ∧
      b.rng = (blockServed s).rng ∧ b.start = s.start ∧ b.datum = s.datum := by
  have hgo : ¬ (s.rng.stage ≠ .running ∨ s.now < s.rng.blockFrom + 96) := by simp [hrun, hdue]
  obtain ⟨e, h, r, -, -, -, hr⟩ := (blockServed s).raise_frame Ev.rngSeeded Origin.atlas ((s.now - s.rng.started) / 1000) 0 0 0
  have hexec : execConditionedBlock s =
      let b := if !s.everySeeded && (blockServed s).everySeeded then
        (blockServed s).raise Ev.rngSeeded Origin.atlas ((s.now - s.rng.started) / 1000) else blockServed s
      .next (if b.start.stage = Stage.hbm then b.leaveHbm else b.seeded) := if_neg hgo
  rw [hexec]
  dsimp only
  split
  · rw [hr]
    exact ⟨_, congrArg _ (if_neg hstage), rfl, rfl, rfl⟩
  · exact ⟨_, congrArg _ (if_neg hstage), rfl, rfl, rfl⟩

/-- The atlas DRBG while it waits to be instantiated: it takes the block, and no reseed of it is served after that. -/
theorem find_servedBlock_atlas (hs : (s.drbg 4).seeded = false)
    (hdone : (((s.drbg 4).take s.now 256).1.seeded && ((s.drbg 4).take s.now 256).1.due) = false) :
    (servedBlock s).2.find 4 = some ((s.drbg 4).take s.now 256).1 := by
  have hfirst := find_serveList_first (now := s.now) (p := fun x => !x.seeded) (a := 4)
    (l := [0, 1, 2, 3, 5, 6, 7, 8, 9, 10, 11, 12]) 256 (t := s.rng.drbgs) (by simpa [State.drbg] using hs) (by decide)
  refine (find_serveList_other _ _ _ (.inr ?_)).trans hfirst
  rwa [Tab.getD, hfirst]

theorem take_first_block {x : Drbg} (hs : x.seeded = false) (hg : x.got = 0) (now : Nat) :
    x.take now 256 = ({ x with got := 256 }, 0) := by
  simp [Drbg.take, Drbg.needs, hs, hg]

theorem take_second_block {x : Drbg} (hs : x.seeded = false) (hg : x.got = 256) (now : Nat) :
    x.take now 256 = (x.filled now, 0) := by
  simp [Drbg.take, Drbg.needs, hs, hg]

theorem drbg_of_find {x : Drbg} (h : s.rng.drbgs.find d = some x) : s.drbg d = x := by
  simp [State.drbg, Tab.getD, h]

/-- The atlas DRBG ends the ENTROPY stage: DATUM follows, or READY where no time is given to it (R281, R405). -/
theorem seeded_stage_of_atlas {x : Drbg} (hst : s.start.stage = 0x0A) (hx : s.rng.drbgs.find 4 = some x) (hseed : x.seeded = true) :
    s.seeded.start.stage = if s.datum.acqMs = 0 then 0x0C else 0x0B := by
  have hs : s.seeded = s.enterDatum := if_pos ⟨hst, by simp [State.atlasSeeded, hx, hseed]⟩
  rw [hs, State.enterDatum]
  exact (apply_ite (fun t : State => t.start.stage) ..).trans (by rw [becomeReady_stage]; rfl)

theorem conditionedBlock_serves (hrun : s.rng.stage = .running) (hdue : s.rng.blockFrom + 96 ≤ s.now)
    (hstage : s.start.stage ≠ 0x06) :
    ∃ t, Gives .conditionedBlock s t ∧ t.rng = (blockServed s).rng ∧
      ((s.drbg 4).seeded = false → (s.drbg 4).got = 0 → (t.drbg 4).got = 256 ∧ (t.drbg 4).seeded = false) ∧
      ((s.drbg 4).seeded = false → (s.drbg 4).got = 256 →
        (t.drbg 4).seeded = true ∧ (t.drbg 4).last = s.now ∧ (t.drbg 4).requests = 0 ∧
        (s.start.stage = 0x0A → t.start.stage = (if s.datum.acqMs = 0 then 0x0C else 0x0B))) := by
  obtain ⟨b, hexec, hblock, hstart, hdatum⟩ := execConditionedBlock_serves hrun hdue hstage
  have hrng : b.seeded.rng = (blockServed s).rng := (seeded_rng b).trans hblock
  have hdrbg : ∀ y, (servedBlock s).2.find 4 = some y → b.seeded.drbg 4 = y := fun y hy => drbg_of_find (by rw [hrng]; exact hy)
  refine ⟨_, hexec, hrng, fun hs hg => ?_, fun hs hg => ?_⟩
  · have htake := take_first_block hs hg s.now
    have hfind := find_servedBlock_atlas hs (by simp [htake, hs])
    rw [hdrbg _ hfind, htake]
    exact ⟨rfl, hs⟩
  · have htake := take_second_block hs hg s.now
    have hfind := find_servedBlock_atlas hs (by simp [htake, Drbg.filled])
    rw [htake] at hfind
    rw [hdrbg _ hfind, ← hdatum]
    exact ⟨rfl, rfl, rfl, fun hst => seeded_stage_of_atlas (by rw [hstart, hst]) (by rw [hblock]; exact hfind) rfl⟩

/-! ## Reseeds and the tests of the DRBGs (R278, R279) -/

theorem execDrbgReseed_due (hd : d < 13) (hseed : (s.drbg d).seeded = true) (hhalt : s.rng.stage ≠ .halted)
    (hdue : (s.drbg d).due = false) (hlast : (s.drbg d).last + reseedPeriod d ≤ s.now) : execDrbgReseed d s =
      .next { s with rng := { s.rng with drbgs := s.rng.drbgs.put d { s.drbg d with due := true } } } := by
  simp [execDrbgReseed, Nat.not_le.mpr hd, hseed, State.rngHalted, hhalt, hdue, hlast, State.setRng]

theorem execDrbgReseedLimit_stops (hd : d < 9) (hseed : (s.drbg d).seeded = true)
    (hpast : (s.drbg d).stopped = true ∨ (s.drbg d).last + 1000000 ≤ s.now ∨ 2 ^ 24 ≤ (s.drbg d).requests) :
    execDrbgReseedLimit d s =
      .next { s with rng := { s.rng with drbgs := s.rng.drbgs.put d { s.drbg d with stopped := true, due := true } } } := by
  have hstop : (s.drbg d).past d s.now = true := by simpa [Drbg.past, hd, or_assoc] using hpast
  simp [execDrbgReseedLimit, Nat.not_le.mpr (Nat.lt_trans hd (by decide : 9 < 13)), hseed, hstop, State.setRng]

theorem drbgTested_iff {test : DrbgTest} : s.drbgTested d test = true ↔
    (test = .periodic ∧ (s.drbg d).seeded = true ∧ (s.drbg d).kat + 60000000 ≤ s.now) ∨
      (test = .instantiation ∧ (s.drbg d).seeded = false ∧ s.rng.stage = .running) ∨ (test = .pair ∧ (s.drbg d).seeded = true) := by
  cases test <;> simp [State.drbgTested]

/-- A due test of a DRBG is a fault where it fails; a known-answer test that passes notes its time. -/
theorem execDrbgPeriodicKat_due {test : DrbgTest} (hd : d < 13) (h : s.drbgTested d test = true) (ok : Bool) :
    execDrbgPeriodicKat d test s ok =
      if !ok then .next (s.drbgFault d) else if test = .pair then .next s
      else .next { s with rng := { s.rng with drbgs := s.rng.drbgs.put d { s.drbg d with kat := s.now } } } := by
  rw [execDrbgPeriodicKat, if_neg (Nat.not_le.mpr hd), h]
  rfl

/-! ## The wait for randomness that has run out (R58, R282) -/

theorem execRngWaitExpire_ends {b : Nat} (hc : s.ctxs.find x = some c) (hb : c.waitFrom = some b) (hund : c.phase.decided = false)
    (hset : s.unsettled = false) (hdraw : s.drawReady x c = false) (hdue : b + 1000 * s.rng.waitMs ≤ s.now) :
    execRngWaitExpire x s =
      let t := { s with rng := { s.rng with fresh := s.rng.fresh.filter fun p => p.1 ≠ x } }
      if c.phase = .waiting then .next (t.refuse x ((s.deadlineTest c).getD 0x0601)) else .next (t.failWith x 0x0601) := by
  have hgo : (c.phase.decided || s.unsettled || s.drawReady x c || decide (s.now < b + 1000 * s.rng.waitMs)) = false := by
    simp [hund, hset, hdraw, hdue]
  simp only [execRngWaitExpire, hc, hb, hgo]
  rfl

theorem randomInstances : Claims.RandomInstances := by
  refine ⟨fun s hrun hdue hstage => conditionedBlock_serves hrun hdue hstage,
    fun d s hd hseed => ⟨execDrbgReseed_due hd hseed, fun h9 => execDrbgReseedLimit_stops h9 hseed⟩,
    fun d test s hd h => ?_, fun x b s c hc hb hund hset hdraw hdue => ?_⟩
  · have htest := execDrbgPeriodicKat_due hd (drbgTested_iff.mpr h)
    exact ⟨fun hp => (htest true).trans (if_pos hp), fun hp => (htest true).trans (if_neg hp),
      s.drbgFault d, htest false, drbgFault_halts s d⟩
  · have hends := execRngWaitExpire_ends hc hb hund hset hdraw hdue
    refine ⟨fun hp hd => hends.trans ?_, fun st hp hd => hends.trans ?_, fun hp => hends.trans ?_⟩
    · exact (if_pos hp).trans (by rw [hd]; rfl)
    · exact (if_pos hp).trans (by rw [hd]; rfl)
    · exact if_neg (by simp [hp])

end

/-- Settles O52: a failure is noted and then restarts or halts the source; the DRBGs take a block in the order of their demands. -/
theorem entropyAndInstances : Obligations.EntropyAndInstances := ⟨entropySource, randomInstances⟩

end Sys2Proof.Proofs
end
